-- ==== Sys2Proof/Word.lean ====
section
/-! DEFINITION. The word types, byte strings and the sparse tables that every other file uses. -/

namespace Sys2Proof

/-- One byte. -/
abbrev Byte := BitVec 8

/-- A byte string, first byte first. -/
abbrev Bytes := List Byte

/-- The byte of value `n` modulo 256. -/
def byte (n : Nat) : Byte := BitVec.ofNat 8 n

/-- The `n` bytes of `v`, least significant first (R8). -/
def leBytes (n v : Nat) : Bytes := (List.range n).map fun i => byte (v / 256 ^ i)

/-- The `n` bytes of `v`, most significant first. -/
def beBytes (n v : Nat) : Bytes := (leBytes n v).reverse

/-- The value of a little-endian byte string (R8). -/
def leNat : Bytes → Nat
  | [] => 0
  | b :: bs => b.toNat + 256 * leNat bs

/-- The value of a big-endian byte string. -/
def beNat (bs : Bytes) : Nat := leNat bs.reverse

/-- Bytes `off` to `off + len - 1` of a string. -/
def slice (bs : Bytes) (off len : Nat) : Bytes := (bs.drop off).take len

/-- The little-endian field of `len` bytes at `off`. -/
def leAt (bs : Bytes) (off len : Nat) : Nat := leNat (slice bs off len)

/-- `n` zero bytes. -/
def zeros (n : Nat) : Bytes := List.replicate n 0

/-- A string cut or zero-filled to `n` bytes. -/
def padTo (n : Nat) (bs : Bytes) : Bytes := (bs ++ zeros n).take n

/-- Division rounded up. -/
def ceilDiv (a b : Nat) : Nat := (a + b - 1) / b

/-- Bits `[hi:lo]` of `v` (R7). -/
def bits (v hi lo : Nat) : Nat := (v / 2 ^ lo) % 2 ^ (hi + 1 - lo)

/-- Bit `i` of `v` (R7). -/
def bit (v i : Nat) : Bool := v.testBit i

/-- One bit as a number. -/
def bnat (b : Bool) : Nat := if b then 1 else 0

/-- A field value placed at bit `lo`. -/
def fld (v lo : Nat) : Nat := v * 2 ^ lo

/-- A sparse table: rows in rising key order, at most one a key. -/
abbrev Tab (α : Type) := List (Nat × α)

/-- The row of a key. -/
def Tab.get? {α : Type} (t : Tab α) (k : Nat) : Option α :=
  match t with
  | [] => none
  | (j, a) :: r => if j = k then some a else Tab.get? r k

/-- The table with the row of a key written. -/
def Tab.put {α : Type} (t : Tab α) (k : Nat) (a : α) : Tab α :=
  match t with
  | [] => [(k, a)]
  | (j, b) :: r =>
    if k < j then (k, a) :: (j, b) :: r
    else if k = j then (k, a) :: r
    else (j, b) :: Tab.put r k a

/-- The table without the row of a key. -/
def Tab.del {α : Type} (t : Tab α) (k : Nat) : Tab α := t.filter fun r => r.1 != k

/-- The table with the row of a key changed, where it has one. -/
def Tab.upd {α : Type} (t : Tab α) (k : Nat) (f : α → α) : Tab α :=
  match t.get? k with
  | none => t
  | some a => t.put k (f a)

/-- A key's row or a default. -/
def Tab.getD {α : Type} (t : Tab α) (k : Nat) (d : α) : α := (t.get? k).getD d

/-- Every row changed. -/
def Tab.mapRows {α : Type} (t : Tab α) (f : Nat → α → α) : Tab α := t.map fun r => (r.1, f r.1 r.2)

/-- The keys of a table. -/
def Tab.keys {α : Type} (t : Tab α) : List Nat := t.map Prod.fst

/-- Rising keys: the canonical form of a table. -/
def Tab.sorted {α : Type} (t : Tab α) : Bool :=
  match t with
  | [] => true
  | (k, _) :: r => r.all (fun q => k < q.1) && Tab.sorted r

/-- The entry of a list at a position, changed by `f`. -/
def updAt {α : Type} (l : List α) (i : Nat) (f : α → α) : List α :=
  l.mapIdx fun j a => if j = i then f a else a

/-- The position of an entry with the largest key under `f`, 0 when empty. -/
def maxOf (l : List Nat) : Nat := l.foldl max 0

/-- The sum of a list. -/
def sumOf (l : List Nat) : Nat := l.foldl (· + ·) 0

/-- The least element of a list with more than none. -/
def minOf? : List Nat → Option Nat
  | [] => none
  | a :: l => some (l.foldl min a)

/-- The list without repeats, ascending. -/
def insertSorted (k : Nat) : List Nat → List Nat
  | [] => [k]
  | j :: r => if k < j then k :: j :: r else if k = j then j :: r else j :: insertSorted k r

end Sys2Proof
end

