-- ==== Sys2Proof/Config.lean ====
section
/-! DEFINITION. What an implementation fixes, and the values the spec leaves open: free constants with no body. -/

namespace Sys2Proof.Config

/-- The algorithms of named standards (FIPS 203, 204, 205, SP 800-208, FIPS 180-4, FIPS 202, SP 800-185, SP 800-38F and
so on) whose steps no rule of the spec gives: each is a free function of its inputs (assumption log 3). -/
inductive Prim where
  | mlKemPk | mlKemCt | mlKemSs | mlKemDecaps
  | mlDsaPk | mlDsaSig | falconKey | falconPk | falconSig
  | sealKey | contextKey
  | slhKey | slhSig | hssPk | hssSig | xmssPk | xmssSig
  | mceKey | mcePk | mceError | mceCt | hqcPk | hqcCt | hqcSs | hqcDecaps | hqcReject
  | rsaKey | rsaFault
  | expand | checkpoint | journalBody
  | hash | attestSig | certChain | twinMsg | spdm
  deriving DecidableEq, Repr

/-- The accept or reject decisions of those standards and of checks on signed images. -/
inductive Pred where
  | falconSkOk | mceDecodes | hqcMatches
  | mlDsaValid | slhValid | hssValid | xmssValid
  | chainOk | imageSigOk | planSigOk | tokenCertOk | tokenSigOk | twinSigOk | builtinKatOk
  deriving DecidableEq, Repr

/-- Byte `i` of the output of an algorithm on its inputs. -/
opaque primByte : Prim → List Bytes → Nat → Byte

/-- A number an algorithm gives (a length, a round count), on its inputs. -/
opaque primNat : Prim → List Bytes → Nat → Nat

/-- A decision of a standard on its inputs. -/
opaque primHolds : Pred → List Bytes → Bool

/-- The first `len` bytes an algorithm outputs. -/
def prim (p : Prim) (args : List Bytes) (len : Nat) : Bytes := (List.range len).map (primByte p args)

/-- Bytes that nothing constrains (measured values, values no rule gives). The first argument is the step's free counter. -/
opaque freeByte : Nat → Nat → Byte

/-- `len` fresh bytes. -/
def freeBytes (n len : Nat) : Bytes := (List.range len).map (freeByte n)

/-- What the S strings of the keys derived from the key-table key have in common (R252): the spec prints none of them. -/
opaque keyLabel : Bytes

/-- A choice among alternatives that no rule fixes (a free seat index, ring context, stream index, slot, tile pair). -/
opaque choice : Nat → Nat

/-- The DRBG bytes an opcode reserves for a PARAM_SET, before the limit of one request (R288, R289), where no rule states
the amount. -/
opaque drbgAmount : Nat → Nat → Nat

/-- The number of fixed-time rounds an operation draws, before the cap is applied (R154, R193, R208). -/
opaque freeRounds : Nat → Nat

/-- The unspecified value of a raw command on an even modulus (R226): a function of operands, PARAM_SET and the maker
script image, and of nothing else. -/
opaque evenModulus : Bytes → Nat → List Nat → Nat

/-- What the complete formulas produce for a point off the curve or outside the subgroup (R226). -/
opaque offCurve : Bytes → Nat → List Nat → Nat × Nat

/-- A modular result for an input at or above q (R362): a function of the inputs. -/
opaque outOfRange : Nat → List Nat → Nat

/-- The NaN a binary64 instruction delivers (R366): its payload and sign are not stated. -/
opaque nanPayload : Nat → List Nat → Nat

/-- The words of the maker script image, which no rule gives. -/
opaque makerWord : Nat → BitVec 192

/-- The script headers of the maker image, by opcode and vector width: no rule prints them. -/
opaque makerHeader : Nat → Nat → Bytes

/-- The header row that a PARAM_SET takes in the maker image (R346): no rule numbers the rows. -/
opaque headerRow : Nat → Nat → Nat

/-- The vendor identifier that PCI-SIG assigned (R38), which the spec does not print. -/
opaque vendorId : Nat

/-- The highest speed code and the lanes that the partner at the other end of the link offers (R35). -/
opaque linkOffer : Nat → Nat × Nat

/-- Whether a write of output data carries Relaxed Ordering (R28). -/
opaque relaxedWrites : Nat → Bool

/-- How often events that no row of the table shows have happened: corrected single-bit errors of the SRAM (R17), and
codewords that the link corrected or discarded (R420). -/
opaque unseenCount : Nat → Nat → Nat

/-- Values the device estimates while PTM is lost (R121). -/
opaque timeEstimate : Nat → Nat

/-- The digest of the maker's signing key, held in the boot ROM (R349). -/
opaque makerKeyDigest : Bytes
/-- The maker minimum SVN held in the fuses (R350). -/
opaque makerMinSvn : Nat
/-- SHA-384 of the default plan and of the default maker image, and their security versions (R387, R355). -/
opaque defaultPlanDigest : Bytes
opaque defaultMakerDigest : Bytes
opaque defaultPlanSvn : Nat
opaque defaultMakerSvn : Nat
/-- The boot ROM digest of measurement block 1 (R59). -/
opaque bootRomDigest : Bytes

/-- MTICK in one second and in one hour (R478). -/
def tickPerSecond : Nat := 1000000
def tickPerHour : Nat := 3600 * tickPerSecond
/-- Device totals (R11, R66, R231, R246, R251, R300). -/
def seatTotal : Nat := 16384
def ringTotal : Nat := 16384
def streamTotal : Nat := 16384
def slotTotal : Nat := 65536
def unitTotal : Nat := 131072
def tileTotal : Nat := 34
def positionTotal : Nat := 32
def vfTotal : Nat := 4096
/-- Stateful keys and state entries (R256, R181). -/
def statefulTotal : Nat := 4096
def stateEntryTotal : Nat := 256
/-- The pool of conditioned bits (R287). -/
def rngPoolBits : Nat := 8192
/-- Event recorder sizes (R479, R483, R487). -/
def evrBufferSize : Nat := 512
def openingSize : Nat := 4096
def runningSize : Nat := 16384
def historySize : Nat := 64
/-- Pages shared by wings and expansion cache (R385). -/
def sharedPages : Nat := 9216

end Sys2Proof.Config
end

