-- ==== Sys2Proof/Syntax.lean ====
section
/-! DEFINITION. The commands the block takes, one constructor per row of the table, and what they carry. A command on
an operation names the operation's seat `k`; one on a ring names its context number `c`; one on a function names it as
R68 numbers functions (0 the PF, `VF_INDEX + 1` a VF). Where a command stands for something arriving at the device (a
read's data, a frame, a measured block), it carries what arrived. -/

namespace Sys2Proof

/-- A submission entry (R71), field by field as read from host memory. -/
structure Entry where
  /-- [0] PHASE, [1] BATCH_END, [2] FENCE, [3] INLINE_IN, [14:4] reserved, [15] DONE -/
  ctl : BitVec 16
  /-- [11:0] opcode, [15:12] reserved -/
  opcode : BitVec 16
  userTag : BitVec 32
  keyHandle : BitVec 32
  paramSet : BitVec 16
  fragCount : BitVec 16
  inPtr : BitVec 64
  inLen : BitVec 64
  outPtr : BitVec 64
  outCap : BitVec 32
  auxHandle : BitVec 32
  opArgs : BitVec 128
  /-- bytes 64 to 127, read when INLINE_IN is set (R85) -/
  inline : Bytes
  deriving DecidableEq, Repr

/-- A fragment-list entry (R73). -/
structure Fragment where
  address : BitVec 64
  length : BitVec 32
  flags : BitVec 32
  deriving DecidableEq, Repr

/-- The DMA read that failed: of a ring's entry, of a ring's fragment list, or of an operation's input. -/
inductive ReadTarget where
  | entry (c : Nat)
  | fragments (c : Nat)
  | operand (k : Nat)
  deriving DecidableEq, Repr

/-- How a DMA read completed when it failed (R51). -/
inductive ReadError where
  | ur | ca | poison
  deriving DecidableEq, Repr

/-- The two sides of dual execution (R314). -/
inductive Side where
  | a | b
  deriving DecidableEq, Repr

/-- Where an uncorrectable SRAM error falls (R17, R18). -/
inductive SramPlace where
  /-- tile scratch of the run of a seat, on one side -/
  | scratch (k : Nat) (side : Side)
  /-- a wings page of a seat -/
  | wings (k : Nat)
  /-- an expansion-cache entry -/
  | expansion
  | ringContext (c : Nat)
  | streamContext (index : Nat)
  /-- a control-store word; the seats whose tiles had fetched it -/
  | controlStore (word : Nat) (fetched : List Nat)
  /-- a meter counter, in the bank now counting or in the frozen one -/
  | meter (fn cls : Nat) (frozen : Bool)
  | miscellaneous
  deriving DecidableEq, Repr

/-- What the host sends on the SMBus (R64): the 7-bit address, and the command byte. -/
structure SmbusCall where
  address : Nat
  command : Nat
  deriving DecidableEq, Repr

/-- A DOE data object (R57 to R60). -/
inductive DoeObject where
  /-- DOE Discovery of the protocol with an index -/
  | discovery (index : Nat)
  /-- GET_MEASUREMENTS with the requester's nonce (R59) -/
  | getMeasurements (nonce : Bytes)
  /-- any other SPDM request: its version byte, request code, two parameters and what follows (R58) -/
  | spdm (version code p1 p2 : Nat) (body : Bytes)
  /-- KEY_EXCHANGE for a certificate slot completes: a secured session opens (R58) -/
  | keyExchange (slot : Nat)
  /-- the session ends -/
  | endSession
  /-- IDE_KM within the session (R60): stream 0 is the link stream, 1 to 8 the selective streams -/
  | ideQuery
  | ideKeyProg (stream : Nat) (key : Bytes)
  | ideSetGo (stream : Nat)
  | ideSetStop (stream : Nat)
  deriving DecidableEq, Repr

/-- A block of one entropy source (R277, R279, R281): the edge counts of its 16 oscillators in each of its 64 MTICK periods,
period by period, oscillators 2p and 2p + 1 being pair p; and the 4,096 samples of a and of b, the first in bit 0. Sample k is
of pair k mod 8: DESIGN CHOICE, the spec does not say how the 8 pairs interleave in the raw stream (assumption log 111). -/
structure RawBlock where
  edges : List Nat
  a : BitVec 4096
  b : BitVec 4096
  deriving DecidableEq, Repr

/-- A twin-link frame as received (R404, R405). -/
structure Frame where
  tagOk : Bool
  lenOk : Bool
  reservedOk : Bool
  cseq : Nat
  fctr : Nat
  deriving DecidableEq, Repr

/-- HELLO (R402). -/
structure TwinHello where
  serial : BitVec 64
  pairId : BitVec 64
  nonce : Bytes
  shares : Bytes
  deriving DecidableEq, Repr

/-- REPLY (R402). -/
structure TwinReply where
  serial : BitVec 64
  nonce : Bytes
  shares : Bytes
  deriving DecidableEq, Repr

/-- AUTH_I or AUTH_R (R402), with the sender's life-cycle state, and what it holds of each partition: function, whether
it claims to be home, HOME_TERM, and whether it changed it while apart (R414); and its stream-checkpoint setting. -/
structure TwinAuth where
  chains : Bytes
  signatures : Bytes
  lcState : Nat
  claims : List (Nat × Bool × Nat × Bool)
  streamCkpt : Bool
  planSync : Bool
  contextKey : Bytes
  deriving DecidableEq, Repr

/-- A directory entry on the twin link or in an opcode's input (R249), with the slot's material. -/
structure SlotImage where
  index : Nat
  generation : Nat
  owner : Nat
  family : Nat
  paramSet : Nat
  form : Nat
  usage : Nat
  origin : Nat
  exportable : Bool
  occupied : Bool
  /-- UNIT_COUNT (R249) -/
  units : Nat
  material : Bytes
  /-- tree heights and packed constants of a stateful private key; empty otherwise -/
  heights : List Nat
  consts : List Nat
  deriving DecidableEq, Repr

/-- A journal-channel message (R406): one record the sender committed, or a plan image under PLAN_SYNC. -/
inductive JournalMessage where
  /-- type 0x1 with the slot's material -/
  | slotCommit (seq : Nat) (slot : SlotImage)
  /-- type 0x2, with its checkpoint (R176) -/
  | reservation (seq : Nat) (handle : BitVec 32) (block forfeited : Nat) (checkpoint : Bytes)
  /-- type 0x3 -/
  | compact (seq : Nat) (handle : BitVec 32) (nextBlock forfeited : Nat)
  /-- type 0x5 -/
  | partitionErase (seq : Nat) (fn : Nat)
  /-- type 0x6: the 24 quota bytes of R100 from RINGS on, the home claim and HOME_TERM -/
  | tenant (seq : Nat) (fn : Nat) (present : Bool) (quotas : Bytes) (homeIsSender : Bool) (term : Nat)
  /-- type 0x7 -/
  | curve (seq : Nat) (slot : Nat) (record : Bytes)
  /-- the sender has sent every record or partition of a pairing, restore or rejoin -/
  | resendDone (seq : Nat)
  /-- a stage-plan image for a bank (PLAN_SYNC) -/
  | plan (bank : Bool) (image : Bytes)
  deriving DecidableEq, Repr

/-- A checkpoint-channel message (R418, R419). -/
inductive CheckpointMessage where
  /-- the frozen bank of an epoch -/
  | frozenBank (epoch : Nat) (counters : List (Nat × Nat))
  /-- a snapshot of the current bank -/
  | snapshot (epoch : Nat) (counters : List (Nat × Nat))
  /-- SERIAL and TAG of a suspended stream -/
  | stream (serial : Nat) (tag : Bytes)
  deriving DecidableEq, Repr

/-- The payload of a heartbeat (R407). -/
structure Heartbeat where
  journalSeq : Nat
  appliedSeq : Nat
  ackJournal : Nat
  ackCheckpoint : Nat
  lcState : Nat
  curtainDown : Bool
  deriving DecidableEq, Repr

/-- A heartbeat that arrives, and by seat the CCLK for which a hold that it ends lasted beyond its interval (R26). -/
structure HeartbeatIn where
  payload : Heartbeat
  held : List (Nat × Nat)
  deriving DecidableEq, Repr

/-- Where a register write lands: the CTL window, the PF's MSI-X window, a VF window, or a field of configuration
space. -/
inductive WriteTarget where
  | ctl (off : Nat)
  | vf (fn : Nat) (off : Nat)
  /-- an offset of the PF's BAR 2 window: the MSI-X table and the pending-bit array (R40) -/
  | pfMsix (off : Nat)
  /-- the vector-control word of an MSI-X table entry: bit 0 masks it -/
  | msixControl (fn vector : Nat)
  | ptmEnable
  /-- Completion Timeout Value [3:0] and Disable [4] of Device Control 2 (R49) -/
  | completionTimeout (fn : Nat)
  /-- Max_Payload_Size [7:5] and Max_Read_Request_Size [14:12] of the PF's Device Control (R48) -/
  | deviceControl
  /-- ASPM Control [1:0] of the PF's Link Control (R36) -/
  | linkControl
  /-- the bus number that a configuration write gives the PF -/
  | busNumber
  /-- the RID association block of a selective IDE stream: limit [15:0], base [31:16], valid [32] (R60) -/
  | ideRid (stream : Nat)
  /-- the address association block: base and limit in MiB, [31:0] and [63:32]; its valid bit (R60) -/
  | ideAddress (stream : Nat)
  | ideAddressValid (stream : Nat)
  deriving DecidableEq, Repr

/-- One command of the block: one constructor per row of the table of operations and events. -/
inductive Instr where
  /-- USHER_POLL (R85). -/
  | usherPoll (c : Nat)
  /-- ENTRY_READ (R85). -/
  | entryRead (c : Nat) (e : Entry) (torn : Bool)
  /-- FRAGMENT_LIST_READ (R89). -/
  | fragmentListRead (c : Nat) (fs : List Fragment)
  /-- DMA_READ_ERROR (R51). -/
  | dmaReadError (r : ReadTarget) (kind : ReadError)
  /-- COMPLETION_TIMEOUT (R49). -/
  | completionTimeout (r : ReadTarget)
  /-- OPERAND_STAGED (R307). -/
  | operandStaged (k : Nat) (input : Bytes)
  /-- PAGE_GRANT (R95). -/
  | pageGrant
  /-- DISPATCH (R306). -/
  | dispatch (k : Nat)
  /-- STREAM_CHUNK_STAGED (R198). -/
  | streamChunkStaged (k : Nat) (chunk : Bytes)
  /-- CHUNK_PROCESSED (R198). -/
  | chunkProcessed (k : Nat)
  /-- CATCH_UP_COMPLETE (R182). -/
  | catchUpComplete (k : Nat)
  /-- CHECKPOINT_RECOMPUTE (R256). -/
  | checkpointRecompute (k : Nat)
  /-- SCRIPT_OVERRUN (R344). -/
  | scriptOverrun (k : Nat) (side : Side)
  /-- INTERVAL_END (R323). -/
  | intervalEnd (k : Nat) (a : Nat) (b : Nat)
  /-- UNDERSTUDY_IN (R320). -/
  | understudyIn (position : Nat)
  /-- UNDERSTUDY_SELF_TEST (R320). -/
  | understudySelfTest (failed : List Nat)
  /-- WRITE_OUT (R28). -/
  | writeOut (c : Nat)
  /-- SRAM_UE (R17). -/
  | sramUe (place : SramPlace) (address : Nat)
  /-- OP_RING_SETUP (R68). -/
  | opRingSetup (k : Nat)
  /-- OP_VF_SETUP (R100). -/
  | opVfSetup (k : Nat)
  /-- OP_VF_RESET (R112). -/
  | opVfReset (k : Nat)
  /-- OP_VF_QUIESCE (R113). -/
  | opVfQuiesce (k : Nat)
  /-- QUIESCE_TIMEOUT (R113). -/
  | quiesceTimeout (k : Nat)
  /-- OP_PARTITION_ERASE (R114). -/
  | opPartitionErase (k : Nat)
  /-- VF_FLR (R109). -/
  | vfFlr (fn : Nat)
  /-- VF_RESET_COMPLETE (R109). -/
  | vfResetComplete (fn : Nat)
  /-- PF_FLR (R56). -/
  | pfFlr
  /-- HOT_RESET (R56). -/
  | hotReset
  /-- PERST_N_ASSERT (R56). -/
  | perstNAssert
  /-- PERST_N_RELEASE (R54). -/
  | perstNRelease
  /-- DRS_MESSAGE (R54). -/
  | drsMessage
  /-- READY (R54). -/
  | ready (ptm : Nat)
  /-- VF_ENABLE (R43). -/
  | vfEnable (enable : Bool) (num : Nat) (ari : Bool)
  /-- BUS_MASTER_ENABLE (R50). -/
  | busMasterEnable (fn : Nat) (bme : Bool) (d0 : Bool)
  /-- MSIX_UNMASK (R63). -/
  | msixUnmask (fn : Nat) (vector : Nat)
  /-- ECRC_ERROR (R51). -/
  | ecrcError
  /-- POISONED_WINDOW_REQUEST (R51). -/
  | poisonedWindowRequest (fn : Nat) (isRead : Bool)
  /-- PTM_DIALOG (R53). -/
  | ptmDialog
  /-- PTM_DIALOG_COMPLETE (R53). -/
  | ptmDialogComplete (time : Nat)
  /-- PTM_LOSS (R53). -/
  | ptmLoss
  /-- DOE_REQUEST (R57). -/
  | doeRequest (obj : DoeObject)
  /-- SMBUS_READ_BYTE (R64). -/
  | smbusReadByte (call : SmbusCall)
  /-- SMBUS_READ_WORD (R64). -/
  | smbusReadWord (call : SmbusCall)
  /-- SMBUS_BLOCK_READ (R64). -/
  | smbusBlockRead (call : SmbusCall)
  /-- SMBUS_WRITE (R64). -/
  | smbusWrite (call : SmbusCall) (data : Bytes)
  /-- ALERT_RESPONSE_ADDRESS_READ (R65). -/
  | alertResponseAddressRead
  /-- VFC_MBX_OUT_SEND (R105). -/
  | vfcMbxOutSend (fn : Nat) (value : BitVec 32)
  /-- VFC_MBX_IN_ACK (R105). -/
  | vfcMbxInAck (fn : Nat)
  /-- VFC_PF_MBX_RX_ACK (R105). -/
  | vfcPfMbxRxAck
  /-- VFC_PF_MBX_TX_SEND (R105). -/
  | vfcPfMbxTxSend (value : BitVec 32)
  /-- USH_ADMIN_CFG_WRITE (R70). -/
  | ushAdminCfgWrite (value : BitVec 64)
  /-- USH_PF_RESTART (R92). -/
  | ushPfRestart (value : BitVec 64)
  /-- RING_INTERVAL_WRITE (R86). -/
  | ringIntervalWrite (c : Nat) (value : Nat)
  /-- USH_BUDGET_WRITE (R87). -/
  | ushBudgetWrite (value : Nat)
  /-- BOX_CFG_WRITE (R120). -/
  | boxCfgWrite (value : BitVec 64)
  /-- EPOCH_BOUNDARY (R117). -/
  | epochBoundary (time : Nat)
  /-- METER_PAGE_WRITE (R121). -/
  | meterPageWrite
  /-- ML_KEM_KEYGEN (R136). -/
  | mlKemKeygen (k : Nat)
  /-- ML_KEM_ENCAPS (R136). -/
  | mlKemEncaps (k : Nat)
  /-- ML_KEM_DECAPS (R138). -/
  | mlKemDecaps (k : Nat)
  /-- ML_DSA_KEYGEN (R141). -/
  | mlDsaKeygen (k : Nat)
  /-- ML_DSA_SIGN (R141). -/
  | mlDsaSign (k : Nat)
  /-- ML_DSA_VERIFY (R145). -/
  | mlDsaVerify (k : Nat)
  /-- HASHML_DSA_SIGN (R141). -/
  | hashmlDsaSign (k : Nat)
  /-- HASHML_DSA_VERIFY (R145). -/
  | hashmlDsaVerify (k : Nat)
  /-- FALCON_KEYGEN (R146). -/
  | falconKeygen (k : Nat)
  /-- FALCON_SIGN (R147). -/
  | falconSign (k : Nat)
  /-- FALCON_VERIFY (R147). -/
  | falconVerify (k : Nat)
  /-- HYBRID_KEM_KEYGEN (R151). -/
  | hybridKemKeygen (k : Nat)
  /-- HYBRID_KEM_ENCAPS (R152). -/
  | hybridKemEncaps (k : Nat)
  /-- HYBRID_KEM_DECAPS (R153). -/
  | hybridKemDecaps (k : Nat)
  /-- SLH_DSA_KEYGEN (R166). -/
  | slhDsaKeygen (k : Nat)
  /-- SLH_DSA_SIGN (R167). -/
  | slhDsaSign (k : Nat)
  /-- SLH_DSA_VERIFY (R169). -/
  | slhDsaVerify (k : Nat)
  /-- HASHSLH_DSA_SIGN (R167). -/
  | hashslhDsaSign (k : Nat)
  /-- HASHSLH_DSA_VERIFY (R169). -/
  | hashslhDsaVerify (k : Nat)
  /-- HSS_KEYGEN (R172). -/
  | hssKeygen (k : Nat)
  /-- HSS_SIGN (R176). -/
  | hssSign (k : Nat)
  /-- HSS_VERIFY (R175). -/
  | hssVerify (k : Nat)
  /-- OP_LMS_RESERVE_STATUS (R183). -/
  | opLmsReserveStatus (k : Nat)
  /-- XMSS_KEYGEN (R172). -/
  | xmssKeygen (k : Nat)
  /-- XMSS_SIGN (R176). -/
  | xmssSign (k : Nat)
  /-- XMSS_VERIFY (R175). -/
  | xmssVerify (k : Nat)
  /-- XMSS_RESERVE_STATUS (R183). -/
  | xmssReserveStatus (k : Nat)
  /-- MCELIECE_KEYGEN (R193). -/
  | mcelieceKeygen (k : Nat)
  /-- MCELIECE_ENCAPS (R198). -/
  | mcelieceEncaps (k : Nat)
  /-- MCELIECE_DECAPS (R200). -/
  | mcelieceDecaps (k : Nat)
  /-- OP_MCE_PIN (R196). -/
  | opMcePin (k : Nat)
  /-- HQC_KEYGEN (R192). -/
  | hqcKeygen (k : Nat)
  /-- HQC_ENCAPS (R199). -/
  | hqcEncaps (k : Nat)
  /-- HQC_DECAPS (R200). -/
  | hqcDecaps (k : Nat)
  /-- RSA_KEYGEN (R208). -/
  | rsaKeygen (k : Nat)
  /-- RSA_PRIVATE (R210). -/
  | rsaPrivate (k : Nat)
  /-- RSA_PUBLIC (R210). -/
  | rsaPublic (k : Nat)
  /-- ECDSA_KEYGEN (R218). -/
  | ecdsaKeygen (k : Nat)
  /-- ECDSA_SIGN (R218). -/
  | ecdsaSign (k : Nat)
  /-- ECDSA_VERIFY (R219). -/
  | ecdsaVerify (k : Nat)
  /-- ECDH (R219). -/
  | ecdh (k : Nat)
  /-- EDDSA_KEYGEN (R220). -/
  | eddsaKeygen (k : Nat)
  /-- EDDSA_SIGN (R220). -/
  | eddsaSign (k : Nat)
  /-- EDDSA_VERIFY (R220). -/
  | eddsaVerify (k : Nat)
  /-- X25519 (R221). -/
  | x25519 (k : Nat)
  /-- X448 (R221). -/
  | x448 (k : Nat)
  /-- OP_CURVE_LOAD (R215). -/
  | opCurveLoad (k : Nat)
  /-- OP_MODMUL (R226). -/
  | opModmul (k : Nat)
  /-- OP_MODEXP (R226). -/
  | opModexp (k : Nat)
  /-- OP_MODINV (R226). -/
  | opModinv (k : Nat)
  /-- OP_EC_POINT_MUL (R226). -/
  | opEcPointMul (k : Nat)
  /-- OP_STREAM_OPEN (R235). -/
  | opStreamOpen (k : Nat)
  /-- OP_STREAM_ABSORB (R237). -/
  | opStreamAbsorb (k : Nat)
  /-- OP_STREAM_FINISH (R236). -/
  | opStreamFinish (k : Nat)
  /-- OP_DIGEST_READ (R241). -/
  | opDigestRead (k : Nat)
  /-- OP_STREAM_SUSPEND (R243). -/
  | opStreamSuspend (k : Nat)
  /-- OP_STREAM_RESUME (R244). -/
  | opStreamResume (k : Nat)
  /-- OP_STREAM_CLOSE (R234). -/
  | opStreamClose (k : Nat)
  /-- OP_DIGEST_ONESHOT (R235). -/
  | opDigestOneshot (k : Nat)
  /-- OP_KEY_WRITE_CLEAR (R262). -/
  | opKeyWriteClear (k : Nat)
  /-- OP_CHALLENGE (R271). -/
  | opChallenge (k : Nat)
  /-- OP_KEY_GENERATE (R261). -/
  | opKeyGenerate (k : Nat)
  /-- OP_KEY_IMPORT_WRAPPED (R263). -/
  | opKeyImportWrapped (k : Nat)
  /-- OP_KEY_EXPORT_WRAPPED (R264). -/
  | opKeyExportWrapped (k : Nat)
  /-- OP_KEY_DERIVE (R261). -/
  | opKeyDerive (k : Nat)
  /-- OP_KEY_DESTROY (R265). -/
  | opKeyDestroy (k : Nat)
  /-- OP_KEY_ATTEST (R269). -/
  | opKeyAttest (k : Nat)
  /-- OP_KEY_PUBLIC (R266). -/
  | opKeyPublic (k : Nat)
  /-- OP_KEY_INFO (R267). -/
  | opKeyInfo (k : Nat)
  /-- OP_RNG_KAT (R297). -/
  | opRngKat (k : Nat)
  /-- OP_RANDOM (R298). -/
  | opRandom (k : Nat)
  /-- OP_SCRIPT_ENROLL (R352). -/
  | opScriptEnroll (k : Nat)
  /-- CUSTOMER_OPCODE (R353). -/
  | customerOpcode (k : Nat)
  /-- OP_STAGE_LOAD (R390). -/
  | opStageLoad (k : Nat)
  /-- OP_STAGE_SWITCH (R391). -/
  | opStageSwitch (k : Nat)
  /-- STG_SWITCH_WRITE (R391). -/
  | stgSwitchWrite (value : Nat)
  /-- PLAN_CHECK_COMPLETE (R393). -/
  | planCheckComplete
  /-- INTERMISSION_END (R393). -/
  | intermissionEnd (us : Nat)
  /-- SCENE_CHANGE (R354). -/
  | sceneChange
  /-- STG_OVERLAY_VFDENY_WRITE (R396). -/
  | stgOverlayVfdenyWrite (n : Nat) (value : BitVec 64)
  /-- STG_OVERLAY_VFMAX_WRITE (R396). -/
  | stgOverlayVfmaxWrite (value : Nat)
  /-- OP_TWIN_PAIR (R400). -/
  | opTwinPair (k : Nat)
  /-- PAIRING_TIMEOUT (R400). -/
  | pairingTimeout (k : Nat)
  /-- OP_TWIN_ADOPT (R413). -/
  | opTwinAdopt (k : Nat)
  /-- OP_TWIN_RESTORE (R417). -/
  | opTwinRestore (k : Nat)
  /-- LINK_TRAINED (R399). -/
  | linkTrained
  /-- LINK_LOSS (R399). -/
  | linkLoss
  /-- HELLO (R402). -/
  | hello (m : TwinHello)
  /-- REPLY (R402). -/
  | reply (m : TwinReply)
  /-- AUTH_I (R402). -/
  | authI (m : TwinAuth)
  /-- AUTH_R (R402). -/
  | authR (m : TwinAuth)
  /-- HANDSHAKE_TIMEOUT (R402). -/
  | handshakeTimeout
  /-- REKEY (R402). -/
  | rekey
  /-- JOURNAL_FRAME (R406). -/
  | journalFrame (f : Frame) (m : JournalMessage)
  /-- CHECKPOINT_FRAME (R418). -/
  | checkpointFrame (f : Frame) (m : CheckpointMessage)
  /-- HEARTBEAT (R407). -/
  | heartbeat (f : Frame) (h : HeartbeatIn)
  /-- HEARTBEAT_SEND (R407). -/
  | heartbeatSend
  /-- RESEND_TIMEOUT (R405). -/
  | resendTimeout (journal : Bool)
  /-- TWIN_ABSENT (R411); `held` as for a heartbeat that arrives. -/
  | twinAbsent (held : List (Nat × Nat))
  /-- JOIN_WAIT_EXPIRY (R412). -/
  | joinWaitExpiry
  /-- REJOIN_RETRY (R415). -/
  | rejoinRetry
  /-- CHECKPOINT_SNAPSHOT (R418). -/
  | checkpointSnapshot
  /-- TOKEN_INSERTED (R422). -/
  | tokenInserted (slot : Nat)
  /-- TOKEN_REMOVED (R432). -/
  | tokenRemoved (slot : Nat)
  /-- BUS_RESET (R423). -/
  | busReset
  /-- ARBITRATE (R425). -/
  | arbitrate (read : Nat)
  /-- ASSIGN (R425). -/
  | assign (reply : BitVec 48)
  /-- ATTACH (R423). -/
  | attach (addr : Nat) (reply : BitVec 48)
  /-- MODE (R427). -/
  | mode (reply : BitVec 48)
  /-- MODE_REPORT (R427). -/
  | modeReport (data : Bytes)
  /-- MODE_FALLBACK_RESTART (R427). -/
  | modeFallbackRestart
  /-- PUT_BLOCK (R424). -/
  | putBlock (block : Bytes) (reply : BitVec 48)
  /-- GET_BLOCK (R424). -/
  | getBlock (reply : BitVec 48) (data : Bytes)
  /-- TOKEN_QUERY (R423). -/
  | tokenQuery (count : Bool) (reply : BitVec 48)
  /-- LOCATE (R426). -/
  | locate
  /-- LOCATE_WINDOW_END (R426). -/
  | locateWindowEnd (pulsed : List Nat) (low : List Nat)
  /-- TOKEN_REPLY_TIMEOUT (R423). -/
  | tokenReplyTimeout
  /-- I_BLOCK (R430). -/
  | iBlock (block : Bytes)
  /-- R_BLOCK (R429). -/
  | rBlock (block : Bytes)
  /-- S_RESYNCH (R429). -/
  | sResynch (block : Bytes)
  /-- S_IFS (R428). -/
  | sIfs (block : Bytes)
  /-- S_ABORT (R428). -/
  | sAbort (block : Bytes)
  /-- S_WTX (R431). -/
  | sWtx (block : Bytes)
  /-- BLOCK_WAITING_TIME_EXPIRY (R431). -/
  | blockWaitingTimeExpiry
  /-- GET_CERT (R433). -/
  | getCert (answer : Bytes)
  /-- APPROVE (R439). -/
  | approve (answer : Bytes)
  /-- GET_COUNTER (R433). -/
  | getCounter (answer : Bytes)
  /-- TKB_CER_START (R437). -/
  | tkbCerStart
  /-- CEREMONY_OPEN (R437). -/
  | ceremonyOpen
  /-- TKB_CER_CANCEL (R437). -/
  | tkbCerCancel
  /-- CEREMONY_WINDOW_CLOSE (R441). -/
  | ceremonyWindowClose
  /-- TKB_QUORUM_WRITE (R442). -/
  | tkbQuorumWrite (value : Nat)
  /-- LEVEL_ASSERT (R446). -/
  | levelAssert (ch : Nat)
  /-- LEVEL_RELEASE (R446). -/
  | levelRelease (ch : Nat)
  /-- CHANNEL_EVENT (R449). -/
  | channelEvent (ch : Nat)
  /-- CHATTER_EVENT (R447). -/
  | chatterEvent (ch : Nat)
  /-- CHATTER_CLEAR (R447). -/
  | chatterClear (ch : Nat)
  /-- HELD_EVENT (R448). -/
  | heldEvent (ch : Nat)
  /-- HOLD_END (R452). -/
  | holdEnd
  /-- CURTAIN_STAGE3_DONE (R272). -/
  | curtainStage3Done
  /-- TMP_CURTAIN_DROP (R456). -/
  | tmpCurtainDrop
  /-- TMP_CURTAIN_RAISE (R458). -/
  | tmpCurtainRaise
  /-- CURTAIN_RAISE (R458). -/
  | curtainRaise
  /-- TMP_POLICY_WRITE (R455). -/
  | tmpPolicyWrite (ch : Nat) (value : Nat)
  /-- TMP_FILTER_WRITE (R455). -/
  | tmpFilterWrite (ch : Nat) (value : BitVec 64)
  /-- BACKUP_ALARM (R461). -/
  | backupAlarm (ch : Nat) (bclk : Nat)
  /-- BACKUP_SWITCHOVER (R519). -/
  | backupSwitchover
  /-- RNG_BLOCK (R279). -/
  | rngBlock (src : Nat) (blk : RawBlock)
  /-- SOURCE_RESTART (R282). -/
  | sourceRestart (src : Nat)
  /-- START_UP_TEST (R285). -/
  | startUpTest (src : Nat) (blk : RawBlock)
  /-- RNG_REVIVE (R284). -/
  | rngRevive (value : Nat)
  /-- DRBG_INSTANTIATE (R294). -/
  | drbgInstantiate (i : Nat)
  /-- DRBG_RESEED (R288). -/
  | drbgReseed (i : Nat)
  /-- DEFERRED_RESEED (R290). -/
  | deferredReseed (i : Nat)
  /-- MASK_GENERATOR_RESEED (R291). -/
  | maskGeneratorReseed (tile : Nat) (half : Bool)
  /-- TIL_RETIRE_WRITE (R319). -/
  | tilRetireWrite (value : Nat)
  /-- LCS_CHAL_NEW (R469). -/
  | lcsChalNew (value : BitVec 32)
  /-- LCS_CHAL_UNLOCK (R470). -/
  | lcsChalUnlock
  /-- LCS_REQUEST (R471). -/
  | lcsRequest (target : Nat)
  /-- LC_GROUP_PROGRAMMED (R472). -/
  | lcGroupProgrammed
  /-- LC_WIPE_COMPLETE (R472). -/
  | lcWipeComplete
  /-- OP_LOG_READ (R484). -/
  | opLogRead (k : Nat)
  /-- OP_LOG_CLEAR (R486). -/
  | opLogClear (k : Nat)
  /-- EVR_FLUSH_COMPLETE (R479). -/
  | evrFlushComplete
  /-- TOKEN_REFILL (R481). -/
  | tokenRefill (code : Nat)
  /-- HOURS_SAVE (R478). -/
  | hoursSave
  /-- GLB_SNAPSHOT (R501). -/
  | glbSnapshot (ptm : Nat) (cclk : Nat)
  /-- SNAPSHOT_SETTLED (R501). -/
  | snapshotSettled
  /-- GLB_TROUBLE_WRITE (R494). -/
  | glbTroubleWrite (value : BitVec 32)
  /-- GLB_EVT_ACK (R503). -/
  | glbEvtAck (g : Nat) (value : BitVec 32)
  /-- GLB_EVT_ENABLE_WRITE (R505). -/
  | glbEvtEnableWrite (g : Nat) (value : BitVec 32)
  /-- GUARDED_VALUE_WRITE (R498). -/
  | guardedValueWrite (off : Nat) (width : Nat) (value : Nat)
  /-- GUARD_PAIR_TIMEOUT (R498). -/
  | guardPairTimeout (block : Nat)
  /-- REGISTER_WRITE (R10). -/
  | registerWrite (t : WriteTarget) (width : Nat) (value : Nat)
  /-- PWRFAIL_N_FALL (R517). -/
  | pwrfailNFall
  /-- PWRFAIL_N_RISE (R517). -/
  | pwrfailNRise
  /-- SUPPLY_LOSS (R518). -/
  | supplyLoss
  /-- VAULT_POWER_UP (R522). -/
  | vaultPowerUp (katOk : Bool)
  /-- MICROWORD_ISSUE (R336). -/
  | microwordIssue (k : Nat) (side : Side)
  /-- UNFIXED_INTERVAL_COMMIT (R326). -/
  | unfixedIntervalCommit (k : Nat) (cclk : Nat)
  /-- BANK_POINTER_REPAIR (R453). -/
  | bankPointerRepair
  /-- TWIN_UNPAIR_NOTICE (R403). -/
  | twinUnpairNotice
  /-- TWIN_ADOPT_REQUEST (R413). -/
  | twinAdoptRequest (fn : Nat)
  /-- TEMPERATURE_ALERT (R64). -/
  | temperatureAlert (vault : Bool)
  /-- BCLK_LOSS (R521). -/
  | bclkLoss
  deriving DecidableEq, Repr

end Sys2Proof
end

