-- ==== Sys2Proof/WellFormed.lean ====
section
/-! DEFINITION. Which commands are well formed: every operand within the range that the spec gives the thing it names. -/

namespace Sys2Proof

/-- A seat index (R22). -/
def seatOk (k : Nat) : Bool := k < Config.seatTotal

/-- A ring context number (R66). -/
def ringOk (c : Nat) : Bool := c < Config.ringTotal

/-- A function: 0 the PF, 1 to 4,096 a VF (R68). -/
def fnOk (f : Nat) : Bool := f ≤ Config.vfTotal

/-- A tile pair position and a tile (R300). -/
def positionOk (p : Nat) : Bool := p < Config.positionTotal
def tileOk (t : Nat) : Bool := t < Config.tileTotal

/-- A monitor channel (R444). -/
def channelOk (n : Nat) : Bool := n < 48

/-- A 7-bit address and a command byte. -/
def SmbusCall.ok (c : SmbusCall) : Bool := c.address < 128 && c.command < 256

/-- The INLINE_IN bytes of an entry are those that complete its 128-byte slot (R85). -/
def Entry.ok (e : Entry) : Bool := e.inline.length = 64

def ReadTarget.ok : ReadTarget → Bool
  | .entry c => ringOk c
  | .fragments c => ringOk c
  | .operand k => seatOk k

def SramPlace.ok : SramPlace → Bool
  | .scratch k _ => seatOk k
  | .wings k => seatOk k
  | .expansion => true
  | .ringContext c => ringOk c
  | .streamContext i => i < Config.streamTotal
  | .controlStore w seats => w < 65536 && seats.all seatOk
  | .meter f c _ => fnOk f && c < 32
  | .miscellaneous => true

def DoeObject.ok : DoeObject → Bool
  | .getMeasurements n => n.length = 32
  | .spdm v c p q b => v < 256 && c < 256 && p < 256 && q < 256 && c != 0xE0 && c != 0xE4 && c != 0xEC && b.length ≤ 262132
  | .keyExchange i => i < 256
  | .discovery i => i < 256
  | .ideKeyProg i k => i ≤ 8 && k.length = 32
  | .ideSetGo i => i ≤ 8
  | .ideSetStop i => i ≤ 8
  | _ => true

def SlotImage.ok (x : SlotImage) : Bool := x.index < Config.slotTotal && x.generation < 65536 && fnOk x.owner

def WriteTarget.ok : WriteTarget → Bool
  | .ctl off => off < 0x800000
  | .vf f off => fnOk f && f != 0 && off < 0x10000
  | .pfMsix off => off < 0x4000
  | .msixControl f v => fnOk f && v < 256
  | .ptmEnable => true
  | .completionTimeout f => fnOk f
  | .deviceControl => true
  | .linkControl => true
  | .busNumber => true
  | .ideRid i => 1 ≤ i && i ≤ 8
  | .ideAddress i => 1 ≤ i && i ≤ 8
  | .ideAddressValid i => 1 ≤ i && i ≤ 8

/-- A value fits the width of the register write that carries it. A request may have any width up to the largest payload:
the window refuses what it does not accept (R41). -/
def valueOk (width value : Nat) : Bool := 1 ≤ width && width ≤ 512 && value < 256 ^ width

/-- A command is well formed. -/
def Instr.wf : Instr → Bool
  | .usherPoll c => ringOk c
  | .entryRead c e _ => ringOk c && e.ok
  | .fragmentListRead c fs => ringOk c && fs.length ≤ 1024
  | .dmaReadError r _ => r.ok
  | .completionTimeout r => r.ok
  | .operandStaged k _ => seatOk k
  | .dispatch k => seatOk k
  | .streamChunkStaged k _ => seatOk k
  | .chunkProcessed k => seatOk k
  | .catchUpComplete k => seatOk k
  | .checkpointRecompute k => seatOk k
  | .scriptOverrun k _ => seatOk k
  | .intervalEnd k _ _ => seatOk k
  | .understudyIn p => positionOk p
  | .understudySelfTest l => l.all tileOk
  | .writeOut c => ringOk c
  | .sramUe p _ => p.ok
  | .vfFlr f => fnOk f && f != 0
  | .vfResetComplete f => fnOk f && f != 0
  | .vfEnable _ n _ => n < 65536
  | .busMasterEnable f _ _ => fnOk f
  | .msixUnmask f v => fnOk f && v < 256
  | .poisonedWindowRequest f _ => fnOk f
  | .doeRequest o => o.ok
  | .smbusReadByte x => x.ok
  | .smbusReadWord x => x.ok
  | .smbusBlockRead x => x.ok
  | .smbusWrite x d => x.ok && d.length ≤ 32
  | .vfcMbxOutSend f _ => fnOk f && f != 0
  | .vfcMbxInAck f => fnOk f && f != 0
  | .ringIntervalWrite c v => ringOk c && v < 2 ^ 32
  | .ushBudgetWrite v => v < 2 ^ 64
  | .quiesceTimeout k => seatOk k
  | .stgSwitchWrite v => v < 2 ^ 32
  | .stgOverlayVfdenyWrite n _ => n < 64
  | .stgOverlayVfmaxWrite v => v < 2 ^ 32
  | .pairingTimeout k => seatOk k
  | .tokenInserted i => i < 8
  | .tokenRemoved i => i < 8
  | .attach a _ => a < 65536
  | .locateWindowEnd p l => p.all (· < 8) && l.all (· < 8)
  | .tkbQuorumWrite v => v < 2 ^ 32
  | .levelAssert ch => channelOk ch
  | .levelRelease ch => channelOk ch
  | .channelEvent ch => channelOk ch
  | .chatterEvent ch => channelOk ch
  | .chatterClear ch => channelOk ch
  | .heldEvent ch => channelOk ch
  | .tmpPolicyWrite ch v => channelOk ch && v < 2 ^ 32
  | .tmpFilterWrite ch _ => channelOk ch
  | .backupAlarm ch _ => channelOk ch
  | .rngBlock i b => i < 2 && b.edges.length = 1024
  | .sourceRestart i => i < 2
  | .startUpTest i b => i < 2 && b.edges.length = 1024
  | .rngRevive v => v < 2 ^ 32
  | .drbgInstantiate i => i < 8
  | .drbgReseed i => i < 8
  | .deferredReseed i => i < 8
  | .maskGeneratorReseed t _ => tileOk t
  | .tilRetireWrite v => v < 2 ^ 32
  | .lcsRequest t => t < 2 ^ 32
  | .tokenRefill c => c < 65536
  | .glbEvtAck g _ => g < 32
  | .glbEvtEnableWrite g _ => g < 32
  | .guardedValueWrite off w v => off < 0x800000 && valueOk w v
  | .guardPairTimeout b => b < 18
  | .registerWrite t w v => t.ok && valueOk w v
  | .microwordIssue k _ => seatOk k
  | .unfixedIntervalCommit k _ => seatOk k
  | .twinAdoptRequest f => fnOk f
  | .journalFrame _ m => match m with
    | .slotCommit _ x => x.ok
    | .partitionErase _ f => fnOk f
    | .tenant _ f _ q _ _ => fnOk f && q.length = 24
    | .curve _ i r => i < 64 && r.length ≤ 512
    | _ => true
  | .pageGrant => true
  | .opRingSetup k => seatOk k
  | .opVfSetup k => seatOk k
  | .opVfReset k => seatOk k
  | .opVfQuiesce k => seatOk k
  | .opPartitionErase k => seatOk k
  | .pfFlr => true
  | .hotReset => true
  | .perstNAssert => true
  | .perstNRelease => true
  | .drsMessage => true
  | .ready _ => true
  | .ecrcError => true
  | .ptmDialog => true
  | .ptmDialogComplete _ => true
  | .ptmLoss => true
  | .alertResponseAddressRead => true
  | .vfcPfMbxRxAck => true
  | .vfcPfMbxTxSend _ => true
  | .ushAdminCfgWrite _ => true
  | .ushPfRestart _ => true
  | .boxCfgWrite _ => true
  | .epochBoundary _ => true
  | .meterPageWrite => true
  | .mlKemKeygen k => seatOk k
  | .mlKemEncaps k => seatOk k
  | .mlKemDecaps k => seatOk k
  | .mlDsaKeygen k => seatOk k
  | .mlDsaSign k => seatOk k
  | .mlDsaVerify k => seatOk k
  | .hashmlDsaSign k => seatOk k
  | .hashmlDsaVerify k => seatOk k
  | .falconKeygen k => seatOk k
  | .falconSign k => seatOk k
  | .falconVerify k => seatOk k
  | .hybridKemKeygen k => seatOk k
  | .hybridKemEncaps k => seatOk k
  | .hybridKemDecaps k => seatOk k
  | .slhDsaKeygen k => seatOk k
  | .slhDsaSign k => seatOk k
  | .slhDsaVerify k => seatOk k
  | .hashslhDsaSign k => seatOk k
  | .hashslhDsaVerify k => seatOk k
  | .hssKeygen k => seatOk k
  | .hssSign k => seatOk k
  | .hssVerify k => seatOk k
  | .opLmsReserveStatus k => seatOk k
  | .xmssKeygen k => seatOk k
  | .xmssSign k => seatOk k
  | .xmssVerify k => seatOk k
  | .xmssReserveStatus k => seatOk k
  | .mcelieceKeygen k => seatOk k
  | .mcelieceEncaps k => seatOk k
  | .mcelieceDecaps k => seatOk k
  | .opMcePin k => seatOk k
  | .hqcKeygen k => seatOk k
  | .hqcEncaps k => seatOk k
  | .hqcDecaps k => seatOk k
  | .rsaKeygen k => seatOk k
  | .rsaPrivate k => seatOk k
  | .rsaPublic k => seatOk k
  | .ecdsaKeygen k => seatOk k
  | .ecdsaSign k => seatOk k
  | .ecdsaVerify k => seatOk k
  | .ecdh k => seatOk k
  | .eddsaKeygen k => seatOk k
  | .eddsaSign k => seatOk k
  | .eddsaVerify k => seatOk k
  | .x25519 k => seatOk k
  | .x448 k => seatOk k
  | .opCurveLoad k => seatOk k
  | .opModmul k => seatOk k
  | .opModexp k => seatOk k
  | .opModinv k => seatOk k
  | .opEcPointMul k => seatOk k
  | .opStreamOpen k => seatOk k
  | .opStreamAbsorb k => seatOk k
  | .opStreamFinish k => seatOk k
  | .opDigestRead k => seatOk k
  | .opStreamSuspend k => seatOk k
  | .opStreamResume k => seatOk k
  | .opStreamClose k => seatOk k
  | .opDigestOneshot k => seatOk k
  | .opKeyWriteClear k => seatOk k
  | .opChallenge k => seatOk k
  | .opKeyGenerate k => seatOk k
  | .opKeyImportWrapped k => seatOk k
  | .opKeyExportWrapped k => seatOk k
  | .opKeyDerive k => seatOk k
  | .opKeyDestroy k => seatOk k
  | .opKeyAttest k => seatOk k
  | .opKeyPublic k => seatOk k
  | .opKeyInfo k => seatOk k
  | .opRngKat k => seatOk k
  | .opRandom k => seatOk k
  | .opScriptEnroll k => seatOk k
  | .customerOpcode k => seatOk k
  | .opStageLoad k => seatOk k
  | .opStageSwitch k => seatOk k
  | .planCheckComplete => true
  | .intermissionEnd _ => true
  | .sceneChange => true
  | .opTwinPair k => seatOk k
  | .opTwinAdopt k => seatOk k
  | .opTwinRestore k => seatOk k
  | .linkTrained => true
  | .linkLoss => true
  | .hello _ => true
  | .reply _ => true
  | .authI _ => true
  | .authR _ => true
  | .handshakeTimeout => true
  | .rekey => true
  | .checkpointFrame _ _ => true
  | .heartbeat _ h => h.held.all fun x => seatOk x.1
  | .heartbeatSend => true
  | .resendTimeout _ => true
  | .twinAbsent l => l.all fun x => seatOk x.1
  | .joinWaitExpiry => true
  | .rejoinRetry => true
  | .checkpointSnapshot => true
  | .busReset => true
  | .arbitrate _ => true
  | .assign _ => true
  | .mode _ => true
  | .modeReport _ => true
  | .modeFallbackRestart => true
  | .putBlock _ _ => true
  | .getBlock _ _ => true
  | .tokenQuery _ _ => true
  | .locate => true
  | .tokenReplyTimeout => true
  | .iBlock _ => true
  | .rBlock _ => true
  | .sResynch _ => true
  | .sIfs _ => true
  | .sAbort _ => true
  | .sWtx _ => true
  | .blockWaitingTimeExpiry => true
  | .getCert _ => true
  | .approve _ => true
  | .getCounter _ => true
  | .tkbCerStart => true
  | .ceremonyOpen => true
  | .tkbCerCancel => true
  | .ceremonyWindowClose => true
  | .holdEnd => true
  | .curtainStage3Done => true
  | .tmpCurtainDrop => true
  | .tmpCurtainRaise => true
  | .curtainRaise => true
  | .backupSwitchover => true
  | .lcsChalNew _ => true
  | .lcsChalUnlock => true
  | .lcGroupProgrammed => true
  | .lcWipeComplete => true
  | .opLogRead k => seatOk k
  | .opLogClear k => seatOk k
  | .evrFlushComplete => true
  | .hoursSave => true
  | .glbSnapshot _ _ => true
  | .snapshotSettled => true
  | .glbTroubleWrite _ => true
  | .pwrfailNFall => true
  | .pwrfailNRise => true
  | .supplyLoss => true
  | .vaultPowerUp _ => true
  | .bankPointerRepair => true
  | .twinUnpairNotice => true
  | .temperatureAlert _ => true
  | .bclkLoss => true

end Sys2Proof
end

