-- ==== Sys2Proof/Decode.lean ====
section
/-! DEFINITION. The table's words. No row of the table of operations and events gives bits: a command is named by its
constructor, and no word spells one. -/

namespace Sys2Proof

/-- The command that a word of `nbits` bits spells by the table: none, since no row gives bits. -/
def decodeTableWord (_nbits _w : Nat) : Option Instr := none

end Sys2Proof
end

