-- ==== Sys2Proof/Machine/Hash.lean ====
section
/-! DEFINITION. The hash functions that the device computes: SHA-2 (FIPS 180-4), SHA-3, SHAKE and cSHAKE (FIPS 202,
SP 800-185), KMAC256 and HMAC. R229 and the key-table rules name these standards and print none of their steps
(assumption log 110). -/

namespace Sys2Proof.Machine

/-! ### Constants -/

/-- The 64 round constants of SHA-256 (FIPS 180-4). -/
def sha256K : List Nat :=
  [0x428a2f98, 0x71374491, 0xb5c0fbcf, 0xe9b5dba5, 0x3956c25b, 0x59f111f1, 0x923f82a4, 0xab1c5ed5]
    ++ [0xd807aa98, 0x12835b01, 0x243185be, 0x550c7dc3, 0x72be5d74, 0x80deb1fe, 0x9bdc06a7, 0xc19bf174]
    ++ [0xe49b69c1, 0xefbe4786, 0x0fc19dc6, 0x240ca1cc, 0x2de92c6f, 0x4a7484aa, 0x5cb0a9dc, 0x76f988da]
    ++ [0x983e5152, 0xa831c66d, 0xb00327c8, 0xbf597fc7, 0xc6e00bf3, 0xd5a79147, 0x06ca6351, 0x14292967]
    ++ [0x27b70a85, 0x2e1b2138, 0x4d2c6dfc, 0x53380d13, 0x650a7354, 0x766a0abb, 0x81c2c92e, 0x92722c85]
    ++ [0xa2bfe8a1, 0xa81a664b, 0xc24b8b70, 0xc76c51a3, 0xd192e819, 0xd6990624, 0xf40e3585, 0x106aa070]
    ++ [0x19a4c116, 0x1e376c08, 0x2748774c, 0x34b0bcb5, 0x391c0cb3, 0x4ed8aa4a, 0x5b9cca4f, 0x682e6ff3]
    ++ [0x748f82ee, 0x78a5636f, 0x84c87814, 0x8cc70208, 0x90befffa, 0xa4506ceb, 0xbef9a3f7, 0xc67178f2]

/-- The 80 round constants of SHA-512 (FIPS 180-4). -/
def sha512K : List Nat :=
  [0x428a2f98d728ae22, 0x7137449123ef65cd, 0xb5c0fbcfec4d3b2f, 0xe9b5dba58189dbbc,
   0x3956c25bf348b538, 0x59f111f1b605d019, 0x923f82a4af194f9b, 0xab1c5ed5da6d8118]
    ++ [0xd807aa98a3030242, 0x12835b0145706fbe, 0x243185be4ee4b28c, 0x550c7dc3d5ffb4e2,
   0x72be5d74f27b896f, 0x80deb1fe3b1696b1, 0x9bdc06a725c71235, 0xc19bf174cf692694]
    ++ [0xe49b69c19ef14ad2, 0xefbe4786384f25e3, 0x0fc19dc68b8cd5b5, 0x240ca1cc77ac9c65,
   0x2de92c6f592b0275, 0x4a7484aa6ea6e483, 0x5cb0a9dcbd41fbd4, 0x76f988da831153b5]
    ++ [0x983e5152ee66dfab, 0xa831c66d2db43210, 0xb00327c898fb213f, 0xbf597fc7beef0ee4,
   0xc6e00bf33da88fc2, 0xd5a79147930aa725, 0x06ca6351e003826f, 0x142929670a0e6e70]
    ++ [0x27b70a8546d22ffc, 0x2e1b21385c26c926, 0x4d2c6dfc5ac42aed, 0x53380d139d95b3df,
   0x650a73548baf63de, 0x766a0abb3c77b2a8, 0x81c2c92e47edaee6, 0x92722c851482353b]
    ++ [0xa2bfe8a14cf10364, 0xa81a664bbc423001, 0xc24b8b70d0f89791, 0xc76c51a30654be30,
   0xd192e819d6ef5218, 0xd69906245565a910, 0xf40e35855771202a, 0x106aa07032bbd1b8]
    ++ [0x19a4c116b8d2d0c8, 0x1e376c085141ab53, 0x2748774cdf8eeb99, 0x34b0bcb5e19b48a8,
   0x391c0cb3c5c95a63, 0x4ed8aa4ae3418acb, 0x5b9cca4f7763e373, 0x682e6ff3d6b2b8a3]
    ++ [0x748f82ee5defb2fc, 0x78a5636f43172f60, 0x84c87814a1f0ab72, 0x8cc702081a6439ec,
   0x90befffa23631e28, 0xa4506cebde82bde9, 0xbef9a3f7b2c67915, 0xc67178f2e372532b]
    ++ [0xca273eceea26619c, 0xd186b8c721c0c207, 0xeada7dd6cde0eb1e, 0xf57d4f7fee6ed178,
   0x06f067aa72176fba, 0x0a637dc5a2c898a6, 0x113f9804bef90dae, 0x1b710b35131c471b]
    ++ [0x28db77f523047d84, 0x32caab7b40c72493, 0x3c9ebe0a15c9bebc, 0x431d67c49c100d4c,
   0x4cc5d4becb3e42b6, 0x597f299cfc657e2a, 0x5fcb6fab3ad6faec, 0x6c44198c4a475817]

/-- Initial values of SHA-256. -/
def sha256Iv : List Nat :=
  [0x6a09e667, 0xbb67ae85, 0x3c6ef372, 0xa54ff53a, 0x510e527f, 0x9b05688c, 0x1f83d9ab, 0x5be0cd19]

/-- Initial values of SHA-224. -/
def sha224Iv : List Nat :=
  [0xc1059ed8, 0x367cd507, 0x3070dd17, 0xf70e5939, 0xffc00b31, 0x68581511, 0x64f98fa7, 0xbefa4fa4]

/-- Initial values of SHA-512. -/
def sha512Iv : List Nat :=
  [0x6a09e667f3bcc908, 0xbb67ae8584caa73b, 0x3c6ef372fe94f82b, 0xa54ff53a5f1d36f1,
   0x510e527fade682d1, 0x9b05688c2b3e6c1f, 0x1f83d9abfb41bd6b, 0x5be0cd19137e2179]

/-- Initial values of SHA-384. -/
def sha384Iv : List Nat :=
  [0xcbbb9d5dc1059ed8, 0x629a292a367cd507, 0x9159015a3070dd17, 0x152fecd8f70e5939,
   0x67332667ffc00b31, 0x8eb44a8768581511, 0xdb0c2e0d64f98fa7, 0x47b5481dbefa4fa4]

/-- The 24 round constants of Keccak-f[1600] (FIPS 202). -/
def keccakRc : List Nat :=
  [0x0000000000000001, 0x0000000000008082, 0x800000000000808a, 0x8000000080008000,
   0x000000000000808b, 0x0000000080000001, 0x8000000080008081, 0x8000000000008009]
    ++ [0x000000000000008a, 0x0000000000000088, 0x0000000080008009, 0x000000008000000a,
   0x000000008000808b, 0x800000000000008b, 0x8000000000008089, 0x8000000000008003]
    ++ [0x8000000000008002, 0x8000000000000080, 0x000000000000800a, 0x800000008000000a,
   0x8000000080008081, 0x8000000000008080, 0x0000000080000001, 0x8000000080008008]

/-- Lane rotations of Keccak-f[1600], lane x + 5y at its index. -/
def keccakRot : List Nat :=
  [0, 1, 62, 28, 27, 36, 44, 6, 55, 20, 3, 10, 43, 25, 39, 41, 45, 15, 21, 8, 18, 2, 61, 56, 14]

/-! ### SHA-2 -/

/-- A SHA-2 compression: word width in bits, round constants, and the rotation and shift amounts of Σ0, Σ1, σ0, σ1. -/
structure Sha2 where
  width : Nat
  consts : List Nat
  big0 : Nat × Nat × Nat
  big1 : Nat × Nat × Nat
  small0 : Nat × Nat × Nat
  small1 : Nat × Nat × Nat
  deriving DecidableEq, Repr

def sha256Fn : Sha2 :=
  { width := 32, consts := sha256K, big0 := (2, 13, 22), big1 := (6, 11, 25), small0 := (7, 18, 3), small1 := (17, 19, 10) }

def sha512Fn : Sha2 :=
  { width := 64, consts := sha512K, big0 := (28, 34, 39), big1 := (14, 18, 41), small0 := (1, 8, 7), small1 := (19, 61, 6) }

/-- `x` rotated right by `n` in a word of `w` bits. -/
def rotRight (w x n : Nat) : Nat := (x >>> n ||| x <<< (w - n)) % 2 ^ w

/-- `x` rotated left by `n` in a word of 64 bits. -/
def rotLeft64 (x n : Nat) : Nat := (x <<< n ||| x >>> (64 - n)) % 2 ^ 64

/-- Three rotations, XORed; or two rotations and a shift. -/
def Sha2.bigSigma (h : Sha2) (r : Nat × Nat × Nat) (x : Nat) : Nat :=
  rotRight h.width x r.1 ^^^ rotRight h.width x r.2.1 ^^^ rotRight h.width x r.2.2
def Sha2.smallSigma (h : Sha2) (r : Nat × Nat × Nat) (x : Nat) : Nat :=
  rotRight h.width x r.1 ^^^ rotRight h.width x r.2.1 ^^^ (x >>> r.2.2)

/-- One round: the working variables, and the window of the next 16 schedule words. -/
def Sha2.round (f : Sha2) (st : List Nat × List Nat) (k : Nat) : List Nat × List Nat :=
  match st.1 with
  | [a, b, c, d, e, g, h, i] =>
    let w (n : Nat) := st.2.getD n 0
    let t1 := i + f.bigSigma f.big1 e + ((e &&& g) ^^^ ((2 ^ f.width - 1 - e) &&& h)) + k + w 0
    let t2 := f.bigSigma f.big0 a + ((a &&& b) ^^^ (a &&& c) ^^^ (b &&& c))
    let next := (f.smallSigma f.small1 (w 14) + w 9 + f.smallSigma f.small0 (w 1) + w 0) % 2 ^ f.width
    ([(t1 + t2) % 2 ^ f.width, a, b, c, (d + t1) % 2 ^ f.width, e, g, h], st.2.drop 1 ++ [next])
  | _ => st

/-- A byte string as big-endian words of `n` bytes. -/
def beWords (n count : Nat) (b : Bytes) : List Nat := (List.range count).map fun i => beNat (slice b (n * i) n)

/-- A block enters the chaining words. -/
def Sha2.block (f : Sha2) (chain : List Nat) (b : Bytes) : List Nat :=
  let out := (f.consts.foldl f.round (chain, beWords (f.width / 8) 16 b)).1
  (chain.zip out).map fun x => (x.1 + x.2) % 2 ^ f.width

/-- Whole blocks enter the chaining words, one after the other. -/
def Sha2.blocks (f : Sha2) : Nat → List Nat → Bytes → List Nat
  | 0, chain, _ => chain
  | n + 1, chain, b => f.blocks n (f.block chain (b.take (2 * f.width))) (b.drop (2 * f.width))

/-- The padding behind the last partial block of a message of `count` bytes: one bit, zeros and the length in bits. -/
def Sha2.padded (f : Sha2) (buf : Bytes) (count : Nat) : Bytes :=
  let b := 2 * f.width
  let n := b * ceilDiv (buf.length + 1 + f.width / 4) b
  buf ++ [0x80] ++ zeros (n - (buf.length + 1 + f.width / 4)) ++ beBytes (f.width / 4) (8 * count)

/-- The chaining words behind a message, from those before its last partial block. -/
def Sha2.finish (f : Sha2) (chain : List Nat) (buf : Bytes) (count : Nat) : List Nat :=
  let p := f.padded buf count
  f.blocks (p.length / (2 * f.width)) chain p

/-- The initial values of SHA-512/t for a name (FIPS 180-4, 5.3.6). -/
def sha512tIv (name : Bytes) : List Nat :=
  sha512Fn.finish (sha512Iv.map fun v => v ^^^ 0xA5A5A5A5A5A5A5A5) name name.length

/-! ### Keccak -/

/-- One round of Keccak-f[1600] on 25 lanes, lane x + 5y at its index. -/
def keccakRound (a : List Nat) (rc : Nat) : List Nat :=
  let at_ (l : List Nat) (x y : Nat) := l.getD (x % 5 + 5 * (y % 5)) 0
  let col := (List.range 5).map fun x => at_ a x 0 ^^^ at_ a x 1 ^^^ at_ a x 2 ^^^ at_ a x 3 ^^^ at_ a x 4
  let d := (List.range 5).map fun x => at_ col (x + 4) 0 ^^^ rotLeft64 (at_ col (x + 1) 0) 1
  let t := (List.range 25).map fun i => rotLeft64 (a.getD i 0 ^^^ at_ d i 0) (keccakRot.getD i 0)
  let b := (List.range 25).map fun i => at_ t (i % 5 + 3 * (i / 5)) (i % 5)
  (List.range 25).map fun i =>
    b.getD i 0 ^^^ ((2 ^ 64 - 1 - at_ b (i % 5 + 1) (i / 5)) &&& at_ b (i % 5 + 2) (i / 5)) ^^^ (if i = 0 then rc else 0)

/-- The permutation on the 200-byte state string of FIPS 202. -/
def keccakF (st : Bytes) : Bytes :=
  let lanes := (List.range 25).map fun i => leNat (slice st (8 * i) 8)
  (keccakRc.foldl keccakRound lanes).flatMap fun v => leBytes 8 v

/-- Two byte strings XORed, as long as the first. -/
def xorBytes (a b : Bytes) : Bytes := (a.zip (padTo a.length b)).map fun x => x.1 ^^^ x.2

/-- A block of the rate enters the state. -/
def keccakBlock (st block : Bytes) : Bytes := keccakF (xorBytes st block)

/-- Whole blocks of `rate` bytes enter the state. -/
def keccakBlocks (rate : Nat) : Nat → Bytes → Bytes → Bytes
  | 0, st, _ => st
  | n + 1, st, b => keccakBlocks rate n (keccakBlock st (b.take rate)) (b.drop rate)

/-- The last block: the partial one, the domain bits of the algorithm, and the end of the padding. -/
def keccakPadded (rate : Nat) (domain : Byte) (buf : Bytes) : Bytes :=
  let b := padTo rate (buf ++ [domain])
  b.take (rate - 1) ++ (b.drop (rate - 1)).map fun c => c ^^^ 0x80

/-- `n` blocks of output, squeezed from a state. -/
def squeeze (rate : Nat) : Nat → Bytes → Bytes
  | 0, _ => []
  | n + 1, st => st.take rate ++ squeeze rate n (keccakF st)

/-- Output bytes `pos` to `pos + n - 1` behind a last partial block. -/
def keccakOut (rate : Nat) (domain : Byte) (st buf : Bytes) (pos n : Nat) : Bytes :=
  slice (squeeze rate (ceilDiv (pos + n) rate) (keccakBlock st (keccakPadded rate domain buf))) pos n

/-- A whole message through a sponge. -/
def sponge (rate : Nat) (domain : Byte) (m : Bytes) (n : Nat) : Bytes :=
  let k := m.length / rate
  keccakOut rate domain (keccakBlocks rate k (zeros 200) m) (m.drop (k * rate)) 0 n

/-! ### The digest algorithms by PARAM_SET (R229, R230) -/

/-- A digest algorithm: block size and fixed digest length, none for extendable output. -/
def digestAlg : Nat → Option (Nat × Option Nat)
  | 0x0601 => some (64, some 28) | 0x0602 => some (64, some 32)
  | 0x0603 => some (128, some 48) | 0x0604 => some (128, some 64)
  | 0x0605 => some (128, some 28) | 0x0606 => some (128, some 32)
  | 0x0611 => some (144, some 28) | 0x0612 => some (136, some 32)
  | 0x0613 => some (104, some 48) | 0x0614 => some (72, some 64)
  | 0x0621 => some (168, none) | 0x0622 => some (136, none)
  | 0x0631 => some (168, none) | 0x0632 => some (136, none)
  | _ => none

/-- Block size b of an algorithm. -/
def digestBlock (a : Nat) : Nat := match digestAlg a with | some d => d.1 | none => 136

/-- SHA-2 algorithms are 0x0601 to 0x0606. -/
def digestSha2 (a : Nat) : Bool := a < 0x0610

/-- The compression of a SHA-2 algorithm. -/
def sha2Of (a : Nat) : Sha2 := if a ≤ 0x0602 then sha256Fn else sha512Fn

/-- Domain bits: SHA-3, SHAKE, and cSHAKE (R230). -/
def keccakDomain (a : Nat) : Byte := if a < 0x0620 then 0x06 else if a < 0x0630 then 0x1F else 0x04

/-- The ASCII bytes of a name. -/
def ascii (s : String) : Bytes := s.toList.map fun c => byte c.toNat

/-- The initial chaining words of a SHA-2 algorithm. -/
def sha2Iv : Nat → List Nat
  | 0x0601 => sha224Iv
  | 0x0602 => sha256Iv
  | 0x0603 => sha384Iv
  | 0x0604 => sha512Iv
  | 0x0605 => sha512tIv (ascii "SHA-512/224")
  | _ => sha512tIv (ascii "SHA-512/256")

/-- Chaining words as the STATE field of R243 holds them: H0 first, each big-endian, zero-filled to 200 bytes. -/
def chainBytes (f : Sha2) (c : List Nat) : Bytes := padTo 200 (c.flatMap fun v => beBytes (f.width / 8) v)
def chainWords (f : Sha2) (st : Bytes) : List Nat := beWords (f.width / 8) 8 st

/-- The state of an algorithm before its first block, 200 bytes. -/
def digestStart (a : Nat) : Bytes := if digestSha2 a then chainBytes (sha2Of a) (sha2Iv a) else zeros 200

/-- One block passes into the state. -/
def digestStep (a : Nat) (st block : Bytes) : Bytes :=
  if digestSha2 a then chainBytes (sha2Of a) ((sha2Of a).block (chainWords (sha2Of a) st) block) else keccakBlock st block

/-- `n` whole blocks pass into the state; what is left is the partial block (R236). -/
def digestBlocks (a : Nat) : Nat → Bytes → Bytes → Bytes × Bytes
  | 0, st, d => (st, d)
  | n + 1, st, d =>
    let b := digestBlock a
    digestBlocks a n (digestStep a st (d.take b)) (d.drop b)

/-- `n` output bytes from position `pos` of a message of `count` bytes, whose last partial block is `buf`. -/
def digestOut (a : Nat) (st buf : Bytes) (count pos n : Nat) : Bytes :=
  if digestSha2 a then
    slice (chainBytes (sha2Of a) ((sha2Of a).finish (chainWords (sha2Of a) st) buf count)) pos n
  else keccakOut (digestBlock a) (keccakDomain a) st buf pos n

/-- The digest of a whole message. -/
def digestOf (a : Nat) (m : Bytes) (n : Nat) : Bytes :=
  let r := digestBlocks a (m.length / digestBlock a) (digestStart a) m
  digestOut a r.1 r.2 m.length 0 n

/-! ### cSHAKE256, KMAC256 and HMAC (SP 800-185, FIPS 198-1) -/

/-- The bytes of a length without leading zeros, at least one. -/
def lengthBytes (v : Nat) : Bytes := beBytes (Nat.max 1 (ceilDiv (Nat.log2 v + 1) 8)) v
def leftEncode (v : Nat) : Bytes := [byte (lengthBytes v).length] ++ lengthBytes v
def rightEncode (v : Nat) : Bytes := lengthBytes v ++ [byte (lengthBytes v).length]
def encodeString (b : Bytes) : Bytes := leftEncode (8 * b.length) ++ b
def bytepad (w : Nat) (b : Bytes) : Bytes :=
  let x := leftEncode w ++ b
  padTo (w * ceilDiv x.length w) x

def cshake256 (name custom x : Bytes) (n : Nat) : Bytes :=
  if name = [] && custom = [] then sponge 136 0x1F x n
  else sponge 136 0x04 (bytepad 136 (encodeString name ++ encodeString custom) ++ x) n

/-- KMAC256 with a key, data, customisation string and output length in bytes. -/
def kmacWith (key x custom : Bytes) (n : Nat) : Bytes :=
  cshake256 (ascii "KMAC") custom (bytepad 136 (encodeString key) ++ x ++ rightEncode (8 * n)) n

def kmac256 (key x : Bytes) (custom : String) (n : Nat) : Bytes := kmacWith key x (ascii custom) n

/-- The digest of its fixed length. -/
def digestFull (a : Nat) (m : Bytes) : Bytes :=
  digestOf a m (match digestAlg a with | some (_, some d) => d | _ => 32)

/-- HMAC over a digest algorithm with a fixed length. -/
def hmac (a : Nat) (key m : Bytes) : Bytes :=
  let b := digestBlock a
  let k := padTo b (if b < key.length then digestFull a key else key)
  digestFull a (k.map (fun c => c ^^^ 0x5C) ++ digestFull a (k.map (fun c => c ^^^ 0x36) ++ m))

end Sys2Proof.Machine
end

