-- ==== Sys2Proof/Machine/Aes.lean ====
section
/-! DEFINITION. AES (FIPS 197) and the modes of it that the spec names: GCM with a 96-bit nonce (SP 800-38D), key wrapping
with padding (SP 800-38F), XTS (SP 800-38E), and CTR_DRBG with a derivation function (SP 800-90A). The spec names these
standards and prints none of their steps (assumption log 110). -/

namespace Sys2Proof.Machine

/-! ### The block cipher -/

/-- The AES substitution of every byte value, value i in byte i (FIPS 197). -/
def sboxTable : Nat :=
  0x16bb54b00f2d99416842e6bf0d89a18cdf2855cee9871e9b948ed9691198f8e19e1dc186b95735610ef6034866b53e708a8bbd4b1f74dde8c6b4a61c2e2578ba * 2 ^ 1536
    + 0x08ae7a65eaf4566ca94ed58d6d37c8e779e4959162acd3c25c2406490a3a32e0db0b5ede14b8ee4688902a22dc4f816073195d643d7ea7c41744975fec130ccd * 2 ^ 1024
    + 0xd2f3ff1021dab6bcf5389d928f40a351a89f3c507f02f94585334d43fbaaefd0cf584c4a39becb6a5bb1fc20ed00d153842fe329b3d63b52a05a6e1b1a2c8309 * 2 ^ 512
    + 0x75b227ebe28012079a059618c323c7041531d871f1e5a534ccf73f362693fdb7c072a49cafa2d4adf04759fa7dc982ca76abd7fe2b670130c56f6bf27b777c63

/-- The inverse substitution. -/
def invSboxTable : Nat :=
  0x7d0c2155631469e126d677ba7e042b17619953833cbbebc8b0f52aae4d3be0a0ef9cc9939f7ae52d0d4ab519a97f51605fec8027591012b131c7078833a8dd1f * 2 ^ 1536
    + 0xf45acd78fec0db9a2079d2c64b3e56fc1bbe18aa0e62b76f89c5291d711af1476edf751ce837f9e28535ade72274ac9673e6b4f0cecff297eadc674f4111913a * 2 ^ 1024
    + 0x6b8a130103bdafc1020f3fca8f1e2cd00645b3b80558e4f70ad3bc8c00abd890849d8da75746155edab9edfd5048706c92b6655dcc5ca4d41698688664f6f872 * 2 ^ 512
    + 0x25d18b6d49a25b76b224d92866a12e084ec3fa420b954cee3d23c2a632947b54cbe9dec444438e3487ff2f9b8239e37cfbd7f3819ea340bf38a53630d56a0952

/-- Byte `i` of a table of 256 bytes. -/
def tableByte (t i : Nat) : Byte := byte (t >>> (8 * i))
def subByte (b : Byte) : Byte := tableByte sboxTable b.toNat
def invSubByte (b : Byte) : Byte := tableByte invSboxTable b.toNat

/-- Times x in GF(2^8), and the product of two bytes. -/
def xtime (v : Nat) : Nat := if v < 128 then 2 * v else (2 * v) ^^^ 0x11B
def gfMul8 (k v : Nat) : Nat :=
  let v2 := xtime v
  let v4 := xtime v2
  (if bit k 0 then v else 0) ^^^ (if bit k 1 then v2 else 0) ^^^ (if bit k 2 then v4 else 0)
    ^^^ (if bit k 3 then xtime v4 else 0)

/-- The key schedule as words of 4 bytes, last first: `n` more words for a key of `nk` words. -/
def keyWords (nk : Nat) : Nat → Nat → Nat → List Bytes → List Bytes
  | 0, _, _, ws => ws
  | n + 1, i, rcon, ws =>
    let prev := ws.headD []
    let t := if i % nk = 0 then xorBytes ((prev.drop 1 ++ prev.take 1).map subByte) [byte rcon]
      else if nk = 8 && i % nk = 4 then prev.map subByte else prev
    keyWords nk n (i + 1) (if i % nk = 0 then xtime rcon else rcon) (xorBytes t (ws.getD (nk - 1) []) :: ws)

/-- The round keys of an AES key, first first. -/
def roundKeys (key : Bytes) : List Bytes :=
  let nk := key.length / 4
  let first := ((List.range nk).map fun i => slice key (4 * i) 4).reverse
  let ws := (keyWords nk (4 * (nk + 7) - nk) nk 1 first).reverse
  (List.range (nk + 7)).map fun r => (slice ws (4 * r) 4).flatten
where
  slice {α : Type} (l : List α) (off len : Nat) : List α := (l.drop off).take len

/-- The rows of the state shifted: byte `i` of the result. -/
def shiftRows (b : Bytes) : Bytes := (List.range 16).map fun i => b.getD ((i + 4 * (i % 4)) % 16) 0
def invShiftRows (b : Bytes) : Bytes := (List.range 16).map fun i => b.getD ((i + 12 * (i % 4)) % 16) 0

/-- The columns of the state times a circulant matrix with the first row given. -/
def mixWith (m : List Nat) (b : Bytes) : Bytes :=
  (List.range 16).map fun i =>
    byte ((List.range 4).foldl (fun a j =>
      a ^^^ gfMul8 (m.getD ((j + 4 - i % 4) % 4) 0) (b.getD (4 * (i / 4) + j) 0).toNat) 0)

def mixColumns : Bytes → Bytes := mixWith [2, 3, 1, 1]
def invMixColumns : Bytes → Bytes := mixWith [14, 11, 13, 9]

/-- One block through the cipher; the round keys are those of `roundKeys`. -/
def aesBlock (ks : List Bytes) (b : Bytes) : Bytes :=
  match ks with
  | [] => b
  | k :: rest => rounds rest (xorBytes b k)
where
  rounds : List Bytes → Bytes → Bytes
    | [], b => b
    | [k], b => xorBytes (shiftRows (b.map subByte)) k
    | k :: rest, b => rounds rest (xorBytes (mixColumns (shiftRows (b.map subByte))) k)

/-- One block through the inverse cipher. -/
def aesInverse (ks : List Bytes) (b : Bytes) : Bytes :=
  match ks.reverse with
  | [] => b
  | k :: rest => rounds rest (xorBytes b k)
where
  rounds : List Bytes → Bytes → Bytes
    | [], b => b
    | [k], b => xorBytes ((invShiftRows b).map invSubByte) k
    | k :: rest, b => rounds rest (invMixColumns (xorBytes ((invShiftRows b).map invSubByte) k))

/-- One block under a key. -/
def aes (key b : Bytes) : Bytes := aesBlock (roundKeys key) b
def aesInv (key b : Bytes) : Bytes := aesInverse (roundKeys key) b

/-- `n` blocks of key stream from a counter on, the counter in 16 big-endian bytes modulo 2^`w` in its low `w` bits. -/
def keyStream (key : Bytes) (w ctr n : Nat) : Bytes :=
  let ks := roundKeys key
  (List.range n).flatMap fun i => aesBlock ks (beBytes 16 (ctr / 2 ^ w * 2 ^ w + (ctr + i) % 2 ^ w))

/-! ### GCM -/

/-- The product of two blocks in GF(2^128), the first bit the most significant. -/
def ghashMul (x y : Nat) : Nat :=
  ((List.range 128).foldl (fun s i =>
    let z := if bit x (127 - i) then s.1 ^^^ s.2 else s.1
    (z, if bit s.2 0 then (s.2 / 2) ^^^ (0xE1 * 2 ^ 120) else s.2 / 2)) (0, y)).1

/-- A string filled with zeros to whole blocks. -/
def padBlocks (b : Bytes) : Bytes := padTo (16 * ceilDiv b.length 16) b

/-- GHASH over whole blocks. -/
def ghash (h : Nat) (b : Bytes) : Nat :=
  (List.range (b.length / 16)).foldl (fun a i => ghashMul (a ^^^ beNat (slice b (16 * i) 16)) h) 0

/-- Text under GCM's counter mode, for encryption and decryption alike. -/
def gcmText (key nonce text : Bytes) : Bytes :=
  xorBytes text (keyStream key 32 (beNat (nonce ++ [0, 0, 0, 2])) (ceilDiv text.length 16))

/-- The 16-byte tag of a ciphertext with associated data. -/
def gcmTag (key nonce aad ct : Bytes) : Bytes :=
  let h := beNat (aes key (zeros 16))
  let s := ghash h (padBlocks aad ++ padBlocks ct ++ beBytes 8 (8 * aad.length) ++ beBytes 8 (8 * ct.length))
  xorBytes (beBytes 16 s) (aes key (nonce ++ [0, 0, 0, 1]))

/-- Ciphertext and tag of a plaintext. -/
def gcmSeal (key nonce aad pt : Bytes) : Bytes :=
  let ct := gcmText key nonce pt
  ct ++ gcmTag key nonce aad ct

/-- The plaintext of a ciphertext with its tag, where the tag is right. -/
def gcmOpen (key nonce aad sealed : Bytes) : Option Bytes :=
  let ct := sealed.take (sealed.length - 16)
  if sealed.drop (sealed.length - 16) = gcmTag key nonce aad ct then some (gcmText key nonce ct) else none

/-! ### Key wrapping with padding -/

/-- One pass of the wrapping function over the semiblocks: the chaining value and the step number go through. -/
def wrapPass (ks : List Bytes) (a : Bytes) (t : Nat) : List Bytes → Bytes × List Bytes
  | [] => (a, [])
  | r :: rest =>
    let b := aesBlock ks (a ++ r)
    let n := wrapPass ks (xorBytes (b.take 8) (beBytes 8 t)) (t + 1) rest
    (n.1, b.drop 8 :: n.2)

/-- One pass backwards, over the semiblocks last first. -/
def unwrapPass (ks : List Bytes) (a : Bytes) (t : Nat) : List Bytes → Bytes × List Bytes
  | [] => (a, [])
  | r :: rest =>
    let b := aesInverse ks (xorBytes a (beBytes 8 t) ++ r)
    let n := unwrapPass ks (b.take 8) (t - 1) rest
    (n.1, b.drop 8 :: n.2)

/-- The semiblocks of a string. -/
def semiblocks (b : Bytes) : List Bytes := (List.range (b.length / 8)).map fun i => slice b (8 * i) 8

/-- The alternative initial value: its constant and the length. -/
def kwpHead (n : Nat) : Bytes := [0xA6, 0x59, 0x59, 0xA6] ++ beBytes 4 n

/-- KWP-AE. -/
def kwpWrap (key pt : Bytes) : Bytes :=
  let ks := roundKeys key
  let body := padTo (8 * ceilDiv pt.length 8) pt
  if body.length ≤ 8 then aesBlock ks (kwpHead pt.length ++ body)
  else
    let n := body.length / 8
    let r := (List.range 6).foldl (fun s j => wrapPass ks s.1 (n * j + 1) s.2) (kwpHead pt.length, semiblocks body)
    r.1 ++ r.2.flatten

/-- KWP-AD: the plaintext, where the integrity check passes. -/
def kwpUnwrap (key blob : Bytes) : Option Bytes :=
  let ks := roundKeys key
  let n := blob.length / 8 - 1
  let r :=
    if n ≤ 1 then
      let b := aesInverse ks blob
      (b.take 8, b.drop 8)
    else
      let m := (List.range 6).foldl (fun s j => backward ks n j s) (blob.take 8, semiblocks (blob.drop 8))
      (m.1, m.2.flatten)
  let len := beNat (r.1.drop 4)
  if blob.length % 8 = 0 && 16 ≤ blob.length && r.1 = kwpHead len && 8 * n < len + 8 && len ≤ 8 * n
      && (r.2.drop len).all (fun c => c = 0) then some (r.2.take len) else none
where
  backward (ks : List Bytes) (n j : Nat) (s : Bytes × List Bytes) : Bytes × List Bytes :=
    let u := unwrapPass ks s.1 (n * (6 - j)) s.2.reverse
    (u.1, u.2.reverse)

/-! ### XTS -/

/-- The tweak of the next block: times x in GF(2^128), least significant byte first. -/
def xtsNext (t : Nat) : Nat := if bit t 127 then (2 * t % 2 ^ 128) ^^^ 0x87 else 2 * t

/-- Whole blocks under XTS from a tweak on. -/
def xtsBlocks (ks : List Bytes) : Nat → Nat → Bytes → Bytes
  | 0, _, _ => []
  | n + 1, t, b =>
    let w := leBytes 16 t
    xorBytes (aesBlock ks (xorBytes (b.take 16) w)) w ++ xtsBlocks ks n (xtsNext t) (b.drop 16)

/-- A data unit of whole blocks under the two halves of a 64-byte key. -/
def xtsUnit (key : Bytes) (tweak : Nat) (b : Bytes) : Bytes :=
  xtsBlocks (roundKeys (key.take 32)) (b.length / 16) (leNat (aes (key.drop 32) (leBytes 16 tweak))) b

/-! ### CTR_DRBG with AES-256 and a derivation function -/

/-- The working state: Key and V. -/
structure CtrDrbg where
  key : Bytes
  v : Nat
  deriving DecidableEq, Repr

/-- The chaining of the derivation function over whole blocks. -/
def drbgBcc (ks : List Bytes) (b : Bytes) : Bytes :=
  (List.range (b.length / 16)).foldl (fun c i => aesBlock ks (xorBytes c (slice b (16 * i) 16))) (zeros 16)

/-- The derivation function: 48 bytes from a string. -/
def drbgDf (input : Bytes) : Bytes :=
  let ks := roundKeys ((List.range 32).map byte)
  let s := padBlocks (beBytes 4 input.length ++ beBytes 4 48 ++ input ++ [0x80])
  let temp := (List.range 3).flatMap fun i => drbgBcc ks (beBytes 4 i ++ zeros 12 ++ s)
  let kt := roundKeys (temp.take 32)
  let x1 := aesBlock kt (temp.drop 32)
  let x2 := aesBlock kt x1
  x1 ++ x2 ++ aesBlock kt x2

/-- The update function with 48 bytes of data. -/
def CtrDrbg.update (d : CtrDrbg) (data : Bytes) : CtrDrbg :=
  let t := xorBytes (keyStream d.key 128 (d.v + 1) 3) data
  { key := t.take 32, v := beNat (t.drop 32) }

def CtrDrbg.zero : CtrDrbg := { key := zeros 32, v := 0 }

def CtrDrbg.instantiate (entropy nonce pers : Bytes) : CtrDrbg :=
  CtrDrbg.zero.update (drbgDf (entropy ++ nonce ++ pers))

def CtrDrbg.reseed (d : CtrDrbg) (entropy additional : Bytes) : CtrDrbg := d.update (drbgDf (entropy ++ additional))

/-- The state that output is drawn from: additional input, where there is any, enters first. -/
def CtrDrbg.ready (d : CtrDrbg) (additional : Bytes) : CtrDrbg :=
  if additional = [] then d else d.update (drbgDf additional)

/-- Output bytes `off` to `off + n - 1` of a generate request. -/
def CtrDrbg.output (d : CtrDrbg) (off n : Nat) : Bytes :=
  slice (keyStream d.key 128 (d.v + 1 + off / 16) (ceilDiv (off % 16 + n) 16)) (off % 16) n

/-- The state behind a generate request of `n` bytes. -/
def CtrDrbg.after (d : CtrDrbg) (n : Nat) (additional : Bytes) : CtrDrbg :=
  { d with v := (d.v + ceilDiv n 16) % 2 ^ 128 }.update (if additional = [] then zeros 48 else drbgDf additional)

end Sys2Proof.Machine
end

