-- ==== Sys2Proof/Machine/State.lean ====
section
/-! DEFINITION. The state of the block: every register, queue, table, counter and mode the spec names, and the queue of
commands that wait. Plain data. -/

namespace Sys2Proof.Machine

/-- Why the machine stops. -/
inductive Fault where
  /-- Raised by ENTRY_READ of an entry that software was still writing: R78 calls the outcome undefined. Safe: the
  model stops where the hardware may go on. -/
  | tornEntry (ring : Nat)
  deriving DecidableEq, Repr

/-- Why an instruction has no meaning. -/
inductive Refusal where
  /-- Raised by an arm of `exec` that has no meaning yet, with the row's mnemonic. Safe. -/
  | notModelled (mnemonic : String)
  deriving DecidableEq, Repr

/-- The status of a completion record (R509). -/
inductive Status where
  | ok | verifyFail
  | length | paramSet | invalidPoint | invalidInput | invalidKey | outCapacity | curveRejected | notFinished
  | keyHandle | keyOwner | keyUsage | keyExhausted | tableFull
  | quota | streamLimit | busy
  | hostRead | streamBroken
  | entropy | curtain | hold | lifecycle | auth | faultRepeat
  | scriptFault | scriptOverrun | gatherFault
  /-- a value that a script's STATUS instruction sets and R509 does not list (R339) -/
  | other (code : Nat)
  deriving DecidableEq, Repr

/-- The structural codes of a halt record (R89, R509). -/
inductive HaltCode where
  | opcode | reserved | length | fragment | align | privilege
  deriving DecidableEq, Repr

/-- The error bits of a function's AER capability (R51). -/
inductive Aer where
  | completionTimeout | unsupportedRequest | completerAbort | poisoned | ecrc
  /-- the advisory non-fatal status that goes with an Unsupported Request or Completer Abort of a DMA read -/
  | advisoryNonFatal
  deriving DecidableEq, Repr

/-- A completion record (R75). -/
structure Record where
  phase : Bool
  batch : Bool
  scale : Bool
  status : Status
  userTag : BitVec 32
  outLen : Nat
  rounds : Nat
  seatHint : Nat
  epoch : Nat
  units : Nat
  exec : Nat
  deriving DecidableEq, Repr

/-- A meter page (R121): its header fields and its counters, keyed 32 · function + class. -/
structure MeterPage where
  epoch : Nat
  flags : Nat
  start : Nat
  ending : Nat
  period : Nat
  lostFrom : Nat
  counters : Tab Nat
  deriving DecidableEq, Repr

/-- What the device puts on its ports: host writes, messages, answers, bus commands. -/
inductive Emit where
  /-- output bytes at an address of a function (R28) -/
  | output (fn : Nat) (addr : BitVec 64) (data : Bytes)
  /-- a completion record at an address of a function (R79) -/
  | record (fn : Nat) (addr : Nat) (r : Record)
  /-- an MSI-X message: the data of a vector's table entry written to its address (R62) -/
  | msix (fn vector addr data : Nat)
  /-- a meter page, COMMIT last (R121) -/
  | meterPage (addr : Nat) (page : MeterPage)
  /-- Device Readiness Status and Function Readiness Status messages (R54, R109) -/
  | drs
  | frs (fn : Nat)
  /-- a window or configuration request completed with Unsupported Request (R41, R51) -/
  | unsupported (fn : Nat)
  /-- a configuration request completed with Request Retry Status (R54) -/
  | configRetry
  /-- a DOE data object (R57) -/
  | doe (data : Bytes)
  /-- an answer on the SMBus; none is a NACK (R64) -/
  | smbus (data : Option Bytes)
  /-- a 48-bit frame on TK_CMD, and a data phase on TK_DAT (R423, R424) -/
  | tkFrame (f : BitVec 48)
  | tkData (data : Bytes)
  /-- messages of the twin link (R402, R406, R407, R418) -/
  | twinHello (m : TwinHello)
  | twinReply (m : TwinReply)
  | twinAuth (m : TwinAuth)
  | twinJournal (m : JournalMessage)
  | twinCheckpoint (m : CheckpointMessage)
  | twinHeartbeat (h : Heartbeat)
  | twinResend (journal : Bool) (count : Nat)
  | twinUnpair
  | twinAdopt (fn : Nat)
  deriving DecidableEq, Repr

/-- One-time-programmable fuses (R464, R469, R495). -/
structure Otp where
  g0 : BitVec 16
  g1 : BitVec 16
  g2 : BitVec 16
  g3 : BitVec 16
  wipe : BitVec 16
  serial : BitVec 64
  /-- 0x01 GQ5200-AC, 0x02 GQ5200-AE -/
  grade : Nat
  /-- S_maker, 32 bytes; readable by no path -/
  makerSecret : Bytes
  /-- the trims are overwritten with ones by the SCRAPPED wipe (R472) -/
  trimsErased : Bool
  deriving DecidableEq, Repr

/-- An IDE stream (R60): the key programmed, empty for none; whether the stream is Secure; and, for a selective stream,
its RID association block and its address association block. -/
structure Ide where
  key : Bytes
  secure : Bool
  ridValid : Bool
  ridBase : Nat
  ridLimit : Nat
  addrValid : Bool
  addrBase : Nat
  addrLimit : Nat
  deriving DecidableEq, Repr

/-- What the partner at the other end of the link offers in training (R35): its highest speed code (1 to 5 for 2.5, 5, 8,
16 and 32 GT/s, more for a faster one) and its lanes. -/
structure LinkPartner where
  speed : Nat
  lanes : Nat
  deriving DecidableEq, Repr

/-- The link as trained (R35): speed code 1 to 5 and lanes. -/
structure Link where
  speed : Nat
  lanes : Nat
  deriving DecidableEq, Repr

/-- The PCI Express controller (chapter 02). -/
structure Pcie where
  /-- level of PERST_N: high is released -/
  perstHigh : Bool
  /-- configuration requests completed with Request Retry Status (t_CFG) -/
  cfgRetry : Bool
  /-- the link, while it is up -/
  link : Option Link
  /-- ASPM L1 enabled (R36) -/
  aspmL1 : Bool
  /-- the bus number of the PF's routing ID -/
  bus : Nat
  /-- Max_Payload_Size and Max_Read_Request_Size as programmed: codes, 128 bytes times a power of 2 (R48) -/
  mps : Nat
  mrrs : Nat
  drsSent : Bool
  ready : Bool
  /-- CCLK at which READY was set, for GLB_SNAP_CCLK -/
  readyTick : Nat
  vfEnable : Bool
  numVfs : Nat
  ari : Bool
  /-- VFs that exist: functions 1 to this number -/
  vfs : Nat
  /-- functions with Bus Master Enable set, and functions in D3hot -/
  bme : List Nat
  d3 : List Nat
  aer : Tab (List Aer)
  ptmEnable : Bool
  ptmLost : Bool
  ptmDialog : Bool
  /-- consecutive valid dialogs while lost -/
  ptmRun : Nat
  completionTimeout : Tab Nat
  /-- DOE requests that wait for READY (R55) -/
  doeWaiting : List DoeObject
  spdmSession : Bool
  /-- stream 0 the link stream, 1 to 8 the selective streams -/
  ide : List Ide
  /-- unmasked vectors and pending vectors, keyed 256 · function + vector (R63), and the message address and data of the
  MSI-X table's entries (R40, R45) -/
  unmasked : List Nat
  msixPending : List Nat
  msixAddr : Tab Nat
  msixData : Tab Nat
  deriving DecidableEq, Repr

/-- An entry of an inline batch that has no record yet (R80). -/
structure BatchItem where
  seq : Nat
  index : Nat
  batchEnd : Bool
  phase : Bool
  /-- filled once its output is written, or it completed without a seat -/
  done : Option Record
  deriving DecidableEq, Repr

/-- A ring context (R96). -/
structure Ring where
  owner : Nat
  ringId : Nat
  log2 : Nat
  split : Bool
  irqMode : Nat
  vector : Nat
  interval : Nat
  sqBase : Nat
  cqBase : Nat
  expPhase : Bool
  cqPhase : Bool
  sqNext : Nat
  cqNext : Nat
  hot : Bool
  /-- reads outstanding, at most 4 -/
  reads : Nat
  /-- reads still outstanding that were issued after the first invalid entry, discarded unexamined -/
  stale : Nat
  admitted : Nat
  completed : Nat
  stop : Option Status
  /-- held at SQ_NEXT for want of a seat (R22) -/
  held : Bool
  /-- an entry that passed checks 1 to 7 and waits for its fragment list -/
  frag : Option Entry
  /-- entries consumed since set-up -/
  seq : Nat
  batch : List BatchItem
  deriving DecidableEq, Repr

/-- A halt record (R91). -/
structure Halt where
  code : HaltCode
  ringId : Nat
  check : Nat
  index : Nat
  opcode : Nat
  fragment : Nat
  sequence : Nat
  addr : Nat
  count : Nat
  deriving DecidableEq, Repr

/-- The usher (R97). -/
structure Ush where
  rings : Tab Ring
  adminSq : Nat
  adminCq : Nat
  adminCfg : Nat
  setupErr : Bool
  budget : Nat
  halts : Tab Halt
  halted : List Nat
  /-- the function last granted pages, and how often in a row each function was passed over (R95) -/
  granted : Nat
  passed : Tab Nat
  deriving DecidableEq, Repr

/-- A header of an image: its fixed part and its rows. -/
structure Header where
  opcode : Nat
  entry : Nat
  width : Nat
  flags : Nat
  keccak : Nat
  sha2 : Nat
  usageKey : Nat
  usageAux : Nat
  scratch : Nat
  defaultUnits : Nat
  argsMask : Nat
  lenSel : Nat
  footprint : List (Nat × Nat)
  rows : List Bytes
  deriving DecidableEq, Repr

/-- An operation-table entry as a seat captured it (R24, R386). -/
structure OpEntry where
  opcode : Nat
  pool : Nat
  cls : Nat
  vf : Bool
  customer : Bool
  /-- work units of header rows 0 to 15 -/
  units : List Nat
  deriving DecidableEq, Repr

/-- Where a new key goes: a slot to replace, or 0 for the engine's choice (R133, R248). -/
abbrev Target := Nat

/-- A key to be placed (R249). -/
structure NewKey where
  owner : Nat
  family : Nat
  paramSet : Nat
  form : Nat
  usage : Nat
  origin : Nat
  exportable : Bool
  material : Bytes
  /-- material units (R127, R134, R173) -/
  units : Nat
  /-- heights and per-leaf constants of a stateful private key (R184) -/
  heights : List Nat
  consts : List Nat
  deriving DecidableEq, Repr

/-- A digest stream (R231, R234). -/
inductive StreamState where
  | opened | finished | broken
  deriving DecidableEq, Repr

structure Stream where
  state : StreamState
  fn : Nat
  ringId : Nat
  alg : Nat
  /-- the hash state behind the whole blocks absorbed, and the partial block (R236, R243) -/
  chain : Bytes
  buffer : Bytes
  count : Nat
  keyed : Bool
  serial : Nat
  dlen : Nat
  pos : Nat
  deriving DecidableEq, Repr

/-- A tenant-table entry (R98, R100). -/
structure Tenant where
  rings : Nat
  seats : Nat
  pages : Nat
  slots : Nat
  units : Nat
  streams : Nat
  pollShare : Nat
  classes : Nat
  deriving DecidableEq, Repr

/-- A key slot (R249); a slot not listed was never used. -/
structure Slot where
  gen : Nat
  owner : Nat
  family : Nat
  paramSet : Nat
  form : Nat
  usage : Nat
  origin : Nat
  exportable : Bool
  mirror : Bool
  occupied : Bool
  firstUnit : Nat
  unitCount : Nat
  material : Bytes
  commitSeq : Nat
  /-- when the directory entry was written, for R248 -/
  written : Nat
  deriving DecidableEq, Repr

/-- The working record of a stateful private key (R176 to R183). -/
structure Stateful where
  heights : List Nat
  consts : List Nat
  /-- the next unreserved block -/
  nextBlock : Nat
  /-- the block in use and the next leaf inside it -/
  block : Option Nat
  pos : Nat
  forfeited : Nat
  reservations : Nat
  active : Bool
  lastSigned : Nat
  /-- the deactivation position, when that is the latest state record -/
  parked : Bool
  /-- journal head positions of the latest reservation record, where this device holds one, and of the latest record of
  either kind (R256) -/
  checkpointAt : Option Nat
  recordAt : Nat
  /-- the checkpoint of that reservation record (R176) -/
  checkpoint : Bytes
  deriving DecidableEq, Repr

/-- What the expansion cache holds of a slot's key: the public parts, and the secret parts in three shares, which XOR to them
(R129, R190). -/
structure Expansion where
  pub : Bytes
  shares : List Bytes
  deriving DecidableEq, Repr

/-- A record of the journal (R255): the slot and its 96-bit directory entry; a reservation of R176; handle, next unreserved
block, forfeited leaves and in-block position; handle and in-block position; a function; a function and its entry; a slot
and its curve. -/
inductive JournalRecord where
  | slotCommit (slot entry : Nat)
  | reservation (handle block forfeited : Nat) (checkpoint : Bytes)
  | compact (handle nextBlock forfeited pos : Nat)
  | parked (handle pos : Nat)
  | partitionErase (fn : Nat)
  | tenant (fn : Nat) (entry : Bytes)
  | curve (slot : Nat) (record : Bytes)
  deriving DecidableEq, Repr

/-- Rows that the changes of an operation replaced, with their keys, none where there was no row: what stands again when an
operation whose commit is held never reaches its commit instant (R27). -/
structure Undo where
  slots : List (Nat × Option Slot)
  stateful : List (Nat × Option Stateful)
  curves : List (Nat × Option Bytes)
  tenants : List (Nat × Option Tenant)
  streams : List (Nat × Option Stream)
  /-- sequence numbers of the records that it wrote: from the first on, below the second -/
  since : Nat
  until_ : Nat
  deriving DecidableEq, Repr

def Undo.none : Undo := { slots := [], stateful := [], curves := [], tenants := [], streams := [], since := 0, until_ := 0 }

/-- The changes an operation makes at its commit instant (R27). -/
inductive Change where
  /-- a key placed in or replacing a slot; the handle is appended to the output -/
  | putKey (target : Target) (key : NewKey)
  | destroyKey (slot : Nat)
  /-- a stream opened in a free index; SERIAL 0 stands for the next number -/
  | openStream (s : Stream)
  | setStream (index : Nat) (s : Stream)
  | closeStream (index : Nat)
  | markErase (fn : Nat)
  | pin (slot : Nat) (unpin : Bool)
  | curve (slot : Nat) (record : Option Bytes)
  /-- a load that failed a check, for its event (R215) -/
  | curveRejected (slot check : Nat)
  | ringSetup (input : Bytes)
  | vfSetup (input : Bytes)
  | unquiesce (fn : Nat)
  | liveness (secret : Bytes)
  | scriptKey (slot : Nat) (digest : Option Bytes)
  | planLoad (bank : Bool) (image : Bytes)
  | logClear (maker : Bool)
  | twinPair (mode : Nat)
  | twinAdopt (fn : Nat) (yields : Bool)
  | challengeUsed
  deriving DecidableEq, Repr

/-- What one run of an operation computes. -/
structure Outcome where
  status : Status
  out : Bytes
  rounds : Nat
  interval : Nat
  changes : List Change
  deriving DecidableEq, Repr

/-- The sides' tiles of a run, with the fingerprints the comparator kept (R315). -/
structure Run where
  tileA : Option Nat
  tileB : Option Nat
  printA : Nat
  printB : Nat
  deriving DecidableEq, Repr

/-- The life of a seat (chapter 01). -/
inductive Phase where
  | waiting | granted | executing
  /-- the interval is over and the hold waits for the twin's acknowledgement (R26) -/
  | held
  | committed
  deriving DecidableEq, Repr

/-- The catch-up of a stateful key before its signature (R182, R256). -/
inductive CatchUp where
  | none | recompute | advance | done
  deriving DecidableEq, Repr

/-- Hash-array cores leased to a run (R310). -/
structure Lease where
  group : Nat
  keccak : Nat
  sha2 : Nat
  deriving DecidableEq, Repr

/-- An operation slot (R22, R95). -/
structure Seat where
  fn : Nat
  ring : Nat
  ringId : Nat
  seq : Nat
  index : Nat
  entry : Entry
  frags : List Fragment
  table : OpEntry
  /-- the headers of a customer opcode, of the full width and of the half one, as they stood at admission (R24) -/
  headers : List Header
  /-- the pool that serves it: that of its entry, or of the table that a structural switch brought in before its dispatch;
  none when that table has no entry (R392, R393) -/
  pool : Option Nat
  /-- the default quotas of the plan, and the quotas of the key owner's tenant-table entry, at admission (R100, R102) -/
  defaults : Tenant
  quota : Tenant
  /-- bank whose image the entry runs (R24) -/
  bank : Bool
  /-- order of admission, device-wide -/
  order : Nat
  admitTick : Nat
  phase : Phase
  demand : Nat
  outLen : Nat
  /-- the staged input; none while a byte is missing -/
  input : Option Bytes
  /-- reads of its operand that the device has issued, each for the whole input or for a chunk (R50) -/
  asked : Nat
  /-- bytes staged so far of a streamed input, chunks staged and processed (R198, R237) -/
  chunks : Bytes
  staged : Nat
  processed : Nat
  /-- the units assigned, unit 2t + h being half h of tile t, and 2t a whole tile -/
  tileA : Option Nat
  tileB : Option Nat
  half : Bool
  lease : Lease
  /-- tiles that took part in earlier runs -/
  used : List Nat
  runs : List Run
  run : Nat
  /-- DRBG reservation: the state whose output it is, the free counter of what no rule derives from it, its generator (8 for
  none that still counts it), its length, and whether the operation ends with E_ENTROPY -/
  gen : CtrDrbg
  drbg : Nat
  drbgInst : Nat
  drbgLen : Nat
  noEntropy : Bool
  outcome : Option Outcome
  overA : Bool
  overB : Bool
  leaf : Option Nat
  reserves : Bool
  catchUp : CatchUp
  approval : Bool
  /-- the pinned key it uses: its slot, or 65,536 and more for a copy whose pin has ended (R197) -/
  pinned : Option Nat
  /-- the pages of that pin -/
  pinPages : Nat
  passed : Nat
  /-- the credit that the operation was seen to wait for: the slot it changes, if it names one, and the units it writes (R257) -/
  credit : Option (Option Nat × Nat)
  /-- its dispatch was delayed for a hash-array lease -/
  leaseWait : Bool
  detached : Bool
  /-- the journal sequence number whose acknowledgement the commit awaits (R26) -/
  awaits : Option Nat
  /-- what its changes replaced, while its commit is held (R26, R27) -/
  undo : Undo
  /-- an uncorrectable SRAM error of the run: the tile to blame, or 34 for no tile (R17, R318) -/
  ue : Option Nat
  deriving DecidableEq, Repr

/-- An item in the writer's queue (R28). -/
structure Item where
  fn : Nat
  ring : Nat
  seq : Nat
  index : Nat
  seat : Option Nat
  outPtr : BitVec 64
  out : Bytes
  batchEnd : Bool
  record : Record
  /-- a curtain drop stopped the write-out of its output (R31) -/
  stopped : Bool
  deriving DecidableEq, Repr

/-- The home of a partition (R409). -/
structure Home where
  twin : Bool
  term : Nat
  /-- this device took the partition home during the present absence (R178) -/
  adopted : Bool
  deriving DecidableEq, Repr

/-- The mailbox of a VF (R105). -/
structure Mailbox where
  outBuf : List Host.Cell
  outLen : Nat
  busy : Bool
  inBuf : List Host.Cell
  inLen : Nat
  full : Bool
  txLen : Nat
  deriving DecidableEq, Repr

/-- A VF reset in progress (R109): its cause and the seats of OP_VF_RESET that joined it. -/
structure VfReset where
  cause : Nat
  joined : List Nat
  vanishes : Bool
  deriving DecidableEq, Repr

/-- Tenants (chapter 04). -/
structure Ten where
  table : Tab Tenant
  homes : Tab Home
  mail : Tab Mailbox
  mailSel : Nat
  quiescing : List Nat
  /-- OP_VF_QUIESCE operations that wait for their VF to be quiet: seat and function (R113) -/
  quiesceWaits : List (Nat × Nat)
  resets : Tab VfReset
  eraseCount : Tab Nat
  deriving DecidableEq, Repr

/-- The box office (R115 to R124). -/
structure Box where
  pageBase : Nat
  count : Nat
  enable : Bool
  /-- BOX_CFG.PERIOD, and the period that governs the epoch in progress (R120) -/
  period : Nat
  inForce : Nat
  running : Bool
  epoch : Nat
  start : Nat
  ptmLost : Bool
  extended : Bool
  lostFrom : Option Nat
  counters : Tab Nat
  /-- keys of counters lost to an uncorrectable error in the current bank -/
  ue : List Nat
  /-- frozen banks not yet written, oldest first: one, and the bank that PERST_N cut (R123) -/
  frozen : List MeterPage
  stored : Nat
  lastPage : Nat
  snapSel : Nat
  deriving DecidableEq, Repr

/-- The key table and its engine (chapter 10). -/
structure Keys where
  slots : Tab Slot
  stateful : Tab Stateful
  /-- allocator position: the unit after the last run allocated -/
  unitNext : Nat
  written : Nat
  mkPresent : Bool
  /-- the 256-bit master key MK of BBRAM, while `mkPresent` (R252); the master keys and curtain drops there have been -/
  master : Bytes
  mkGen : Nat
  replayDone : Bool
  seq : Nat
  ackedSeq : Nat
  /-- journal head, bytes written since manufacture -/
  head : Nat
  /-- the records of the pages not yet overwritten: position, sequence number, record (R255, R256) -/
  journal : List (Nat × Nat × JournalRecord)
  /-- the records that cross the link, written since the last acknowledged one, with their head positions (R414, R416) -/
  log : List (Nat × JournalMessage)
  /-- credit levels in tenths, and the MTICK they were brought up to (R257) -/
  commitCredit : Nat
  unitCredit : Nat
  creditTick : Nat
  slotReady : Tab Nat
  liveness : Option Bytes
  overwriteBusy : Bool
  /-- pages pinned per slot, and copies kept by seats after a pin ended (R196, R197) -/
  pins : Tab Nat
  curves : Tab Bytes
  /-- the seal key, while `sealPresent` (R131) -/
  sealKey : Bytes
  sealPresent : Bool
  /-- expansion-cache entries, by slot (R129) -/
  cache : Tab Expansion
  deriving DecidableEq, Repr

/-- Digest streams (chapter 09). -/
structure Dig where
  streams : Tab Stream
  gens : Tab Nat
  serial : Nat
  deriving DecidableEq, Repr

/-- The states of an entropy source (R299). -/
inductive SrcState where
  | off | startUp | running | restarting | fatal
  deriving DecidableEq, Repr

/-- An entropy source (R277 to R285). -/
structure Source where
  state : SrcState
  config : Nat
  fails : List Nat
  cause : Nat
  pair : Nat
  lastBit : Bool
  runLength : Nat
  deriving DecidableEq, Repr

/-- One of the 8 DRBGs (R288). -/
structure Drbg where
  live : Bool
  serving : Bool
  requests : Nat
  reseedTick : Nat
  deferred : Bool
  pendingBytes : Nat
  /-- Key and V -/
  gen : CtrDrbg
  deriving DecidableEq, Repr

/-- A mask generator (R291): its 256-bit seed, and the operations on its tile since. -/
structure MaskGen where
  seeded : Bool
  expired : Bool
  ops : Nat
  seed : Bytes
  deriving DecidableEq, Repr

/-- Random numbers (chapter 11). -/
structure Rng where
  srcs : List Source
  /-- the conditioned bits, oldest first -/
  pool : Bytes
  insts : List Drbg
  masks : Tab MaskGen
  katDone : Bool
  katFail : Bool
  deriving DecidableEq, Repr

/-- The states of a tile (R329). -/
inductive TileState where
  | active | understudy | retired | selfTest
  deriving DecidableEq, Repr

/-- A footprint in a script cache: the digest of its image, and its word ranges (R331). -/
structure Footprint where
  image : Bytes
  ranges : List (Nat × Nat)
  deriving DecidableEq, Repr

/-- A stage tile (R300, R319, R382). -/
structure Tile where
  state : TileState
  position : Option Nat
  pool : Nat
  split : Bool
  /-- bit 0: a run on the tile or on half A; bit 1: on half B -/
  busy : Nat
  /-- operating times, in MTICK, of the blamed mismatches -/
  blames : List Nat
  retiredHour : Nat
  retireWanted : Bool
  /-- configuration that takes effect at its release (R393) -/
  next : Option (Nat × Bool)
  /-- footprints in the script caches of the whole tile or half A, and of half B, the last used first (R331) -/
  cached : List Footprint
  cachedB : List Footprint
  deriving DecidableEq, Repr

/-- Tiles and hash array (chapter 12). -/
structure Til where
  tiles : List Tile
  retire : Nat
  /-- understudies on their way into a position -/
  coming : List (Nat × Nat)
  /-- cores leased per hash group: Keccak and SHA-2 -/
  leased : Tab (Nat × Nat)
  /-- the function last dispatched (R306) -/
  served : Nat
  deriving DecidableEq, Repr

/-- A vector register (R356). -/
structure VReg where
  val : BitVec 512
  masked : Bool
  deriving DecidableEq, Repr

/-- A scalar register (R356, R377). -/
structure SReg where
  val : BitVec 64
  masked : Bool
  deriving DecidableEq, Repr

/-- A leased hash core (R339). -/
structure HashCore where
  started : Bool
  rate : Nat
  domain : Nat
  sha512 : Bool
  maskedMode : Bool
  absorbed : Bytes
  padded : Bool
  out : Nat
  readyAt : Nat
  deriving DecidableEq, Repr

/-- An instruction in flight (R378 to R380). -/
structure Flight where
  unit : Nat
  issue : Nat
  occupied : Nat
  latency : Nat
  dests : List Nat
  srcs : List Nat
  vl : Nat
  vshape : Nat
  partialLoad : Bool
  chain : Nat
  deriving DecidableEq, Repr

/-- How a side ended (R343 to R345). -/
inductive Ended where
  | running | ended | faulted (s : Status)
  deriving DecidableEq, Repr

/-- A side of a run: the script machine of one tile or half-tile (R342, R356). -/
structure SideState where
  pc : Nat
  stack : List Nat
  v : Tab VReg
  s : Tab SReg
  a : Tab Nat
  q : Tab Nat
  vl : Nat
  vshape : Nat
  vpart : Bool
  z : Bool
  c : Bool
  reject : Bool
  lc0 : Nat
  lc1 : Nat
  r : Nat
  scratch : List Host.Cell
  tags : List Nat
  cores : Tab HashCore
  share : Nat
  refillAt : Nat
  drbgUsed : Nat
  /-- the values offered to PCMP, first first, and whether one of them differed from the partner's (R339) -/
  offers : List Nat
  differs : Bool
  out : Bytes
  status : Option Status
  ktw : Option Nat
  ended : Ended
  /-- CCLK since the pair was assigned, and as the interval began -/
  clock : Nat
  base : Nat
  flights : List Flight
  samplerAt : Nat
  released : List Nat
  deriving DecidableEq, Repr

/-- A resident script image (R348, R355). -/
structure Image where
  digest : Bytes
  svn : Nat
  bytes : Bytes
  deriving DecidableEq, Repr

/-- Scripts and control store (chapter 13). -/
structure Scr where
  maker : Option Image
  customer : Option Image
  sceneChange : Bool
  /-- banks whose image the retention area holds, and the words in use -/
  retain : Nat
  retainBank : Option Bool
  /-- customer key slots: digests -/
  keys : List (Option Bytes)
  minSvn : Nat
  sides : Tab (SideState × SideState)
  deriving DecidableEq, Repr

/-- A stage plan as the device reads it (R383 to R387). -/
structure Plan where
  digest : Bytes
  svn : Nat
  /-- the image's bytes; empty for the default plan -/
  image : Bytes
  isDefault : Bool
  keySlot : Option Nat
  pools : Nat
  vfOffer : Nat
  wingsPages : Nat
  pinPages : Nat
  split : Nat
  poolOf : List Nat
  keccak : List Nat
  sha2 : List Nat
  poolGroup : List Nat
  digestGroup : Nat
  quota : Tenant
  maxLog2 : Nat
  pfRings : Nat
  floor : List Nat
  /-- operation-table entries of a loaded plan; the default plan's are computed (R387) -/
  table : List OpEntry
  customer : Option Image
  maker : Image
  deriving DecidableEq, Repr

/-- The steps of a stage switch (R391 to R393). -/
inductive Switching where
  | idle | checking | intermission
  deriving DecidableEq, Repr

/-- The stage plan (chapter 15). -/
structure Stg where
  bankA : Option Plan
  bankB : Option Plan
  active : Bool
  fallback : Bool
  noPlan : Bool
  switching : Switching
  target : Bool
  raiseMin : Bool
  /-- the seat of the OP_STAGE_SWITCH that asked -/
  asker : Option Nat
  loading : List (Nat × Bool)
  switchReg : Nat
  resultStatus : Status
  resultKind : Nat
  resultUs : Nat
  minSvn : Nat
  overlayMax : Nat
  overlayMaxNext : Nat
  deny : Tab Nat
  deriving DecidableEq, Repr

/-- The pairing record (R401). -/
structure Pairing where
  peer : BitVec 64
  pairId : BitVec 64
  /-- the pairing secret PS, which a curtain drop clears (R402, R417) -/
  secret : Option Bytes
  deriving DecidableEq, Repr

/-- TWN_STATUS.STATE (R420). -/
inductive TwinState where
  | unpaired | pairing | present | absent | resending | diverged
  deriving DecidableEq, Repr

/-- Where a handshake stands (R402). -/
inductive Handshake where
  | idle | sentHello | sentReply | sentAuthI
  deriving DecidableEq, Repr

/-- A channel of the twin link (R405): the sender's next CSEQ and unacknowledged frames, the receiver's next CSEQ. -/
structure Channel where
  sendSeq : Nat
  unacked : Nat
  recvSeq : Nat
  deriving DecidableEq, Repr

/-- The twin link (chapter 16). -/
structure Twn where
  record : Option Pairing
  state : TwinState
  linkUp : Bool
  session : Bool
  handshake : Handshake
  hello : Option TwinHello
  reply : Option TwinReply
  /-- the initiator's own AUTH_I, until AUTH_R arrives -/
  auth : Option TwinAuth
  /-- the initiator's X448 scalar and ML-KEM-1024 seeds, and ss_mlkem ‖ ss_x448 once both are known (R402) -/
  ephemeral : Bytes
  agreed : Bytes
  /-- the session keys: of the frames sent, and of those received -/
  keyOut : Bytes
  keyIn : Bytes
  rekeying : Bool
  framesTx : Nat
  fctrRx : Nat
  tagFails : Nat
  journal : Channel
  checkpoint : Channel
  /-- messages that wait for room among the 256 unacknowledged frames of a channel (R405) -/
  journalQueue : List JournalMessage
  checkpointQueue : List CheckpointMessage
  appliedSeq : Nat
  peerApplied : Nat
  joinUntil : Nat
  /-- partitions whose changes are no longer dispatched because the twin takes them home (R413) -/
  yielding : List Nat
  diverged : List Nat
  peerState : Nat
  peerCurtain : Bool
  peerContext : Bytes
  enable : Bool
  planSync : Bool
  streamCkpt : Bool
  peerPlanSync : Bool
  peerStreamCkpt : Bool
  joinWait : Nat
  meterBase : Nat
  meterCount : Nat
  meterEnable : Bool
  /-- SERIAL and TAG of suspended streams of the twin, newest last -/
  held : List (Nat × Bytes)
  snapshot : Option (Nat × List (Nat × Nat))
  /-- the seat of the pairing or restore opcode in progress -/
  asker : Option Nat
  deriving DecidableEq, Repr

/-- TKB_SLOT[s].STATE (R443). -/
inductive TokState where
  | empty | debouncing | identified | faulty
  deriving DecidableEq, Repr

/-- A token slot (R443). -/
structure TokSlot where
  state : TokState
  present : Bool
  id : Option (BitVec 128)
  addr : Nat
  mode : Nat
  fallback : Bool
  lastWrite : Nat
  writeCount : Nat
  /-- N(S) of a transaction ended by removal (R432) -/
  cutSeq : Option Bool
  cutId : Option (BitVec 128)
  nextNs : Bool
  ifsc : Nat
  cert : Option Bytes
  asked : Bool
  deriving DecidableEq, Repr

/-- An enrolled token (R436). -/
structure Enrolled where
  id : BitVec 128
  keyDigest : Bytes
  deriving DecidableEq, Repr

/-- An open ceremony (R437). -/
structure Ceremony where
  action : Nat
  arg : Bytes
  nonce : Bytes
  deadline : Nat
  counted : List Nat
  /-- the named token's own approval (R442) -/
  own : Bool
  deriving DecidableEq, Repr

/-- TKB_CER_STATUS.STATE (R443). -/
inductive Approval where
  | none | open (c : Ceremony) | held (c : Ceremony) | reserved (c : Ceremony) (seat : Nat)
  deriving DecidableEq, Repr

/-- What the bus is doing (R423 to R431). -/
inductive BusState where
  | idle
  /-- a command frame awaits its reply: its bits, and its repeats -/
  | await (frame : BitVec 48) (tries : Nat)
  | arbitrating
  | located (slot : Option Nat)
  | modeReport (mode : Nat)
  deriving DecidableEq, Repr

/-- The token bus (chapter 17). -/
structure Tkb where
  slots : List TokSlot
  bus : BusState
  tag : Nat
  nextAddr : Nat
  /-- the ID the last arbitration round read -/
  winner : Option (BitVec 128)
  naming : Option (BitVec 128 × Nat)
  attached : Option Nat
  modeAsked : Nat
  /-- the block being sent, bytes of the message received, faults of the exchange (R429) -/
  sent : Option Bytes
  message : Bytes
  ackPending : Bool
  recvNs : Bool
  faulty : Nat
  resyncs : Nat
  /-- the second expiry of the waiting time (R431) -/
  expired : Bool
  wtx : Nat
  authority : Option Bytes
  enrolled : Tab Enrolled
  quorum : Nat
  maxMode : Nat
  fourLine : Bool
  approval : Approval
  result : Nat
  action : Nat
  arg : List Host.Cell
  startWanted : Bool
  buf : List Host.Cell
  deriving DecidableEq, Repr

/-- A monitor channel (R444 to R452). -/
structure Mon where
  asserted : Bool
  /-- the raw level as last seen (R447) -/
  raw : Bool
  heldRaised : Bool
  chatter : Nat
  /-- stamps of the events counted so far -/
  stamps : List Nat
  policy : Nat
  k : Nat
  w : Nat
  heldMs : Nat
  lastFire : Option (Nat × Nat)
  deriving DecidableEq, Repr

/-- An entry of the backup latch (R461). -/
structure Latch where
  channel : Nat
  cleared : Bool
  bclk : Nat
  unkept : Nat
  deriving DecidableEq, Repr

/-- Monitors, curtain and backup domain (chapter 18). -/
structure Tmp where
  mons : List Mon
  /-- the MTICK of the latest curtain drop: a tick makes at most one (R451) -/
  dropTick : Option Nat
  /-- the MTICK of the last firing with HOLD or CURTAIN (R452) -/
  lastHold : Option Nat
  hold : Bool
  curtainDown : Bool
  raising : Bool
  curtainResult : Nat
  policyChannel : Nat
  policyResult : Nat
  holdMin : Nat
  backupEvents : Bool
  imported : Nat
  backupLost : Bool
  latch : List Latch
  onBackup : Bool
  armed : List Nat
  /-- the bank pointer and its shadow differ (R453) -/
  pointerBad : Bool
  /-- guarded registers whose shadow differs, by CTL offset -/
  shadowBad : List Nat
  deriving DecidableEq, Repr

/-- Progress of a life-cycle transition (R472). -/
inductive Transition where
  | none | programming (target source : Nat) | wiping (target : Nat)
  deriving DecidableEq, Repr

/-- Life cycle (chapter 19). -/
structure Lcs where
  transition : Transition
  unlocked : Bool
  /-- a challenge awaits its one attempt -/
  challenge : Bool
  newWanted : Bool
  nonce : Bytes
  answer : Bytes
  response : List Host.Cell
  purpose : Nat
  target : Nat
  request : Nat
  result : Nat
  resultTarget : Nat
  approval : Bool
  deriving DecidableEq, Repr

/-- An event record (R476). -/
structure Evt where
  code : Nat
  severity : Nat
  backup : Bool
  source : Nat
  fn : Nat
  hours : Nat
  fraction : Nat
  cycles : Nat
  sequence : Nat
  detail : Bytes
  deriving DecidableEq, Repr

/-- A token bucket (R481): tokens, and when it last stopped being full or gained one. -/
structure Bucket where
  tokens : Nat
  since : Nat
  deriving DecidableEq, Repr

/-- The event recorder (chapter 20). -/
structure Evr where
  buffer : List Evt
  waiting : List Evt
  /-- records being flushed from the buffer's front -/
  flushing : Nat
  opening : List Evt
  running : List Evt
  history : List Evt
  next : Nat
  buckets : Tab Bucket
  suppressed : Tab Nat
  rate : Nat
  burst : Nat
  /-- operating time in MTICK, and as last saved -/
  time : Nat
  saved : Nat
  cycles : Nat
  deriving DecidableEq, Repr

/-- Register map: snapshots, events, guarded pairs (chapter 21). -/
structure Glb where
  scratch : BitVec 64
  trouble : BitVec 32
  snapBusy : Bool
  snapCount : Nat
  /-- the counters behind the RS registers, and their held copies, by CTL offset -/
  counters : Tab Nat
  held : Tab Nat
  evtPend : Tab (BitVec 32)
  evtEnable : Tab (BitVec 32)
  /-- pending pairs by block: offset, width in bytes and value -/
  pairs : Tab (Nat × Nat × Nat)
  failOffset : Nat
  failCount : Nat
  scrub : Nat
  deriving DecidableEq, Repr

/-- The SMBus port (R64, R65). -/
structure Smb where
  up : Bool
  /-- the level of the strap pins SMB_ADDR[1:0] -/
  strap : Nat
  alerts : BitVec 32
  /-- conditions behind the sticky alerts that still hold: temperatures -/
  hotCompute : Bool
  hotVault : Bool
  deriving DecidableEq, Repr

/-- Supplies (chapter 23). -/
structure Pwr where
  vault : Bool
  mains : Bool
  pwrfailHigh : Bool
  vhold : Bool
  bclk : Bool
  /-- the power-up sequence of the vault die is complete -/
  up : Bool
  deriving DecidableEq, Repr

/-- The block. -/
structure State where
  pending : List Instr
  otp : Otp
  /-- the model's own counter: free values are applied to it -/
  free : Nat
  /-- MTICK since manufacture -/
  now : Nat
  order : Nat
  host : List Emit
  pcie : Pcie
  ush : Ush
  seats : Tab Seat
  writer : List Item
  ten : Ten
  box : Box
  keys : Keys
  dig : Dig
  rng : Rng
  til : Til
  scr : Scr
  stg : Stg
  twn : Twn
  tkb : Tkb
  tmp : Tmp
  lcs : Lcs
  evr : Evr
  glb : Glb
  smb : Smb
  pwr : Pwr
  deriving DecidableEq, Repr


/-- The quotas of the default plan (R387). -/
def defaultQuota : Tenant :=
  { rings := 4, seats := 64, pages := 128, slots := 16, units := 32, streams := 4, pollShare := 0,
    classes := 0xFFFFFFFF }

/-- The maker image of the default plan: its digest and security version are the maker's (R348). -/
def defaultMaker : Image :=
  { digest := Config.defaultMakerDigest, svn := Config.defaultMakerSvn, bytes := [] }

/-- The default stage plan (R387). -/
def defaultPlan : Plan :=
  { digest := Config.defaultPlanDigest, svn := Config.defaultPlanSvn, image := [], isDefault := true, keySlot := none,
    pools := 1, vfOffer := 4096, wingsPages := 6144, pinPages := 2656, split := 0, poolOf := List.replicate 32 0,
    keccak := [48, 0, 0, 0], sha2 := [48, 0, 0, 0], poolGroup := List.replicate 8 0, digestGroup := 0,
    quota := defaultQuota, maxLog2 := 16, pfRings := 64, floor := List.replicate 48 1, table := [], customer := none,
    maker := defaultMaker }

/-- Tile `t` at first power-up: 0 to 31 hold their positions, 32 and 33 are understudies (R300, R382). -/
def Tile.first (t : Nat) : Tile :=
  { state := if t < 32 then .active else .understudy, position := if t < 32 then some t else none, pool := 0,
    split := false, busy := 0, blames := [], retiredHour := 0, retireWanted := false, next := none, cached := [],
    cachedB := [] }

/-- The default K and W of a channel (R444). -/
def Mon.firstFilter (n : Nat) : Nat × Nat :=
  if 8 ≤ n ∧ n ≤ 11 then (4, 1000000)
  else if 24 ≤ n ∧ n ≤ 27 then (2, 1000000)
  else if n = 40 then (8, 16777216)
  else if n = 44 then (4, 1000000)
  else (1, 1)

/-- Channel `n` at first power-up: its policy stands at its floor (R454, R463). -/
def Mon.first (n : Nat) : Mon :=
  { asserted := false, raw := false, heldRaised := false, chatter := 0, stamps := [],
    policy := if n = 45 then 3 else 1, k := (Mon.firstFilter n).1, w := (Mon.firstFilter n).2, heldMs := 1000,
    lastFire := none }

def Source.first : Source :=
  { state := .off, config := 0, fails := [], cause := 0, pair := 0, lastBit := false, runLength := 0 }

def Drbg.first : Drbg :=
  { live := false, serving := false, requests := 0, reseedTick := 0, deferred := false, pendingBytes := 0,
    gen := CtrDrbg.zero }

def TokSlot.first : TokSlot :=
  { state := .empty, present := false, id := none, addr := 0, mode := 0, fallback := false, lastWrite := 0,
    writeCount := 0, cutSeq := none, cutId := none, nextNs := false, ifsc := 32, cert := none, asked := false }

def Channel.first : Channel := { sendSeq := 0, unacked := 0, recvSeq := 0 }

def Keys.first : Keys :=
  { slots := [], stateful := [], unitNext := 0, written := 0, mkPresent := false, master := [], mkGen := 0, replayDone := false,
    seq := 0, ackedSeq := 0, head := 0, journal := [], log := [], commitCredit := 81920, unitCredit := 655360, creditTick := 0,
    slotReady := [], liveness := none, overwriteBusy := false, pins := [], curves := [], sealKey := [],
    sealPresent := false, cache := [] }

def Box.first : Box :=
  { pageBase := 0, count := 1, enable := false, period := 60, inForce := 60, running := false, epoch := 0, start := 0,
    ptmLost := true, extended := false, lostFrom := none, counters := [], ue := [], frozen := [], stored := 0,
    lastPage := 0, snapSel := 0 }

/-- A stream with no key, Insecure, and no association. -/
def Ide.first : Ide :=
  { key := [], secure := false, ridValid := false, ridBase := 0, ridLimit := 0, addrValid := false, addrBase := 0,
    addrLimit := 0 }

/-- A stream has a key. -/
def Ide.keyed (x : Ide) : Bool := x.key != []

/-- The key is cleared and the stream returns to Insecure; its association blocks stand. -/
def Ide.cleared (x : Ide) : Ide := { x with key := [], secure := false }

def Pcie.first : Pcie :=
  { perstHigh := false, cfgRetry := true, link := none, aspmL1 := false, bus := 0, mps := 0, mrrs := 2, drsSent := false,
    ready := false, readyTick := 0, vfEnable := false, numVfs := 0, ari := false, vfs := 0, bme := [], d3 := [], aer := [],
    ptmEnable := false, ptmLost := true, ptmDialog := false, ptmRun := 0, completionTimeout := [], doeWaiting := [],
    spdmSession := false, ide := List.replicate 9 Ide.first, unmasked := [], msixPending := [], msixAddr := [],
    msixData := [] }

def Stg.first : Stg :=
  { bankA := some defaultPlan, bankB := none, active := false, fallback := false, noPlan := false, switching := .idle,
    target := false, raiseMin := false, asker := none, loading := [], switchReg := 0, resultStatus := .ok,
    resultKind := 0, resultUs := 0, minSvn := 0, overlayMax := 4096, overlayMaxNext := 4096, deny := [] }

def Twn.first : Twn :=
  { record := none, state := .unpaired, linkUp := false, session := false, handshake := .idle, ephemeral := [], agreed := [],
    keyOut := [], keyIn := [], hello := none,
    reply := none, auth := none, rekeying := false, framesTx := 0, fctrRx := 0, tagFails := 0, journal := Channel.first,
    checkpoint := Channel.first, journalQueue := [], checkpointQueue := [], appliedSeq := 0, peerApplied := 0, joinUntil := 0,
    yielding := [], diverged := [], peerState := 0,
    peerCurtain := false, peerContext := [], enable := false, planSync := false, streamCkpt := false,
    peerPlanSync := false, peerStreamCkpt := false, joinWait := 1, meterBase := 0, meterCount := 1,
    meterEnable := false, held := [], snapshot := none, asker := none }

def Tkb.first : Tkb :=
  { slots := List.replicate 8 TokSlot.first, bus := .idle, tag := 0, nextAddr := 1, winner := none, naming := none,
    attached := none, modeAsked := 0, sent := none, message := [], ackPending := false, recvNs := false, faulty := 0,
    resyncs := 0, expired := false, wtx := 1, authority := none, enrolled := [], quorum := 1, maxMode := 2,
    fourLine := true, approval := .none, result := 0, action := 0, arg := [], startWanted := false, buf := [] }

def Tmp.first : Tmp :=
  { mons := (List.range 48).map Mon.first, dropTick := none, lastHold := none, hold := false, curtainDown := false,
    raising := false, curtainResult := 0, policyChannel := 0, policyResult := 0, holdMin := 1000000,
    backupEvents := false, imported := 0, backupLost := false, latch := [], onBackup := false, armed := [],
    pointerBad := false, shadowBad := [] }

def Lcs.first : Lcs :=
  { transition := .none, unlocked := false, challenge := false, newWanted := false, nonce := zeros 32,
    answer := zeros 64, response := [], purpose := 0, target := 0, request := 0, result := 0, resultTarget := 0,
    approval := false }

def Evr.first : Evr :=
  { buffer := [], waiting := [], flushing := 0, opening := [], running := [], history := [], next := 0, buckets := [],
    suppressed := [], rate := 16, burst := 64, time := 0, saved := 0, cycles := 0 }

def Glb.first : Glb :=
  { scratch := 0, trouble := 0, snapBusy := false, snapCount := 0, counters := [], held := [], evtPend := [],
    evtEnable := [], pairs := [], failOffset := 0, failCount := 0, scrub := 60 }

/-- The device at first power-up, before its supplies are valid: PERST_N asserted, every fuse at 0, the default plan in
bank A and MRAM otherwise empty. Where the spec gives a field no reset value, assumption log 1 names it. -/
def State.reset : State :=
  { pending := [],
    otp := { g0 := 0, g1 := 0, g2 := 0, g3 := 0, wipe := 0, serial := 0, grade := 1, makerSecret := zeros 32,
             trimsErased := false },
    free := 0, now := 0, order := 0, host := [], pcie := Pcie.first,
    ush := { rings := [], adminSq := 0, adminCq := 0, adminCfg := 0, setupErr := false, budget := 256, halts := [],
             halted := [], granted := 0, passed := [] },
    seats := [], writer := [],
    ten := { table := [], homes := [], mail := [], mailSel := 0, quiescing := [], quiesceWaits := [], resets := [], eraseCount := [] },
    box := Box.first, keys := Keys.first, dig := { streams := [], gens := [], serial := 0 },
    rng := { srcs := [Source.first, Source.first], pool := [], insts := List.replicate 8 Drbg.first, masks := [],
             katDone := false, katFail := false },
    til := { tiles := (List.range 34).map Tile.first, retire := 63, coming := [], leased := [], served := 0 },
    scr := { maker := none, customer := none, sceneChange := false, retain := 0, retainBank := none,
             keys := [none, none], minSvn := 0, sides := [] },
    stg := Stg.first, twn := Twn.first, tkb := Tkb.first, tmp := Tmp.first, lcs := Lcs.first, evr := Evr.first,
    glb := Glb.first,
    smb := { up := false, strap := 0, alerts := 0, hotCompute := false, hotVault := false },
    pwr := { vault := false, mains := false, pwrfailHigh := true, vhold := false, bclk := true, up := false } }

end Sys2Proof.Machine
end

