-- ==== Sys2Proof/Machine/Ops.lean ====
section
/-! DEFINITION. The named operations over counters, memory cells, events, interrupts and records that the meanings
share. -/

namespace Sys2Proof.Machine

/-! ### Byte cells: memories held as (address, byte) pairs -/

/-- The canonical form: rising addresses, and no entry equal to 0, which is what an unlisted address reads as. -/
def Memory.wf : List Host.Cell → Bool
  | [] => true
  | (a, b) :: m => b != 0 && m.all (fun c => a < c.1) && Memory.wf m

/-- The byte at an address. -/
def Memory.read (m : List Host.Cell) (a : Nat) : Byte :=
  match m with
  | [] => 0
  | (k, b) :: r => if k = a then b else Memory.read r a

/-- The memory with one byte written, in canonical form. -/
def Memory.write (m : List Host.Cell) (a : Nat) (b : Byte) : List Host.Cell :=
  match m with
  | [] => if b = 0 then [] else [(a, b)]
  | (k, c) :: r =>
    if a < k then (if b = 0 then (k, c) :: r else (a, b) :: (k, c) :: r)
    else if a = k then (if b = 0 then r else (a, b) :: r)
    else (k, c) :: Memory.write r a b

/-- `n` bytes from an address. -/
def Memory.readN (m : List Host.Cell) (a n : Nat) : Bytes := (List.range n).map fun i => Memory.read m (a + i)

/-- A byte string written from an address. -/
def Memory.writeN (m : List Host.Cell) (a : Nat) : Bytes → List Host.Cell
  | [] => m
  | b :: bs => Memory.writeN (Memory.write m a b) (a + 1) bs

/-! ### Counters behind the RS registers, by CTL offset -/

namespace Ctr
def polls := 0x40040
def hotReads := 0x40048
def admitted := 0x40050
def halts := 0x40058
def ktCommits := 0x200040
def ktThrottle := 0x200048
def ktUnits := 0x200050
def ktRebuilds := 0x200058
def rngOk (s : Nat) := 0x280040 + 8 * s
def rngFailed (s : Nat) := 0x280050 + 8 * s
def rngReseeds := 0x280060
def rngMaskReseeds := 0x280068
def rngBytes := 0x280070
def rngEntropy := 0x280078
def tilBusy (t : Nat) := 0x300400 + 8 * t
def tilOps (t : Nat) := 0x300600 + 8 * t
def mismatches := 0x300800
def reruns := 0x300808
def faultRepeats := 0x300810
def sramCorrected := 0x300818
def leaseWaits := 0x300820
def keccakPerms := 0x300828
def sha2Compressions := 0x300830
def scrFills := 0x3800C0
def scrFaults := 0x3800C8
def scrOverruns := 0x3800D0
def scrCueWaits := 0x3800D8
def switches := 0x380128
def intermissions := 0x380130
def interMax := 0x380138
def framesTx := 0x400400
def framesRx := 0x400408
def dropped := 0x400410
def resent := 0x400418
def fecCorrected := 0x400420
def fecUncorrected := 0x400428
def absences := 0x400430
def ackMax := 0x400438
def tmpEvents (n : Nat) := 0x481000 + 8 * n
def tmpFirings (n : Nat) := 0x481200 + 8 * n
def tmpChatter (n : Nat) := 0x481400 + 8 * n
def tmpDrops := 0x481600
def evrRecords := 0x500040
def evrSuppressed := 0x500048
def evrOverwritten := 0x500050
def evrFlushes := 0x500058
def evrOverflows := 0x500060
def tkbBlocks := 0x580800
def tkbRetries := 0x580808
def tkbIndeterminate := 0x580810
end Ctr

/-- A counter raised by `n`. -/
def bump (off n : Nat) (s : State) : State :=
  { s with glb := { s.glb with counters := s.glb.counters.put off (s.glb.counters.getD off 0 + n) } }

/-- A counter that keeps the largest value seen. -/
def bumpMax (off n : Nat) (s : State) : State :=
  { s with glb := { s.glb with counters := s.glb.counters.put off (Nat.max (s.glb.counters.getD off 0) n) } }

/-- Something put on the device's ports. -/
def emit (e : Emit) (s : State) : State := { s with host := s.host ++ [e] }

/-- The free counter read and advanced. -/
def spend (s : State) : State := { s with free := s.free + 1 }

/-- One of the alternatives that no rule chooses between. -/
def pick (s : State) (cands : List Nat) : Option Nat := cands[Config.choice s.free % cands.length]?

/-! ### Life-cycle decode (R464, R465) -/

inductive LcState where
  | blank | factory | sealed | ret | scrapped | locked
  deriving DecidableEq, Repr

/-- LC_STATE codes (R64). -/
def LcState.code : LcState → Nat
  | .blank => 0 | .factory => 1 | .sealed => 2 | .ret => 3 | .scrapped => 4 | .locked => 0xF

/-- A group that is fully programmed, and the state its pattern stands for (R464). -/
def fullGroup : BitVec 16 := 0xA5C3

def groupFull (g : BitVec 16) : Bool := g = fullGroup
def groupBlank (g : BitVec 16) : Bool := g = 0
def groupPartial (g : BitVec 16) : Bool := !groupFull g && !groupBlank g

/-- The state that the four groups decode to (R465). -/
def Otp.lc (o : Otp) : LcState :=
  if groupPartial o.g0 || groupPartial o.g1 || groupPartial o.g2 || groupPartial o.g3 then .locked
  else if groupFull o.g3 then .scrapped
  else match groupFull o.g0, groupFull o.g1, groupFull o.g2 with
    | false, false, false => .blank
    | true, false, false => .factory
    | true, true, false => .sealed
    | true, true, true => .ret
    | _, _, _ => .locked

/-- The target of the transition that a LOCKED device has pending (R465). -/
def Otp.pendingTarget (o : Otp) : Nat :=
  if groupPartial o.g0 then 1 else if groupPartial o.g1 then 2 else if groupPartial o.g2 then 3 else 4

/-- The state from which a LOCKED device's pending transition starts: full groups below the lowest partial one
(R458). -/
def Otp.sourceState (o : Otp) : LcState :=
  if groupPartial o.g0 then .blank
  else if groupPartial o.g1 then (if groupFull o.g0 then .factory else .blank)
  else if groupPartial o.g2 then (if groupFull o.g1 then .sealed else .factory)
  else if groupPartial o.g3 then
    (if groupFull o.g2 then .ret else if groupFull o.g1 then .sealed else if groupFull o.g0 then .factory else .blank)
  else .ret

def lc (s : State) : LcState := s.otp.lc

/-- Whether the curtain rules of SEALED and RETURN hold (R458), those of BLANK and FACTORY otherwise (R459). -/
def raiseNeedsApproval (s : State) : Bool :=
  match lc s with
  | .blank => false
  | .factory => false
  | .locked => match s.otp.sourceState with
    | .blank => false
    | .factory => false
    | _ => true
  | _ => true

/-! ### Functions -/

/-- Function `f` exists: the PF, or a VF that exists (R43). -/
def fnExists (s : State) (f : Nat) : Bool := f = 0 || f ≤ s.pcie.vfs

/-- The function may issue requests (R50). -/
def canMaster (s : State) (f : Nat) : Bool := s.pcie.bme.contains f && !s.pcie.d3.contains f

def halted (s : State) (f : Nat) : Bool := s.ush.halted.contains f
def quiescing (s : State) (f : Nat) : Bool := s.ten.quiescing.contains f
def resetting (s : State) (f : Nat) : Bool := (s.ten.resets.get? f).isSome

/-- The home of a partition; without an entry this device is home (R183, R409). -/
def homeOf (s : State) (f : Nat) : Home :=
  s.ten.homes.getD f { twin := false, term := 0, adopted := false }

/-! ### Interrupts and event sources (R62, R63, R503 to R505) -/

/-- The message of a vector of a function: the data of its table entry, written to its address (R40, R45). -/
def msixMessage (s : State) (f v : Nat) : Emit :=
  .msix f v (s.pcie.msixAddr.getD (256 * f + v) 0) (s.pcie.msixData.getD (256 * f + v) 0)

/-- Signals a vector of a function: one message, or its pending bit when masked or while the function may not master
the bus (R50, R63). -/
def signal (f v : Nat) (s : State) : State :=
  if s.pcie.unmasked.contains (256 * f + v) && canMaster s f then emit (msixMessage s f v) s
  else { s with pcie := { s.pcie with msixPending := insertSorted (256 * f + v) s.pcie.msixPending } }

/-- Raises an event source: its pending bit, and its group's vector when it was not pending and is enabled (R505). -/
def raise (src : Nat) (s : State) : State :=
  let g := src / 32
  let b := src % 32
  let p := s.glb.evtPend.getD g 0
  if p.getLsbD b then s
  else
    let s' := { s with glb := { s.glb with evtPend := s.glb.evtPend.put g (p ||| BitVec.ofNat 32 (2 ^ b)) } }
    if (s.glb.evtEnable.getD g 0).getLsbD b then signal 0 (2 + g) s' else s'

/-- Sets a bit of the trouble record (R494, R497). -/
def trouble (b : Nat) (s : State) : State :=
  { s with glb := { s.glb with trouble := s.glb.trouble ||| BitVec.ofNat 32 (2 ^ b) } }

/-! ### Event records (R476 to R482) -/

/-- Operating hours, and the fraction in 1/65,536 hour, of an operating time in MTICK (R478). -/
def hoursOf (t : Nat) : Nat := t / Config.tickPerHour
def fractionOf (t : Nat) : Nat := (t % Config.tickPerHour) * 65536 / Config.tickPerHour

/-- A record as it occurs; the high byte of its code names its source block (R476), and it takes its sequence number when it
enters the buffer (R477). -/
def mkEvt (s : State) (code sev fn : Nat) (detail : Bytes) : Evt :=
  { code := code, severity := sev, backup := false, source := code / 256, fn := fn, hours := hoursOf s.evr.time,
    fraction := fractionOf s.evr.time, cycles := s.evr.cycles, sequence := 0, detail := padTo 12 detail }

/-- A flush starts unless one is in progress (R479). -/
def startFlush (s : State) : State :=
  if s.evr.flushing = 0 ∧ s.evr.buffer ≠ [] then
    bump Ctr.evrFlushes 1
      { s with evr := { s.evr with flushing := s.evr.buffer.length, saved := s.evr.time } }
  else s

/-- A record enters the buffer and takes the next sequence number (R477); WARN or above, or 256 records, start a flush
(R479); SEVERE or above raises the EVR source (R490). -/
def enterEvt (e : Evt) (s : State) : State :=
  let s := { s with evr := { s.evr with buffer := s.evr.buffer ++ [{ e with sequence := s.evr.next % 2 ^ 32 }],
                                        next := (s.evr.next + 1) % 2 ^ 32 } }
  let s := bump Ctr.evrRecords 1 s
  let s := if 3 ≤ e.severity then raise 11 s else s
  if 256 ≤ s.evr.buffer.length ∨ 2 ≤ e.severity then startFlush s else s

/-- An occurrence that makes no record (R482). -/
def suppress (code : Nat) (s : State) : State :=
  bump Ctr.evrSuppressed 1
    { s with evr := { s.evr with
        suppressed := s.evr.suppressed.put code (Nat.min (2 ^ 32 - 1) (s.evr.suppressed.getD code 0 + 1)) } }

/-- The bucket of a code (R481). -/
def bucketOf (s : State) (code : Nat) : Bucket := s.evr.buckets.getD code { tokens := s.evr.burst, since := s.evr.time }

/-- A token leaves the bucket; from full, the refill period starts now (R481). -/
def takeToken (code : Nat) (s : State) : State :=
  let b := bucketOf s code
  { s with evr := { s.evr with buckets := s.evr.buckets.put code (
      { tokens := b.tokens - 1, since := if s.evr.burst ≤ b.tokens then s.now else b.since }) } }

/-- The SUPPRESSED record that stands before the next record of a code, when its count is not 0 (R482). -/
def suppressedBefore (s : State) (code : Nat) : Option Evt :=
  let n := s.evr.suppressed.getD code 0
  if n = 0 then none else some (mkEvt s 0x0004 1 0xFFFF (leBytes 4 code ++ leBytes 4 n))

/-- A record and the SUPPRESSED record before it enter the buffer. -/
def enterBoth (e : Evt) (s : State) : State :=
  match suppressedBefore s e.code with
  | none => enterEvt e s
  | some p => enterEvt e (enterEvt p { s with evr := { s.evr with suppressed := s.evr.suppressed.del e.code } })

/-- Records that the rate limit never touches (R481). -/
def unlimited (e : Evt) : Bool :=
  3 ≤ e.severity || e.backup || e.code = 0x0004 || e.code = 0x0003 || e.code = 0x0B01

/-- An occurrence reaches the recorder: the buffer check, then the rate limit (R479, R481, R482). -/
def recordEvt (e : Evt) (s : State) : State :=
  let extra := if (suppressedBefore s e.code).isSome then 1 else 0
  let n := s.evr.buffer.length
  if 3 ≤ e.severity then
    if n + extra < Config.evrBufferSize ∧ s.evr.waiting = [] then enterBoth e s
    else { s with evr := { s.evr with waiting := s.evr.waiting ++ [e] } }
  else if 480 ≤ n + extra then
    trouble 15 (bump Ctr.evrOverflows 1 (suppress e.code s))
  else if unlimited e then enterBoth e s
  else if (bucketOf s e.code).tokens = 0 then suppress e.code s
  else enterBoth e (takeToken e.code s)

/-- An event of a block: code, severity, function and detail (R489). -/
def event (code sev fn : Nat) (detail : Bytes) (s : State) : State := recordEvt (mkEvt s code sev fn detail) s

/-- `device-wide` in the FUNCTION field of a record. -/
def deviceWide : Nat := 0xFFFF

/-- Logs an error in a function's AER capability (R51). -/
def logAer (f : Nat) (a : Aer) (s : State) : State :=
  let l := s.pcie.aer.getD f []
  { s with pcie := { s.pcie with aer := s.pcie.aer.put f (if l.contains a then l else l ++ [a]) } }

/-! ### Writes to the CTL window (R10, R55, R474, R491, R498) -/

/-- The block of a CTL offset (R491); 18 for the unimplemented end. -/
def blockOf (off : Nat) : Nat :=
  if off < 0x40000 then off / 0x10000
  else if off < 0x80000 then 4
  else if off < 0x100000 then 5
  else if off < 0x700000 then off / 0x80000 + 4
  else 18

/-- A pair is discarded: GUARD_FAIL, the offset it named, the count and an event (R498, R500). -/
def guardFail (off : Nat) (s : State) : State :=
  event 0x0006 1 0 (leBytes 4 off)
    (trouble 0 { s with glb := { s.glb with failOffset := off, failCount := s.glb.failCount + 1 } })

/-- A PF write to a block discards the pair that is pending there (R498). -/
def dropPair (b : Nat) (s : State) : State :=
  match s.glb.pairs.get? b with
  | none => s
  | some p => guardFail p.1 { s with glb := { s.glb with pairs := s.glb.pairs.del b } }

/-- A configuration request is served, or completed with Request Retry Status while configuration is not answered yet
(R54). -/
def configReach (f : State → State) (s : State) : State :=
  if s.pcie.cfgRetry then (if s.pcie.perstHigh && s.pcie.link.isSome then emit .configRetry s else s) else f s

/-- A PF write at a CTL offset is taken: not before configuration is answered, not outside the GLB blocks before READY
(R55), and in SCRAPPED only in the LCS block, the GLB identity registers taking no write (R474). -/
def pfReach (off : Nat) (f : State → State) (s : State) : State :=
  let b := blockOf off
  if s.pcie.cfgRetry then s
  else if lc s = .scrapped then (if b = 16 then f s else s)
  else if !s.pcie.ready && 2 < b then trouble 2 s
  else f s

/-- A PF write reaches its register; a pair that is pending in its block is discarded (R498). -/
def pfWrite (off : Nat) (f : State → State) (s : State) : State := pfReach off (fun s => f (dropPair (blockOf off) s)) s

/-- A guarded pair that completes at a CTL offset: as a write, and it repairs the register's shadow (R499). -/
def pfGuarded (off : Nat) (f : State → State) (s : State) : State :=
  pfWrite off (fun s => f { s with tmp := { s.tmp with shadowBad := s.tmp.shadowBad.filter fun o => o != off } }) s

/-! ### Windows of time -/

/-- The stamps that lie within the last `w` ticks, the present one included. -/
def within (stamps : List Nat) (now w : Nat) : List Nat := stamps.filter fun t => now < t + w

/-- The tile at an index changed. -/
def updTile (t : Nat) (f : Tile → Tile) (s : State) : State := { s with til := { s.til with tiles := updAt s.til.tiles t f } }

/-- The seat `k` changed, where it exists. -/
def updSeat (k : Nat) (f : Seat → Seat) (s : State) : State := { s with seats := s.seats.upd k f }

/-- The ring context `c` changed, where it exists. -/
def updRing (c : Nat) (f : Ring → Ring) (s : State) : State := { s with ush := { s.ush with rings := s.ush.rings.upd c f } }

/-- The plan in force (R381, R389): none while NO_PLAN is live. -/
def activePlan (s : State) : Option Plan :=
  if s.stg.noPlan then none else if s.stg.active then s.stg.bankB else s.stg.bankA

def bankOf (s : State) (b : Bool) : Option Plan := if b then s.stg.bankB else s.stg.bankA

/-- The VFs offered: the lower of VF_OFFER and the overlay's maximum (R384, R396); none without a plan (R389). -/
def vfOffer (s : State) : Nat :=
  match activePlan s with
  | none => 0
  | some p => Nat.min p.vfOffer s.stg.overlayMax

/-- Total wings pages of the plan (R384). -/
def wingsTotal (s : State) : Nat :=
  match activePlan s with
  | none => 6144
  | some p => p.wingsPages

/-- PF_RINGS and MAX_LOG2 in force (R104). -/
def pfRings (s : State) : Nat := match activePlan s with | none => 64 | some p => p.pfRings
def maxLog2 (s : State) : Nat := match activePlan s with | none => 16 | some p => p.maxLog2

/-- The default quotas in force (R100, R389). -/
def quotaDefaults (s : State) : Tenant :=
  match activePlan s with
  | none => { rings := 0, seats := 0, pages := 0, slots := 0, units := 0, streams := 0, pollShare := 0, classes := 0 }
  | some p => p.quota

end Sys2Proof.Machine
end

