-- ==== Sys2Proof/Machine/Journal.lean ====
section
/-! DEFINITION. The records of the key-table journal as they stand in MRAM: their sizes, checks and trailers, and the headers of
its pages (R255). -/

namespace Sys2Proof.Machine

/-- CRC-32C over a string of bits, first bit first: the reflected polynomial, all ones at the start and inverted at the end,
PRESUMED as the CRC's own definition has it (assumption log 115). -/
def crc32cBits (bs : List Bool) : Nat :=
  let step (c : Nat) (b : Bool) : Nat :=
    let c := c ^^^ bnat b
    if c % 2 = 1 then (c / 2) ^^^ 0x82F63B78 else c / 2
  (bs.foldl step (2 ^ 32 - 1)) ^^^ (2 ^ 32 - 1)

/-- The lowest `n` bits of a number, bit 0 first. -/
def bitString (n v : Nat) : List Bool := (List.range n).map fun i => bit v i

/-- CRC-32C of bytes. -/
def crc32c (b : Bytes) : Nat := crc32cBits (bitString (8 * b.length) (leNat b))

/-- Bytes of a record (R255). -/
def JournalRecord.size : JournalRecord → Nat
  | .slotCommit _ _ => 16
  | .reservation _ _ _ c => 32 + c.length
  | .compact _ _ _ _ => 32
  | .parked _ _ => 32
  | .partitionErase _ => 32
  | .tenant _ _ => 64
  | .curve _ _ => 512

/-- A slot commit record: TYPE in [3:0], the slot index in [19:4], the directory entry in [114:20], and the low 13 bits of the
CRC-32C of those bits in [127:115]. -/
def slotCommitBytes (slot entry : Nat) : Bytes :=
  let v := 1 + fld slot 4 + fld entry 20
  leBytes 16 (v + fld (crc32cBits (bitString 115 v) % 2 ^ 13) 115)

/-- The trailer of every other record: CRC-32C of what precedes it, and the complement of the low 32 bits of its sequence
number. -/
def trailer (body : Bytes) (seq : Nat) : Bytes := leBytes 4 (crc32c body) ++ leBytes 4 (2 ^ 32 - 1 - seq % 2 ^ 32)

/-- The bytes of a record before its trailer. No rule places TYPE and the fields in them: their arrangement is free (assumption
log 115). -/
def JournalRecord.body (r : JournalRecord) : Bytes :=
  let fields : List Bytes := match r with
    | .slotCommit i e => [[0x1], leBytes 2 i, leBytes 12 e]
    | .reservation h b f c => [[0x2], leBytes 4 h, leBytes 8 b, leBytes 8 f, c]
    | .compact h b f p => [[0x3], leBytes 4 h, leBytes 8 b, leBytes 8 f, leBytes 4 p]
    | .parked h p => [[0x4], leBytes 4 h, leBytes 4 p]
    | .partitionErase f => [[0x5], leBytes 2 f]
    | .tenant f e => [[0x6], leBytes 2 f, e]
    | .curve i e => [[0x7], [byte i], e]
  Config.prim .journalBody fields (r.size - 8)

/-- A record with its check or trailer. -/
def JournalRecord.bytes (r : JournalRecord) (seq : Nat) : Bytes :=
  match r with
  | .slotCommit i e => slotCommitBytes i e
  | r => r.body ++ trailer r.body seq

/-- A record of MRAM is intact only when its check or trailer matches. -/
def recordIntact (b : Bytes) (seq : Nat) : Bool :=
  if b.length = 16 then
    let v := leNat b
    bits v 127 115 = crc32cBits (bitString 115 v) % 2 ^ 13
  else b.drop (b.length - 8) = trailer (b.take (b.length - 8)) seq

/-- Pages and the bytes of records in one, behind its header. -/
def journalPages : Nat := 512
def pageRoom : Nat := 4064

/-- The page, counted since manufacture, of a head position. -/
def journalPage (h : Nat) : Nat := h / pageRoom

/-- The header of a page, counted since manufacture: magic, the wrap count, and the sequence number of the first record that
begins in it. Bytes 16 to 31 are not named, and read zero (assumption log 115). -/
def pageHeader (journal : List (Nat × Nat × JournalRecord)) (page : Nat) : Bytes :=
  let first := match journal.find? fun r => journalPage r.1 = page with | some r => r.2.1 | none => 0
  leBytes 2 0x4A52 ++ [0] ++ leBytes 5 (page / journalPages) ++ leBytes 8 first ++ zeros 16

end Sys2Proof.Machine
end

