-- ==== Sys2Proof/Machine/Flags.lean ====
section
/-! DEFINITION. The live status registers as functions of the state, and the changes of them that raise event sources,
trouble bits and VF vector 2 after every command. -/

namespace Sys2Proof.Machine

/-! ### The usher: demand and stretch (R87, R108) -/

/-- A ring that counts toward D (R87): neither parked, halted nor stopped, its function in D0 with Bus Master Enable;
a quiescing VF's rings count as parked (R113). -/
def ringCounts (s : State) (r : Ring) : Bool :=
  r.interval != 0 && r.stop.isNone && !halted s r.owner && canMaster s r.owner && !quiescing s r.owner
    && !resetting s r.owner

/-- A rate of polls, exact: `num / den` polls per unit of 64 ns, that is 15,625,000 · `num / den` polls per second. -/
structure Rate where
  num : Nat
  den : Nat
  deriving DecidableEq, Repr

/-- The rate of one poll every `interval` units of 64 ns. -/
def rateOf (interval : Nat) : Rate := { num := 1, den := interval }

def Rate.add (a b : Rate) : Rate :=
  let d := Nat.lcm a.den b.den
  { num := a.num * (d / a.den) + b.num * (d / b.den), den := d }

def sumRates (l : List Rate) : Rate := l.foldl Rate.add { num := 0, den := 1 }

/-- Polls per second of a rate times its denominator. -/
def Rate.polls (a : Rate) : Nat := 15625000 * a.num

/-- The rate exceeds `n` polls per second. -/
def Rate.exceeds (a : Rate) (n : Nat) : Bool := n * a.den < a.polls

/-- INTERVAL times the rate over `n` polls per second, rounded up to a whole unit of 64 ns. -/
def Rate.scale (a : Rate) (interval n : Nat) : Nat := ceilDiv (interval * a.polls) (n * a.den)

/-- The poll share of a function in polls per second; 0 for none (R100, R104). -/
def shareOf (s : State) (f : Nat) : Nat :=
  match s.ten.table.get? f with
  | none => 0
  | some t => t.pollShare * 100000

/-- Df of R108. -/
def functionDemand (s : State) (f : Nat) : Rate :=
  sumRates ((s.ush.rings.filter fun r => r.2.owner = f && ringCounts s r.2).map fun r => rateOf r.2.interval)

/-- INTERVAL after the poll share (R108). -/
def sharedInterval (s : State) (r : Ring) : Nat :=
  let sf := shareOf s r.owner
  let df := functionDemand s r.owner
  if sf ≠ 0 && df.exceeds sf then df.scale r.interval sf else r.interval

/-- D of R87. -/
def demand (s : State) : Rate :=
  sumRates ((s.ush.rings.filter fun r => ringCounts s r.2).map fun r => rateOf (sharedInterval s r.2))

/-- B of R87 in polls per second: BUDGET counts millions. -/
def budget (s : State) : Nat := s.ush.budget * 1000000

def overBudget (s : State) : Bool := (demand s).exceeds (budget s)

/-- EFF_INTERVAL: the interval after the poll share and the stretch (R87, R96). -/
def effInterval (s : State) (r : Ring) : Nat :=
  if overBudget s then (demand s).scale (sharedInterval s r) (budget s) else sharedInterval s r

/-- USH_DEMAND.D and USH_STRETCH.FACTOR (R97), rounded down: R97 names no rounding (assumption log 108). -/
def ushDemand (s : State) : Nat := (demand s).polls / (demand s).den
def ushStretch (s : State) : Nat :=
  if overBudget s then (demand s).polls * 65536 / (budget s * (demand s).den) else 65536

def pfHalted (s : State) : Bool := halted s 0

/-- USH_STATUS (R97). -/
def ushStatus (s : State) : Nat := bnat (overBudget s) + fld (bnat (pfHalted s)) 1

/-! ### Tiles (R321, R329) -/

/-- An understudy is on its way into the position of a retired tile (R320). -/
def replacedSoon (s : State) (t : Tile) : Bool :=
  t.state = .retired && s.til.coming.any fun c => t.position = some c.2

/-- Tiles in service in a pool. -/
def poolTiles (s : State) (p : Nat) : List (Nat × Tile) :=
  ((List.range s.til.tiles.length).zip s.til.tiles).filter fun x => (x.2.state = .active || replacedSoon s x.2) && x.2.pool = p

/-- Pairs of a pool in half-pairs: a full-tile pair counts two, a half-tile pair one (R321). -/
def poolHalfPairs (s : State) (p : Nat) : Nat :=
  let ts := poolTiles s p
  let full := (ts.filter fun x => !x.2.split).length
  let half := (ts.filter fun x => x.2.split).length
  2 * (full / 2) + (if half ≤ 1 then 0 else half)

def poolCount (s : State) : Nat := match activePlan s with | none => 1 | some p => p.pools

def halfPairs (s : State) : Nat := sumOf ((List.range (poolCount s)).map (poolHalfPairs s))

def tileDegraded (s : State) : Bool := halfPairs s < 32
def poolEmpty (s : State) : Bool := (List.range (poolCount s)).any fun p => poolHalfPairs s p = 0
def understudies (s : State) : Nat :=
  (s.til.tiles.filter fun t => t.state = .understudy || t.state = .selfTest).length - s.til.coming.length
def retiredTiles (s : State) : Nat := (s.til.tiles.filter fun t => t.state = .retired).length

/-- TIL_STATUS (R329). -/
def tilStatus (s : State) : Nat :=
  halfPairs s / 2 + fld (understudies s) 6 + fld (bnat (tileDegraded s)) 8 + fld (bnat (poolEmpty s)) 9
    + fld (retiredTiles s) 16

/-! ### Random numbers (R283, R292, R299) -/

def SrcState.code : SrcState → Nat
  | .off => 0 | .startUp => 1 | .running => 2 | .restarting => 3 | .fatal => 4

def srcFatal (s : State) (i : Nat) : Bool :=
  match s.rng.srcs[i]? with
  | some x => x.state = .fatal
  | none => false

def oneSource (s : State) : Bool := srcFatal s 0 != srcFatal s 1
def bothFatal (s : State) : Bool := srcFatal s 0 && srcFatal s 1
def servingInsts (s : State) : List Nat :=
  (List.range s.rng.insts.length).filter fun i => match s.rng.insts[i]? with
    | some d => d.serving
    | none => false
def seeded (s : State) : Bool := servingInsts s != []

/-- RNG_STATUS (R299). -/
def rngStatus (s : State) : Nat :=
  let code (i : Nat) := match s.rng.srcs[i]? with | some x => x.state.code | none => 0
  code 0 + fld (code 1) 3 + fld (bnat (seeded s)) 6 + fld (bnat (oneSource s)) 7 + fld (bnat (bothFatal s)) 8
    + fld (bnat s.rng.katFail) 9 + fld (sumOf ((servingInsts s).map fun i => 2 ^ i)) 10
    + fld (bnat (s.rng.insts.any fun d => d.deferred)) 18

/-! ### Key table, scripts, plan, twin, recorder, life cycle, token bus -/

/-- The credit levels at the present MTICK, in tenths (R257). -/
def commitLevel (s : State) : Nat := Nat.min 81920 (s.keys.commitCredit + 9 * (s.now - s.keys.creditTick))
def unitLevel (s : State) : Nat := Nat.min 655360 (s.keys.unitCredit + 16 * (s.now - s.keys.creditTick))

/-- All three credits are available for a change that writes `n` units to slot `i`, if it names one. -/
def creditOk (s : State) (i : Option Nat) (n : Nat) : Bool :=
  10 ≤ commitLevel s && 10 * n ≤ unitLevel s
    && (match i with | none => true | some j => s.keys.slotReady.getD j 0 ≤ s.now)

/-- An operation waits for credit (R257). -/
def throttled (s : State) : Bool :=
  s.seats.any fun x => match x.2.credit with
    | none => false
    | some (i, n) => x.2.phase = .granted && !creditOk s i n

/-- KT_STATUS (R276). -/
def ktStatus (s : State) : Nat :=
  bnat s.keys.mkPresent + fld (bnat s.keys.replayDone) 1 + fld (bnat s.keys.overwriteBusy) 2
    + fld (bnat s.keys.liveness.isSome) 3 + fld (bnat (throttled s)) 4

/-- SCR_STATUS (R355). -/
def scrStatus (s : State) : Nat :=
  bnat s.scr.maker.isSome + fld (bnat s.scr.customer.isSome) 1 + fld (bnat s.scr.sceneChange) 2
    + fld (bnat ((s.scr.keys[0]?).getD none).isSome) 3 + fld (bnat ((s.scr.keys[1]?).getD none).isSome) 4

def intermission (s : State) : Bool := s.stg.switching = .intermission
def draining (s : State) : Bool := s.til.tiles.any fun t => t.next.isSome

/-- STG_STATUS (R397). -/
def stgStatus (s : State) : Nat :=
  bnat s.stg.active + fld (bnat s.stg.bankA.isSome) 1 + fld (bnat s.stg.bankB.isSome) 2 + fld (bnat s.stg.fallback) 3
    + fld (bnat s.stg.noPlan) 4 + fld (bnat (s.stg.switching != .idle)) 5 + fld (bnat (intermission s)) 6
    + fld (bnat (draining s)) 7 + fld (bnat (s.stg.loading != [])) 8

def TwinState.code : TwinState → Nat
  | .unpaired => 0 | .pairing => 1 | .present => 2 | .absent => 3 | .resending => 4 | .diverged => 5

/-- TWIN_ABSENT (R496): STATE 3, 4 or 5. -/
def twinAbsentLive (s : State) : Bool :=
  match s.twn.state with
  | .absent => true
  | .resending => true
  | .diverged => true
  | _ => false

def paired (s : State) : Bool := s.twn.record.isSome

/-- The device with the higher serial number is the odd device (R401). -/
def odd (s : State) : Bool := match s.twn.record with | some p => p.peer.ult s.otp.serial | none => false

/-- TWN_STATUS (R420). -/
def twnStatus (s : State) : Nat :=
  s.twn.state.code + fld (bnat s.twn.linkUp) 3 + fld (bnat s.twn.session) 4 + fld (bnat (odd s)) 5

/-- EVR_STATUS (R490). -/
def evrStatus (s : State) : Nat :=
  bnat (s.evr.flushing != 0) + fld (bnat (decide (Config.openingSize ≤ s.evr.opening.length))) 1
    + fld (bnat (decide (Config.historySize ≤ s.evr.history.length))) 2

/-- The wipe of entry into RETURN or SCRAPPED runs (R473). -/
def wipeBusy (s : State) : Bool := match s.lcs.transition with | .wiping t => decide (3 ≤ t) | _ => false

/-- LCS_STATE (R475). -/
def lcsState (s : State) : Nat :=
  (lc s).code + fld (if lc s = .locked then s.otp.pendingTarget else 0) 4 + fld (bnat s.lcs.unlocked) 8
    + fld (bnat (wipeBusy s)) 9 + fld (bnat s.lcs.challenge) 10

def Approval.code : Approval → Nat
  | .none => 0 | .open _ => 1 | .held _ => 2 | .reserved _ _ => 3

/-- TKB_STATUS.PRESENT, with TKB_CER_STATUS.STATE above it: what raises the TKB source (R443). -/
def tkbView (s : State) : Nat :=
  sumOf ((List.range 8).map fun i => match s.tkb.slots[i]? with
    | some t => if t.state = .identified || t.state = .faulty then 2 ^ i else 0
    | none => 0) + fld s.tkb.approval.code 8

/-- The debug TAPs are reachable (R466). -/
def debugOpen (s : State) : Bool :=
  match lc s with
  | .blank => true
  | .factory => true
  | .ret => s.lcs.unlocked
  | _ => false

/-- ZEROIZE_N asserted: channel 38 (R463). -/
def zeroize (s : State) : Bool := match s.tmp.mons[38]? with | some m => m.asserted | none => false

/-- GLB_LIVE (R496). -/
def glbLive (s : State) : Nat :=
  bnat s.pcie.ready + fld (bnat s.tmp.curtainDown) 1 + fld (bnat s.tmp.hold) 2 + fld (bnat (intermission s)) 3
    + fld (bnat (twinAbsentLive s)) 4 + fld (bnat (tileDegraded s)) 5 + fld (bnat (oneSource s)) 6
    + fld (bnat s.pcie.ptmLost) 7 + fld (bnat (overBudget s)) 8 + fld (bnat (bothFatal s)) 9
    + fld (bnat (poolEmpty s)) 10 + fld (bnat s.stg.noPlan) 11 + fld (bnat s.scr.sceneChange) 12
    + fld (bnat s.keys.overwriteBusy) 13 + fld (bnat (throttled s)) 14 + fld (bnat (pfHalted s)) 15
    + fld (bnat (zeroize s)) 16 + fld (bnat (wipeBusy s)) 17 + fld (bnat (decide (s.twn.state = .diverged))) 18
    + fld (bnat (debugOpen s)) 19

/-- VFC_LIVE of the VF that is function `f` (R47). -/
def vfcLive (s : State) (f : Nat) : Nat :=
  bnat s.pcie.ready + fld (bnat (fnExists s f && (s.ten.table.get? f).isSome)) 1 + fld (bnat (halted s f)) 2
    + fld (bnat (quiescing s f)) 3 + fld (bnat s.tmp.curtainDown) 4 + fld (bnat s.tmp.hold) 5
    + fld (bnat (intermission s)) 6 + fld (bnat (twinAbsentLive s)) 7 + fld (bnat (tileDegraded s)) 8
    + fld (bnat (oneSource s)) 9 + fld (bnat s.pcie.ptmLost) 10 + fld (bnat (overBudget s)) 11

/-- The trouble bits whose cause is a condition that may hold (R497). -/
def liveCauses (s : State) : Nat :=
  fld (bnat (s.pcie.vfEnable && !s.pcie.ari)) 3 + fld (bnat s.tmp.curtainDown) 4 + fld (bnat s.tmp.hold) 5
    + fld (bnat (twinAbsentLive s)) 6 + fld (bnat s.pcie.ptmLost) 9 + fld (bnat (overBudget s)) 10
    + fld (bnat s.stg.fallback) 11 + fld (bnat (s.ush.halted.any fun f => f != 0)) 17 + fld (bnat (pfHalted s)) 18

/-- Raises a source when a view changed. -/
def raiseIf (changed : Bool) (src : Nat) (s : State) : State := if changed then raise src s else s

/-- The VF signals of a change of VFC_LIVE (R62), and the source of its set (R504). -/
def settleVf (before : State) (f : Nat) (s : State) : State :=
  if fnExists before f then
    let a := vfcLive before f
    let b := vfcLive s f
    let s' := if a = b then s else signal f 2 s
    raiseIf (bit a 1 != bit b 1 || bit a 3 != bit b 3) (288 + (f - 1) / 16) s'
  else s

/-- SMBus alerts: READY lost, curtain dropped, and conditions that still hold (R64, R65). DESIGN CHOICE: bits 2 and 3 stand for
the events, so after an Alert Response Address read they stay clear while the curtain stays down or READY stays 0 (assumption
log 43). -/
def settleSmb (before s : State) : State :=
  let a := fld (bnat s.smb.hotCompute) 0 + fld (bnat s.smb.hotVault) 1
    + fld (bnat (!before.tmp.curtainDown && s.tmp.curtainDown)) 2 + fld (bnat (before.pcie.ready && !s.pcie.ready)) 3
    + fld (bnat (match s.tmp.mons[42]? with | some m => m.asserted | none => false)) 4
  if lc s = .scrapped then s else { s with smb := { s.smb with alerts := s.smb.alerts ||| BitVec.ofNat 32 a } }

/-- What every command ends with: the changes of live views since `before` raise their sources, and the trouble record
takes every cause that holds (R494, R503 to R505, R62). -/
def settle (before s : State) : State :=
  let s := { s with glb := { s.glb with trouble := s.glb.trouble ||| BitVec.ofNat 32 (liveCauses s) } }
  let s := raiseIf (decide ((s.glb.trouble &&& ~~~ before.glb.trouble) ≠ 0)) 0 s
  let s := raiseIf (glbLive before != glbLive s) 1 s
  let s := raiseIf (ushStatus before != ushStatus s) 2 s
  let s := raiseIf (ktStatus before != ktStatus s) 4 s
  let s := raiseIf (rngStatus before != rngStatus s) 5 s
  let s := raiseIf (tilStatus before != tilStatus s) 6 s
  let s := raiseIf (scrStatus before != scrStatus s) 7 s
  let s := raiseIf (stgStatus before != stgStatus s) 8 s
  let s := raiseIf (twnStatus before != twnStatus s) 9 s
  let s := raiseIf (evrStatus before != evrStatus s) 11 s
  let s := raiseIf (tkbView before != tkbView s) 12 s
  let s := raiseIf (lcsState before != lcsState s) 13 s
  let s := (List.range s.pcie.vfs).foldl (fun t i => settleVf before (i + 1) t) s
  settleSmb before s

/-- A command's effect as an outcome: neither the queue nor the fuses change. -/
def run (f : State → State) (s : State) : Host.Outcome State Fault Refusal :=
  .next { settle s (f s) with pending := s.pending, otp := s.otp }

/-- A life-cycle command's effect: the fuses become those that `g` gives, before the rest; the queue does not change. -/
def runOtp (g : State → Otp) (f : State → State) (s : State) : Host.Outcome State Fault Refusal :=
  .next { settle s (f { s with otp := g s }) with pending := s.pending, otp := g s }

end Sys2Proof.Machine
end

