-- ==== Sys2Proof/Machine/Operands.lean ====
section
/-! DEFINITION. The operand forms of every opcode: entry fields, parameter sets, accepted input lengths, output lengths,
argument masks, and what each opcode asks of its handles, of randomness and of hash cores. -/

namespace Sys2Proof

/-! ### Fields of an entry (R71) -/

def Entry.phase (e : Entry) : Bool := e.ctl.getLsbD 0
def Entry.batchEnd (e : Entry) : Bool := e.ctl.getLsbD 1
def Entry.fence (e : Entry) : Bool := e.ctl.getLsbD 2
def Entry.inlineIn (e : Entry) : Bool := e.ctl.getLsbD 3
def Entry.opc (e : Entry) : Nat := e.opcode.toNat % 4096
def Entry.len (e : Entry) : Nat := e.inLen.toNat
def Entry.ps (e : Entry) : Nat := e.paramSet.toNat
def Entry.cap (e : Entry) : Nat := e.outCap.toNat
/-- Byte `i` of OP_ARGS. -/
def Entry.arg (e : Entry) (i : Nat) : Nat := bits e.opArgs.toNat (8 * i + 7) (8 * i)
/-- Bit `b` of byte `i` of OP_ARGS. -/
def Entry.argBit (e : Entry) (i b : Nat) : Bool := bit e.opArgs.toNat (8 * i + b)
/-- Bytes `i` to `i + n - 1` of OP_ARGS, little-endian. -/
def Entry.argN (e : Entry) (i n : Nat) : Nat := bits e.opArgs.toNat (8 * (i + n) - 1) (8 * i)

/-- Bit 0 of FLAGS, and XOR_BYTE (R73). -/
def Fragment.isKey (f : Fragment) : Bool := f.flags.getLsbD 0
def Fragment.xorByte (f : Fragment) : Byte := byte (bits f.flags.toNat 15 8)
def Fragment.handle (f : Fragment) : Nat := f.address.toNat % 2 ^ 32

/-- A reserved bit of a fragment entry is set (R73, check 8 of R89). -/
def Fragment.reservedSet (f : Fragment) : Bool :=
  if f.isKey then bits f.address.toNat 63 32 != 0 || bits f.flags.toNat 7 1 != 0 || bits f.flags.toNat 31 16 != 0
  else bits f.flags.toNat 31 1 != 0

namespace Machine

/-! ### Parameter sets -/

/-- ML-KEM: ek, dk, ct (R126). -/
def mlKem : Nat → Option (Nat × Nat × Nat)
  | 0x0001 => some (800, 1632, 768)
  | 0x0002 => some (1184, 2400, 1088)
  | 0x0003 => some (1568, 3168, 1568)
  | _ => none

/-- ML-DSA: pk, sk, signature (R126). -/
def mlDsa : Nat → Option (Nat × Nat × Nat)
  | 0x0011 => some (1312, 2560, 2420)
  | 0x0012 => some (1952, 4032, 3309)
  | 0x0013 => some (2592, 4896, 4627)
  | _ => none

/-- Falcon: pk, sk, signature (R126). -/
def falcon : Nat → Option (Nat × Nat × Nat)
  | 0x0021 => some (897, 1281, 666)
  | 0x0022 => some (1793, 2305, 1280)
  | _ => none

/-- A hybrid set (R126, R150): public share, ciphertext, concatenated secret, its ML-KEM set, and its classical group as
the PARAM_SET of the group's own opcode. -/
structure Hybrid where
  pk : Nat
  ct : Nat
  secret : Nat
  kem : Nat
  group : Nat
  deriving DecidableEq, Repr

def hybrid : Nat → Option Hybrid
  | 0x0031 => some ⟨1216, 1120, 64, 0x0002, 0x0513⟩
  | 0x0032 => some ⟨1249, 1153, 64, 0x0002, 0x0501⟩
  | 0x0033 => some ⟨1624, 1624, 88, 0x0003, 0x0514⟩
  | 0x0034 => some ⟨1665, 1665, 80, 0x0003, 0x0502⟩
  | _ => none

/-- SLH-DSA: pk, sk, signature (R161). -/
def slhDsa (p : Nat) : Option (Nat × Nat × Nat) :=
  if p < 0x0101 ∨ 0x010C < p then none
  else match (p - 0x0101) / 2 with
    | 0 => some (32, 64, 7856)
    | 1 => some (32, 64, 17088)
    | 2 => some (48, 96, 16224)
    | 3 => some (48, 96, 35664)
    | 4 => some (64, 128, 29792)
    | _ => some (64, 128, 49856)

/-- Odd codes are the SHA2 sets, even codes the SHAKE sets (R161). -/
def slhShake (p : Nat) : Bool := p % 2 = 0

/-- Node length n of an HSS family (R162). -/
def hssN : Nat → Option Nat
  | 0x0201 => some 32
  | 0x0202 => some 24
  | 0x0203 => some 32
  | 0x0204 => some 24
  | _ => none

/-- Family index 0 to 3 of R184, from the code of R162 or R163. -/
def hssFam (p : Nat) : Nat := p - 0x0201

/-- Total height, layers and family of an XMSS or XMSS^MT code (R163). -/
def xmss (p : Nat) : Option (Nat × Nat × Nat) :=
  let fam := bits p 7 6
  match bits p 15 8, bits p 5 0 with
  | 3, 1 => some (10, 1, fam)
  | 3, 2 => some (16, 1, fam)
  | 3, 3 => some (20, 1, fam)
  | 4, 1 => some (20, 2, fam)
  | 4, 2 => some (20, 4, fam)
  | 4, 3 => some (40, 2, fam)
  | 4, 4 => some (40, 4, fam)
  | 4, 5 => some (40, 8, fam)
  | 4, 6 => some (60, 3, fam)
  | 4, 7 => some (60, 6, fam)
  | 4, 8 => some (60, 12, fam)
  | _, _ => none

/-- n of a family index. -/
def famN (f : Nat) : Nat := if f % 2 = 0 then 32 else 24
def famShake (f : Nat) : Bool := 2 ≤ f

/-- Per-leaf constant of an LMS level: family and width code 0 to 3 for W 1, 2, 4, 8 (R184). -/
def lmsConst (fam w : Nat) : Nat :=
  let row := match fam with
    | 0 => [800, 800, 1600, 12800]
    | 1 => [640, 640, 1280, 9600]
    | 2 => [2400, 2400, 4800, 38400]
    | _ => [1920, 1920, 3840, 28800]
  (row[w]?).getD 0

/-- Per-leaf constant of an XMSS family (R184). -/
def xmssConst : Nat → Nat
  | 0 => 8800 | 1 => 6720 | 2 => 13200 | _ => 10080

/-- Classic McEliece: public key, pages, private key, ciphertext (R188). -/
def mceliece (p : Nat) : Option (Nat × Nat × Nat × Nat) :=
  match if 0x0411 ≤ p then p - 0x10 else p with
  | 0x0401 => some (261120, 64, 6492, 96)
  | 0x0402 => some (524160, 128, 13608, 156)
  | 0x0403 => some (1044992, 256, 13932, 208)
  | 0x0404 => some (1047319, 256, 13948, 194)
  | 0x0405 => some (1357824, 332, 14120, 208)
  | _ => none

/-- The index 0 to 4 of a McEliece set, f or not. -/
def mceIndex (p : Nat) : Nat := p % 16 - 1

/-- HQC: public key, private key, ciphertext (R189). -/
def hqc : Nat → Option (Nat × Nat × Nat)
  | 0x0421 => some (2249, 2305, 4433)
  | 0x0422 => some (4522, 4578, 8978)
  | 0x0423 => some (7245, 7301, 14421)
  | _ => none

/-- Modulus bits of an RSA code (R205). -/
def rsaBits (p : Nat) : Option Nat := if 0x0540 ≤ p ∧ p ≤ 0x05A0 then some (64 * (p - 0x0520)) else none

/-- A short-Weierstrass curve as the opcodes use it. -/
structure Curve where
  p : Nat
  a : Nat
  b : Nat
  gx : Nat
  gy : Nat
  n : Nat
  h : Nat
  fb : Nat
  nb : Nat
  pbits : Nat
  nbits : Nat
  deriving DecidableEq, Repr

/-- A loaded curve's record (R214). -/
def curveOfRecord (r : Bytes) : Curve :=
  let pb := leAt r 0 2
  let nb := leAt r 2 2
  let big (i : Nat) := beNat (slice r (8 + 80 * i) 80)
  { p := big 0, a := big 1, b := big 2, gx := big 3, gy := big 4, n := big 5, h := leAt r 4 4, fb := ceilDiv pb 8,
    nb := ceilDiv nb 8, pbits := pb, nbits := nb }

/-! The built-in curves (R213): their numbers are those of FIPS 186-5 and, for secp256k1, of SEC 2, which the spec names and does
not print (PRESUMED, assumption log 110). -/

/-- P-256. -/
def p256 : Curve :=
  { p := 0xffffffff00000001000000000000000000000000ffffffffffffffffffffffff,
    a := 0xffffffff00000001000000000000000000000000fffffffffffffffffffffffc,
    b := 0x5ac635d8aa3a93e7b3ebbd55769886bc651d06b0cc53b0f63bce3c3e27d2604b,
    gx := 0x6b17d1f2e12c4247f8bce6e563a440f277037d812deb33a0f4a13945d898c296,
    gy := 0x4fe342e2fe1a7f9b8ee7eb4a7c0f9e162bce33576b315ececbb6406837bf51f5,
    n := 0xffffffff00000000ffffffffffffffffbce6faada7179e84f3b9cac2fc632551,
    h := 1, fb := 32, nb := 32, pbits := 256, nbits := 256 }

/-- P-384. -/
def p384 : Curve :=
  { p := 0xfffffffffffffffffffffffffffffffffffffffffffffffffffffffffffffffeffffffff0000000000000000ffffffff,
    a := 0xfffffffffffffffffffffffffffffffffffffffffffffffffffffffffffffffeffffffff0000000000000000fffffffc,
    b := 0xb3312fa7e23ee7e4988e056be3f82d19181d9c6efe8141120314088f5013875ac656398d8a2ed19d2a85c8edd3ec2aef,
    gx := 0xaa87ca22be8b05378eb1c71ef320ad746e1d3b628ba79b9859f741e082542a385502f25dbf55296c3a545e3872760ab7,
    gy := 0x3617de4a96262c6f5d9e98bf9292dc29f8f41dbd289a147ce9da3113b5f0b8c00a60b1ce1d7e819d7a431d7c90ea0e5f,
    n := 0xffffffffffffffffffffffffffffffffffffffffffffffffc7634d81f4372ddf581a0db248b0a77aecec196accc52973,
    h := 1, fb := 48, nb := 48, pbits := 384, nbits := 384 }

/-- P-521. -/
def p521 : Curve :=
  { p := 0x1ffffffffffffffffffffffffffffffffffffffffffffffffffffffffffffffffffffffffffffffffffffffffffffffffffffffffffffffffffffffffffffffffff,
    a := 0x1fffffffffffffffffffffffffffffffffffffffffffffffffffffffffffffffffffffffffffffffffffffffffffffffffffffffffffffffffffffffffffffffffc,
    b := 0x51953eb9618e1c9a1f929a21a0b68540eea2da725b99b315f3b8b489918ef109e156193951ec7e937b1652c0bd3bb1bf073573df883d2c34f1ef451fd46b503f00,
    gx := 0xc6858e06b70404e9cd9e3ecb662395b4429c648139053fb521f828af606b4d3dbaa14b5e77efe75928fe1dc127a2ffa8de3348b3c1856a429bf97e7e31c2e5bd66,
    gy := 0x11839296a789a3bc0045c8a5fb42c7d1bd998f54449579b446817afbd17273e662c97ee72995ef42640c550b9013fad0761353c7086a272c24088be94769fd16650,
    n := 0x1fffffffffffffffffffffffffffffffffffffffffffffffffffffffffffffffffa51868783bf2f966b7fcc0148f709a5d03bb5c9b8899c47aebb6fb71e91386409,
    h := 1, fb := 66, nb := 66, pbits := 521, nbits := 521 }

/-- secp256k1. -/
def secp256k1 : Curve :=
  { p := 0xfffffffffffffffffffffffffffffffffffffffffffffffffffffffefffffc2f,
    a := 0x0,
    b := 0x7,
    gx := 0x79be667ef9dcbbac55a06295ce870b07029bfcdb2dce28d959f2815b16f81798,
    gy := 0x483ada7726a3c4655da4fbfc0e1108a8fd17b448a68554199c47d08ffb10d4b8,
    n := 0xfffffffffffffffffffffffffffffffebaaedce6af48a03bbfd25e8cd0364141,
    h := 1, fb := 32, nb := 32, pbits := 256, nbits := 256 }

/-- An empty loaded slot: P_BITS and N_BITS are taken as 64 (R205). -/
def emptyCurve : Curve :=
  { p := 0, a := 0, b := 0, gx := 0, gy := 0, n := 0, h := 1, fb := 8, nb := 8, pbits := 64, nbits := 64 }

def loadedSlot (p : Nat) : Option Nat := if 0x05C0 ≤ p ∧ p ≤ 0x05FF then some (p - 0x05C0) else none

/-- The curve of a PARAM_SET (R205). -/
def curveOf (s : State) (p : Nat) : Option Curve :=
  match p with
  | 0x0501 => some p256
  | 0x0502 => some p384
  | 0x0503 => some p521
  | 0x0504 => some secp256k1
  | _ => match loadedSlot p with
    | none => none
    | some k => some (match s.keys.curves.get? k with | some r => curveOfRecord r | none => emptyCurve)

/-- A PARAM_SET that names an empty loaded curve slot (R205). -/
def curveEmpty (s : State) (p : Nat) : Bool :=
  match loadedSlot p with
  | none => false
  | some k => (s.keys.curves.get? k).isNone

/-- Length of an EdDSA key (R205); its signature is twice as long. -/
def eddsa : Nat → Option Nat
  | 0x0511 => some 32
  | 0x0512 => some 57
  | _ => none

/-- Length of an X25519 or X448 value. -/
def xLen : Nat → Option Nat
  | 0x0513 => some 32
  | 0x0514 => some 56
  | _ => none

/-- Digest lengths of PH_ALG and HASH codes (R143). -/
def phLen : Nat → Option Nat
  | 1 => some 32 | 2 => some 48 | 3 => some 64 | 4 => some 32 | 5 => some 32 | 6 => some 48 | 7 => some 64
  | 8 => some 32 | 9 => some 64
  | _ => none

/-- Message limit in bytes (R229). -/
def digestLimit (a : Nat) : Nat := if a ≤ 0x0602 then 2 ^ 61 - 1 else 2 ^ 64 - 1

/-! ### The opcodes -/

/-- Management opcodes (R387: 0x000 to 0x0FF). -/
def isManagement (o : Nat) : Bool := o < 0x100

/-- The opcodes the default plan binds (R387). -/
def boundOpcodes : List Nat :=
  [0x010, 0x011, 0x012, 0x014, 0x015, 0x020, 0x030, 0x031, 0x032, 0x040, 0x050, 0x051, 0x052, 0x060, 0x061, 0x070,
   0x078] ++
  [0x100, 0x101, 0x102, 0x103, 0x104, 0x105, 0x106, 0x107] ++
  [0x200, 0x201, 0x202, 0x210, 0x211, 0x212, 0x213, 0x214, 0x220, 0x221, 0x222, 0x230, 0x231, 0x232] ++
  [0x300, 0x301, 0x302, 0x303, 0x304, 0x310, 0x311, 0x312, 0x313, 0x320, 0x321, 0x322, 0x323] ++
  [0x400, 0x401, 0x402, 0x403, 0x410, 0x411, 0x412] ++
  [0x500, 0x501, 0x502, 0x510, 0x511, 0x512, 0x513, 0x520, 0x521, 0x522, 0x528, 0x529] ++
  [0x600, 0x601, 0x602, 0x603, 0x604, 0x605, 0x606, 0x610] ++
  [0x700, 0x780, 0x781, 0x782, 0x788]

/-- Raw arithmetic commands (R204, R224). -/
def isRaw (o : Nat) : Bool := 0x780 ≤ o && o ≤ 0x788

/-- Digest opcodes (R228). -/
def isDigest (o : Nat) : Bool := 0x600 ≤ o && o ≤ 0x610

/-- Customer opcodes (R353). -/
def isCustomer (o : Nat) : Bool := 0x800 ≤ o

/-- Key generation: opcodes that place a key drawn inside, with the OP_ARGS of R132. -/
def isKeygen (o : Nat) : Bool :=
  [0x200, 0x210, 0x220, 0x230, 0x300, 0x310, 0x320, 0x400, 0x410, 0x500, 0x510, 0x520].contains o

/-- DEPOSIT of an operation that may deposit its secret (R134, R151, R199, R219, R221). -/
def deposits (e : Entry) : Bool :=
  if [0x201, 0x202, 0x231, 0x232, 0x401, 0x402, 0x411, 0x412, 0x513].contains e.opc then e.argBit 0 0
  else if e.opc = 0x528 ∨ e.opc = 0x529 then e.arg 0 = 1 && e.argBit 1 0
  else false

/-- DEP_EXPORTABLE. -/
def depExportable (e : Entry) : Bool :=
  if e.opc = 0x528 ∨ e.opc = 0x529 then e.argBit 1 1 else e.argBit 0 1

/-- SEALED of a keygen (R132) and of a decapsulation (R135). -/
def sealedForm (e : Entry) : Bool :=
  if e.opc = 0x200 ∨ e.opc = 0x230 then e.argBit 1 1
  else if e.opc = 0x202 ∨ e.opc = 0x232 then e.argBit 0 3
  else false

/-- The OP_ARGS bits that an opcode names; every other bit is its reserved mask (R72). -/
def argsAllowed (o : Nat) : Nat :=
  match o with
  | 0x012 => 0xFFFF
  | 0x014 => 0x1FFFF
  | 0x015 => 0x1FFFF
  | 0x020 => 0xFFFF000F077F
  | 0x030 => 0x1
  | 0x031 => 0x101
  | 0x032 => 0xFFFF
  | 0x040 => 0x1FF
  | 0x050 => 0xFFFFFFFFFFFFFFFF00000000000000FF
  | 0x052 => 0xFFFFFFFFFFFFFFFF00000000000000FF
  | 0x051 => 0x1FFFF
  | 0x060 => 0x3FFFFFFFFFFFF
  | 0x061 => 0x1
  | 0x070 => 0xFF
  | 0x078 => 0xFFFF000003FF
  | 0x100 => 0xFFFF017F
  | 0x103 => 0xFFFF017F
  | 0x101 => 0x17F
  | 0x105 => 0x1
  | 0x107 => 0xFFFFFFFFFFFF00FF
  | 0x200 => 0x344
  | 0x230 => 0x344
  | 0x210 => 0x143
  | 0x220 => 0x143
  | 0x300 => 0x143
  | 0x201 => 0x3
  | 0x202 => 0xB
  | 0x231 => 0x7
  | 0x232 => 0xF
  | 0x211 => 0x1FF
  | 0x212 => 0xFF
  | 0x213 => 0xFF01FF
  | 0x214 => 0xFF00FF
  | 0x301 => 0x1FF
  | 0x302 => 0xFF
  | 0x303 => 0xFF01FF
  | 0x304 => 0xFF00FF
  | 0x222 => 0xFFFF
  | 0x310 => 0xFFFFFFFFFFFFFFFFFF0003
  | 0x320 => 0x3
  | 0x312 => 0xFFFFFFFF
  | 0x322 => 0xFFFFFFFF
  | 0x400 => 0x144
  | 0x410 => 0x144
  | 0x401 => 0x3
  | 0x402 => 0x3
  | 0x411 => 0x3
  | 0x412 => 0x3
  | 0x403 => 0x1
  | 0x500 => 0x147
  | 0x501 => 0xFFFFFFFF00FFFFFF
  | 0x502 => 0xFFFFFFFF00FFFFFF
  | 0x510 => 0x14B
  | 0x511 => 0xFF01
  | 0x513 => 0x3
  | 0x520 => 0x103
  | 0x521 => 0xFFFF
  | 0x522 => 0xFFFF
  | 0x528 => 0x3FF
  | 0x529 => 0x3FF
  | 0x602 => 0xFFFFFFFF
  | 0x603 => 0x1FFFFFFFF
  | 0x610 => 0xFFFFFFFF
  | 0x700 => 0xFFFFFFFF
  | 0x781 => 0xFFFF
  | _ => 0

/-! ### Script headers of a customer image (R346 to R348) -/

/-- The header at an offset of an image. -/
def headerAt (img : Bytes) (o : Nat) : Header :=
  let at_ (i n : Nat) := leAt img (o + i) n
  { opcode := at_ 2 2, entry := at_ 4 2, width := at_ 6 1, flags := at_ 8 4, keccak := at_ 12 1, sha2 := at_ 13 1,
    usageKey := at_ 14 1, usageAux := at_ 15 1, scratch := at_ 16 4, defaultUnits := at_ 20 4, argsMask := at_ 24 16,
    lenSel := at_ 40 4, footprint := (List.range 4).map fun i => (at_ (48 + 4 * i) 2, at_ (50 + 4 * i) 2),
    rows := (List.range (at_ 7 1)).map fun i => slice img (o + 64 + 64 * i) 64 }

/-- The headers of an image, from its first (at 64) on. -/
def headersFrom (img : Bytes) : Nat → Nat → List Header
  | 0, _ => []
  | n + 1, o =>
    let h := headerAt img o
    h :: headersFrom img n (o + 64 + 64 * h.rows.length)

def imageHeaders (img : Bytes) : List Header := headersFrom img (leAt img 16 2) 64

/-- The header that an opcode and a vector width select. -/
def findHeader (img : Bytes) (o width : Nat) : Option Header :=
  (imageHeaders img).find? fun h => h.opcode = o && h.width = width

/-- A customer opcode's header, of either width, in a plan's image (R353). -/
def customerHeader (p : Plan) (o width : Nat) : Option Header :=
  match p.customer with
  | none => none
  | some i => findHeader i.bytes o width

/-- The row index and the row of a PARAM_SET (R347). -/
def headerRow (h : Header) (ps : Nat) : Option (Nat × Bytes) :=
  ((List.range h.rows.length).zip h.rows).find? fun r => leAt r.2 0 2 = ps

/-- The headers of a customer opcode in the plan in force, the full width first; a seat keeps those of its admission
(R24). -/
def entryHeaders (s : State) (o : Nat) : List Header :=
  match activePlan s with
  | none => []
  | some p => if isCustomer o then (customerHeader p o 0).toList ++ (customerHeader p o 1).toList else []

/-- The header an entry of a customer opcode is checked by, of the full width unless only the half one exists. -/
def entryHeader (s : State) (o : Nat) : Option Header := (entryHeaders s o).head?

/-! ### Handles -/

/-- The slot of a handle, when it names an occupied slot at its present generation (R246, check 7 of R93). -/
def slotOf (s : State) (h : Nat) : Option (Nat × Slot) :=
  match s.keys.slots.get? (h % 65536) with
  | none => none
  | some x => if x.occupied && x.gen = h / 65536 then some (h % 65536, x) else none

/-- The open stream of a handle (R231, R232). -/
def streamOf (s : State) (h : Nat) : Option (Nat × Stream) :=
  let i := h % 16384
  if bits h 15 14 != 0 then none
  else match s.dig.streams.get? i with
    | none => none
    | some x => if s.dig.gens.getD i 1 = h / 65536 then some (i, x) else none

/-- What a handle field is to an opcode. -/
inductive HandleUse where
  /-- not a handle: a non-zero value completes with E_INVALID_INPUT (R532) -/
  | unused
  /-- a slot with the usage bits given (0 for any) -/
  | slot (usage : Nat)
  | stream
  deriving DecidableEq, Repr

/-- KEY_HANDLE of an entry (R125, R160, R187, R204, R228, R260); `h` is the header of a customer opcode. -/
def keyUse (h : Option Header) (e : Entry) : HandleUse :=
  match e.opc with
  | 0x101 => .slot 0x20
  | 0x102 => .slot 0x40
  | 0x103 => .slot 0x08
  | 0x104 => .slot 0
  | 0x105 => if e.argBit 0 0 then .unused else .slot 0
  | 0x106 => .slot 0
  | 0x107 => if e.arg 0 = 0 then .slot 0 else .unused
  | 0x201 => .slot 0
  | 0x231 => .slot 0
  | 0x202 => if sealedForm e then .unused else .slot 0x04
  | 0x232 => if sealedForm e then .unused else .slot 0x04
  | 0x211 => .slot 0x01
  | 0x213 => .slot 0x01
  | 0x221 => .slot 0x01
  | 0x212 => .slot 0x02
  | 0x214 => .slot 0x02
  | 0x222 => .slot 0x02
  | 0x301 => .slot 0x01
  | 0x303 => .slot 0x01
  | 0x302 => .slot 0x02
  | 0x304 => .slot 0x02
  | 0x311 => .slot 0x01
  | 0x312 => .slot 0x02
  | 0x313 => .slot 0x01
  | 0x321 => .slot 0x01
  | 0x322 => .slot 0x02
  | 0x323 => .slot 0x01
  | 0x401 => .slot 0
  | 0x402 => .slot 0x04
  | 0x403 => .slot 0
  | 0x411 => .slot 0
  | 0x412 => .slot 0x04
  | 0x501 => .slot (if e.arg 0 = 1 ∨ e.arg 0 = 2 then 0x01 else if e.arg 0 ≤ 4 then 0x04 else 0)
  | 0x502 => .slot 0x02
  | 0x511 => .slot 0x01
  | 0x512 => .slot 0x02
  | 0x513 => .slot 0x08
  | 0x521 => .slot 0x01
  | 0x522 => .slot 0x02
  | 0x528 => if e.arg 0 = 0 then .unused else .slot (if e.arg 0 = 1 then 0x08 else 0)
  | 0x529 => if e.arg 0 = 0 then .unused else .slot (if e.arg 0 = 1 then 0x08 else 0)
  | o => if isCustomer o then (match h with | some h => .slot h.usageKey | none => .unused) else .unused

/-- AUX_HANDLE of an entry: a slot to replace (R133), the wrapping key (R264), or a stream (R228). -/
def auxUse (h : Option Header) (e : Entry) : HandleUse :=
  if isKeygen e.opc then (if sealedForm e then .unused else .slot 0)
  else match e.opc with
    | 0x020 => .slot 0
    | 0x100 => .slot 0
    | 0x101 => .slot 0
    | 0x103 => .slot 0
    | 0x102 => .slot 0x10
    | 0x528 => if e.arg 0 = 0 ∨ deposits e then .slot 0 else .unused
    | 0x529 => if e.arg 0 = 0 ∨ deposits e then .slot 0 else .unused
    | 0x601 => .stream
    | 0x602 => .stream
    | 0x603 => .stream
    | 0x604 => .stream
    | 0x606 => .stream
    | o => if isCustomer o then (match h with | some h => .slot h.usageAux | none => .unused)
      else if deposits e then .slot 0 else .unused

/-- Opcodes whose header sets KEY_FRAG (R94). -/
def acceptsKeyFrag (o : Nat) : Bool := [0x600, 0x601, 0x602, 0x610].contains o

/-- The operation creates or replaces a key whose slot AUX_HANDLE selects. -/
def createsKey (e : Entry) : Bool :=
  (isKeygen e.opc && !sealedForm e) || [0x020, 0x100, 0x101, 0x103].contains e.opc || deposits e
    || ((e.opc = 0x528 || e.opc = 0x529) && e.arg 0 = 0)

/-- Opcodes beside key generation that use a secret key, whatever their mode (R93, R275). -/
def secretOpcodes : List Nat :=
  [0x020, 0x050, 0x052, 0x100, 0x101, 0x102, 0x103, 0x202, 0x211, 0x213, 0x221, 0x232, 0x301, 0x303, 0x311, 0x321,
   0x402, 0x403, 0x412, 0x501, 0x511, 0x513, 0x521, 0x528, 0x529]

/-- FLAGS of a header of the maker image: Falcon signing is shuffled and not masked, every other operation on secret
material, and every raw command, is masked; KEY_FRAG stands at the digest opcodes of R94. The other bits are the image's own
(R5, R94, R148, R224, R346). -/
def makerFlags (o own : Nat) : Nat :=
  let fixed (i : Nat) (v : Bool) (n : Nat) : Nat := if bit n i = v then n else if v then n + 2 ^ i else n - 2 ^ i
  let secret := isKeygen o || secretOpcodes.contains o || o = 0x105 || isRaw o
  let n := fixed 5 (acceptsKeyFrag o) own
  if o = 0x221 then fixed 7 true (fixed 0 false n) else if secret then fixed 0 true n else n

/-- The header of an opcode and a vector width in the built-in maker image. -/
def makerHeader (o width : Nat) : Header :=
  let h := headerAt (Config.makerHeader o width) 0
  { h with opcode := o, width := width, flags := makerFlags o h.flags }

/-- "Secret key used" for checks 2 and 3 of R93. -/
def usesSecret (s : State) (h : Option Header) (e : Entry) (fs : List Fragment) : Bool :=
  if isDigest e.opc then
    fs.any Fragment.isKey || (match auxUse h e with
      | .stream => (match streamOf s e.auxHandle.toNat with | some x => x.2.keyed | none => false)
      | _ => false)
  else if isCustomer e.opc then (match h with | some h => bit h.flags 1 | none => false)
  else isKeygen e.opc || (e.opc = 0x105 && !e.argBit 0 0)
    || secretOpcodes.contains e.opc

/-- The operation draws DRBG output (R292, and the family chapters). OP_CURVE_LOAD draws none: whether the random bases of its
tests are DRBG output, no rule says (DESIGN CHOICE, log 117; R215). -/
def drawsDrbg (s : State) (h : Option Header) (e : Entry) : Bool :=
  if isCustomer e.opc then (match h with | some h => bit h.flags 6 | none => false)
  else if isKeygen e.opc then true
  else match e.opc with
    | 0x211 => !e.argBit 1 0
    | 0x213 => !e.argBit 1 0
    | 0x301 => !e.argBit 1 0
    | 0x303 => !e.argBit 1 0
    | 0x511 => !e.argBit 0 0
    | 0x502 => e.arg 0 = 3 || e.arg 0 = 4
    | 0x528 => e.arg 0 = 0
    | 0x529 => e.arg 0 = 0
    | 0x105 => !e.argBit 0 0
    | 0x604 => (match streamOf s e.auxHandle.toNat with | some x => x.2.keyed | none => false)
    | o => [0x050, 0x052, 0x100, 0x201, 0x231, 0x221, 0x311, 0x401, 0x411, 0x501, 0x700].contains o

/-- The operation needs mask seeds: it touches secret material, or is a raw command (R311, R224). The key-table opcodes end with
E_ENTROPY only for want of DRBG output (R275). -/
def needsMasks (s : State) (h : Option Header) (e : Entry) (fs : List Fragment) : Bool :=
  0x200 ≤ e.opc && !isDigest e.opc && (usesSecret s h e fs || isRaw e.opc)

/-! ### Check 4: PARAM_SET -/

/-- The heights and width codes that the level descriptors of 0x310 give (R172). -/
def hssLevels (e : Entry) : List (Nat × Nat) :=
  (List.range (Nat.min (e.arg 2) 8)).map fun i => (bits (e.arg (3 + i)) 3 0, bits (e.arg (3 + i)) 7 4)

def hssHeights (e : Entry) : List Nat := (hssLevels e).map fun l => 5 * l.1
/-- A level's constant as a key keeps it: the per-leaf interval of R184 times 16, plus the Winternitz width. -/
def packConst (interval width : Nat) : Nat := 16 * interval + width
/-- The per-leaf interval of a kept constant. -/
def leafInterval (c : Nat) : Nat := c / 16
def hssConsts (e : Entry) : List Nat := (hssLevels e).map fun l => packConst (lmsConst (hssFam e.ps) l.2) (2 ^ l.2)

/-- Keygen interval of a stateful key (R185). -/
def statefulKeygen (heights consts : List Nat) : Nat :=
  8000 + sumOf ((heights.zip consts).map fun x => 2 ^ x.1 * leafInterval x.2)

/-- Heights and constants of an XMSS code: `d` layers of h/d. -/
def xmssShape (p : Nat) : List Nat × List Nat :=
  match xmss p with
  | none => ([], [])
  | some (h, d, f) => (List.replicate d (h / d), List.replicate d (packConst (xmssConst f) 4))

/-- Check 4 for HSS keygen (R172). -/
def hssParamOk (e : Entry) : Bool :=
  let ls := hssLevels e
  (hssN e.ps).isSome && 1 ≤ e.arg 2 && e.arg 2 ≤ 8
    && ls.all (fun l => 1 ≤ l.1 && l.1 ≤ 5 && l.2 ≤ 3)
    && (List.range 8).all (fun i => i < e.arg 2 || e.arg (3 + i) = 0)
    && sumOf (hssHeights e) ≤ 64 && statefulKeygen (hssHeights e) (hssConsts e) ≤ 2 ^ 32 - 1

/-- The codes that the chapter of a key family defines for a key (R262). -/
def familyParam (fam p : Nat) : Bool :=
  match fam with
  | 1 => (mlKem p).isSome
  | 2 => (mlDsa p).isSome
  | 3 => (falcon p).isSome
  | 4 => (hybrid p).isSome
  | 5 => (slhDsa p).isSome
  | 6 => (hssN p).isSome
  | 7 => (xmss p).isSome
  | 8 => (mceliece p).isSome
  | 9 => (hqc p).isSome
  | 10 => (rsaBits p).isSome
  | 11 => (0x0501 ≤ p && p ≤ 0x0504) || (loadedSlot p).isSome
  | 12 => (eddsa p).isSome
  | 13 => (xLen p).isSome
  | 14 => 0x0F01 ≤ p && p ≤ 0x0F03
  | _ => false

/-- Check 4 of R93: PARAM_SET is defined for the opcode. -/
def paramOk (s : State) (e : Entry) : Bool :=
  let p := e.ps
  match e.opc with
  | 0x020 => familyParam (bits (e.arg 2) 3 0) p
  | 0x100 => p = 0x0F01 || p = 0x0F02
  | 0x103 => p = 0x0F01 || p = 0x0F02
  | 0x310 => hssParamOk e
  | 0x320 => (xmss p).isSome && statefulKeygen (xmssShape p).1 (xmssShape p).2 ≤ 2 ^ 32 - 1
  | 0x528 => p = 0x0513
  | 0x529 => p = 0x0514
  | 0x600 => (digestAlg p).isSome
  | 0x610 => (digestAlg p).isSome
  | 0x788 => familyParam 11 p
  | o =>
    if isCustomer o then (match entryHeader s o with | some h => (headerRow h p).isSome | none => false)
    else if 0x200 ≤ o ∧ o ≤ 0x202 then familyParam 1 p
    else if 0x210 ≤ o ∧ o ≤ 0x214 then familyParam 2 p
    else if 0x220 ≤ o ∧ o ≤ 0x222 then familyParam 3 p
    else if 0x230 ≤ o ∧ o ≤ 0x232 then familyParam 4 p
    else if 0x300 ≤ o ∧ o ≤ 0x304 then familyParam 5 p
    else if 0x311 ≤ o ∧ o ≤ 0x313 then familyParam 6 p
    else if 0x321 ≤ o ∧ o ≤ 0x323 then familyParam 7 p
    else if 0x400 ≤ o ∧ o ≤ 0x403 then familyParam 8 p
    else if 0x410 ≤ o ∧ o ≤ 0x412 then familyParam 9 p
    else if 0x500 ≤ o ∧ o ≤ 0x502 then familyParam 10 p
    else if 0x510 ≤ o ∧ o ≤ 0x513 then familyParam 11 p
    else if 0x520 ≤ o ∧ o ≤ 0x522 then familyParam 12 p
    else if 0x780 ≤ o ∧ o ≤ 0x782 then 1 ≤ p && p ≤ 0x80
    else p = 0

/-! ### Material lengths of a key (R127, R165, R173, R190, R206, R217, R261, R262) -/

/-- The length of a key's encoding in a form, when the family chapter fixes one. FORM: 0 seed, 1 expanded private,
2 public only, 3 secret byte string. -/
def formLen (s : State) (fam p form : Nat) : Option Nat :=
  match fam, form with
  | 1, 0 => (mlKem p).map fun _ => 64
  | 1, 1 => (mlKem p).map fun x => x.2.1
  | 1, 2 => (mlKem p).map fun x => x.1
  | 2, 0 => (mlDsa p).map fun _ => 32
  | 2, 1 => (mlDsa p).map fun x => x.2.1
  | 2, 2 => (mlDsa p).map fun x => x.1
  | 3, 1 => (falcon p).map fun x => x.2.1 + x.1
  | 3, 2 => (falcon p).map fun x => x.1
  | 4, 0 => (hybrid p).map fun _ => 128
  | 4, 2 => (hybrid p).map fun x => x.pk
  | 5, 1 => (slhDsa p).map fun x => x.2.1
  | 5, 2 => (slhDsa p).map fun x => x.1
  | 6, 2 => (hssN p).map fun n => 28 + n
  | 7, 2 => (xmss p).map fun x => 4 + 2 * famN x.2.2
  | 8, 0 => (mceliece p).map fun _ => 40
  | 8, 1 => (mceliece p).map fun x => x.2.2.1
  | 8, 2 => (mceliece p).map fun x => x.1
  | 9, 0 => (hqc p).map fun _ => 96
  | 9, 1 => (hqc p).map fun x => x.2.1
  | 9, 2 => (hqc p).map fun x => x.1
  | 10, 1 => (rsaBits p).map fun l => 7 * l / 16 + 32
  | 10, 2 => (rsaBits p).map fun l => l / 8 + 32
  | 11, 1 => (curveOf s p).map fun c => c.nb + 1 + 2 * c.fb
  | 11, 2 => (curveOf s p).map fun c => 1 + 2 * c.fb
  | 12, 1 => (eddsa p).map fun n => 2 * n
  | 12, 2 => (eddsa p).map fun n => n
  | 13, 1 => (xLen p).map fun n => 2 * n
  | _, _ => none

/-- The form that a private key of a family takes (R127, R249): the standard's private encoding is form 1, a seed
form 0, a secret form 3. -/
def familyDefinesForm (s : State) (fam p form : Nat) : Bool :=
  if fam = 14 then form = 3
  else if (fam = 6 ∨ fam = 7) ∧ form ≤ 1 then true
  else (formLen s fam p form).isSome

/-- IN_LEN of OP_KEY_WRITE_CLEAR (R262). -/
def writeClearLenOk (s : State) (e : Entry) : Bool :=
  let fam := bits (e.arg 2) 3 0
  let form := bits (e.arg 1) 2 1
  if fam = 14 ∧ form = 3 then
    match e.ps with
    | 0x0F01 => 16 ≤ e.len && e.len ≤ 256
    | 0x0F02 => e.len = 32
    | _ => [32, 64, 80, 88].contains e.len
  else match formLen s fam e.ps form with
    | some n => e.len = n
    | none => true

/-! ### Check 5: IN_LEN -/

/-- Length of a host public key: present only when KEY_HANDLE is 0. -/
def hostKey (e : Entry) (n : Nat) : Nat := if e.keyHandle = 0 then n else 0

/-- A message of up to 65,536 bytes follows `n` fixed bytes. -/
def withMessage (e : Entry) (n : Nat) : Bool := n ≤ e.len && e.len ≤ n + 65536

/-- The message part is PH(M) (R141, R143). -/
def withDigest (e : Entry) (n alg : Nat) : Bool :=
  match phLen alg with
  | some d => e.len = n + d
  | none => [32, 48, 64].any fun d => e.len = n + d

/-- The hash of RSA modes 1, 2 and 4 (R209). -/
def rsaHash (e : Entry) : Option Nat := if 1 ≤ e.arg 1 ∧ e.arg 1 ≤ 7 then phLen (e.arg 1) else none

/-- Lengths of an RSA private operation in a mode (R210). -/
def rsaPrivateLen (e : Entry) (l mode : Nat) : Bool :=
  match mode with
  | 0 => e.len = l / 8
  | 1 => (match rsaHash e with | some h => e.len = h | none => [32, 48, 64].contains e.len)
  | 2 => (match rsaHash e with | some h => e.len = h | none => [32, 48, 64].contains e.len)
  | 3 => e.len = l / 8
  | _ => e.len = e.argN 6 2 + l / 8

/-- Lengths of an RSA public operation in a mode (R210). -/
def rsaPublicLen (e : Entry) (l mode : Nat) : Bool :=
  let pk := hostKey e (l / 8 + 32)
  match mode with
  | 0 => e.len = pk + l / 8
  | 1 => (match rsaHash e with
    | some h => e.len = pk + l / 8 + h
    | none => [32, 48, 64].any fun h => e.len = pk + l / 8 + h)
  | 2 => (match rsaHash e with
    | some h => e.len = pk + l / 8 + h
    | none => [32, 48, 64].any fun h => e.len = pk + l / 8 + h)
  | 3 => pk ≤ e.len && e.len ≤ pk + (l / 8 - 11)
  | _ =>
    let n := pk + e.argN 6 2
    n ≤ e.len && e.len ≤ n + (l / 8 - 2 * (match rsaHash e with | some h => h | none => 32) - 2)

def eddsaPh (e : Entry) : Bool := e.arg 1 = 2

/-- Words of an integer operand and of a point coordinate (R225). -/
def words8 (n : Nat) : Nat := 8 * ceilDiv n 8

/-- Check 5 of R93: the opcode accepts IN_LEN for the parameter set. -/
def lenOk (s : State) (e : Entry) : Bool :=
  let p := e.ps
  let n := e.len
  match e.opc with
  | 0x010 => n = 32
  | 0x011 => n = 32
  | 0x020 => writeClearLenOk s e
  | 0x030 => 1 ≤ n && n ≤ 2097152
  | 0x032 => if e.arg 0 = 0 then n = 2592 else if e.arg 0 = 1 then n = 0 else n = 2592 || n = 0
  | 0x040 => if e.argBit 1 0 then n = 0 else n = 488
  | 0x061 => if e.argBit 0 0 then n = 32 else n = 0
  | 0x070 => if e.arg 0 = 0 then n = 32 else if e.arg 0 = 1 then n = 64 else n = 32 || n = 64
  | 0x078 => (match e.arg 0 with | 1 => n = 304 | 2 => n = 128 | 3 => n = 0 | _ => n ≤ 4096)
  | 0x101 => n % 8 = 0 && 32 ≤ n && n ≤ 1357848
  | 0x103 => n ≤ 1024
  | 0x105 => if e.argBit 0 0 then n = 0 else n ≤ 64
  | 0x201 => (match mlKem p with | some x => n = hostKey e x.1 | none => false)
  | 0x202 => (match mlKem p with | some x => n = (if sealedForm e then 96 else 0) + x.2.2 | none => false)
  | 0x231 => (match hybrid p with | some x => n = hostKey e x.pk | none => false)
  | 0x232 => (match hybrid p with | some x => n = (if sealedForm e then 160 else 0) + x.ct | none => false)
  | 0x211 => withMessage e (e.arg 0)
  | 0x213 => withDigest e (e.arg 0) (e.arg 2)
  | 0x212 => (match mlDsa p with | some x => withMessage e (hostKey e x.1 + x.2.2 + e.arg 0) | none => false)
  | 0x214 => (match mlDsa p with | some x => withDigest e (hostKey e x.1 + x.2.2 + e.arg 0) (e.arg 2) | none => false)
  | 0x221 => n ≤ 65536
  | 0x222 => (match falcon p with
    | some x => 42 ≤ e.argN 0 2 && e.argN 0 2 ≤ x.2.2 && withMessage e (hostKey e x.1 + e.argN 0 2)
    | none => false)
  | 0x301 => withMessage e (e.arg 0)
  | 0x303 => withDigest e (e.arg 0) (e.arg 2)
  | 0x302 => (match slhDsa p with | some x => withMessage e (hostKey e x.1 + x.2.2 + e.arg 0) | none => false)
  | 0x304 => (match slhDsa p with | some x => withDigest e (hostKey e x.1 + x.2.2 + e.arg 0) (e.arg 2) | none => false)
  | 0x311 => n ≤ 65536
  | 0x321 => n ≤ 65536
  | 0x312 => (match hssN p with | some m => withMessage e (hostKey e (28 + m) + e.argN 0 4) | none => false)
  | 0x322 => (match xmss p with
    | some x => withMessage e (hostKey e (4 + 2 * famN x.2.2) + e.argN 0 4)
    | none => false)
  | 0x401 => (match mceliece p with | some x => n = hostKey e x.1 | none => false)
  | 0x402 => (match mceliece p with | some x => n = x.2.2.2 | none => false)
  | 0x411 => (match hqc p with | some x => n = hostKey e x.1 | none => false)
  | 0x412 => (match hqc p with | some x => n = x.2.2 | none => false)
  | 0x500 => n = 0 || n = 32
  | 0x501 => (match rsaBits p with
    | some l => if e.arg 0 ≤ 4 then rsaPrivateLen e l (e.arg 0) else (List.range 5).any (rsaPrivateLen e l)
    | none => false)
  | 0x502 => (match rsaBits p with
    | some l => if e.arg 0 ≤ 4 then rsaPublicLen e l (e.arg 0) else (List.range 5).any (rsaPublicLen e l)
    | none => false)
  | 0x511 => 20 ≤ n && n ≤ 64
  | 0x512 => (match curveOf s p with
    | some c =>
      let m := hostKey e (1 + 2 * c.fb) + 2 * c.nb
      m + 20 ≤ n && n ≤ m + 64
    | none => false)
  | 0x513 => (match curveOf s p with | some c => n = 1 + 2 * c.fb | none => false)
  | 0x521 => if eddsaPh e then n = e.arg 0 + 64 else withMessage e (e.arg 0)
  | 0x522 => (match eddsa p with
    | some k =>
      let m := hostKey e k + 2 * k + e.arg 0
      if eddsaPh e then n = m + 64 else withMessage e m
    | none => false)
  | 0x528 => if e.arg 0 = 0 then n = 0 else if e.arg 0 = 1 then n = 32 else n = 0 || n = 32
  | 0x529 => if e.arg 0 = 0 then n = 0 else if e.arg 0 = 1 then n = 56 else n = 0 || n = 56
  | 0x600 => true
  | 0x601 => true
  | 0x602 => true
  | 0x605 => n = 424
  | 0x610 => n ≤ 65536
  | 0x780 => n = 24 * p
  | 0x781 => 1 ≤ e.argN 0 2 && e.argN 0 2 ≤ 128 && n = 16 * p + 8 * e.argN 0 2
  | 0x782 => n = 16 * p
  | 0x788 => (match curveOf s p with | some c => n = words8 c.nb + 2 * words8 c.fb | none => false)
  | o =>
    if isCustomer o then
      match entryHeader s o with
      | none => false
      | some h => match headerRow h p with
        | none => false
        | some (_, r) => leAt r 36 4 ≤ n && n ≤ leAt r 40 4 && (n - leAt r 36 4) % Nat.max 1 (leAt r 56 4) = 0
    else n = 0

/-! ### Check 6: output lengths -/

/-- LM-OTS chains p by n and W (SP 800-208). -/
def lmotsChains (n w : Nat) : Nat :=
  match n, w with
  | 32, 1 => 265 | 32, 2 => 133 | 32, 4 => 67 | 32, 8 => 34
  | _, 1 => 200 | _, 2 => 101 | _, 4 => 51 | _, _ => 26

/-- Signature length of an HSS key: per level q ‖ type ‖ C ‖ y ‖ type ‖ path, the upper ones with the public key of the
level below (SP 800-208). -/
def hssSigLen (n : Nat) (levels : List (Nat × Nat)) : Nat :=
  4 + sumOf (levels.map fun l => 4 + (4 + n + n * lmotsChains n l.2) + 4 + n * l.1)
    + (levels.length - 1) * (24 + n)

/-- XMSS and XMSS^MT signature length: index, r, and per layer the WOTS+ chains (w = 16) and the path. -/
def xmssSigLen (h d n : Nat) : Nat :=
  (if d = 1 then 4 else ceilDiv h 8) + n + d * ((if n = 32 then 67 else 51) * n) + h * n

/-- Public-key length of a slot's key (R266). -/
def publicLen (s : State) (x : Slot) : Nat := (formLen s x.family x.paramSet 2).getD (if x.family = 13 then (xLen x.paramSet).getD 0 else 0)

/-- The width W of a kept constant. -/
def widthOf (c : Nat) : Nat := c % 16

/-- The levels of a stateful key: heights and widths. -/
def levelsOf (x : Stateful) : List (Nat × Nat) := x.heights.zip (x.consts.map widthOf)

/-- Blob length of OP_KEY_EXPORT_WRAPPED (R264). -/
def blobLen (material : Nat) : Nat := 8 * ceilDiv (16 + material) 8 + 8

/-- Output of an opcode that returns a secret, or a handle with DEPOSIT. -/
def secretOut (e : Entry) (n : Nat) : Nat := if deposits e then 4 else n

/-- The cases of R209 that complete with E_INVALID_INPUT. -/
def rsaArgsBad (e : Entry) (l : Nat) : Bool :=
  let mode := e.arg 0
  let hash := e.arg 1
  let padded := mode = 1 || mode = 2 || mode = 4
  4 < mode || (if padded then hash = 0 || 7 < hash else hash != 0)
    || (if mode = 2 ∨ mode = 4 then 7 < e.arg 2 else e.arg 2 != 0)
    || (if mode = 2 then l / 8 - (rsaHash e).getD 0 - 2 < e.argN 4 2 else e.argN 4 2 != 0)
    || (if mode = 4 then 1024 < e.argN 6 2 else e.argN 6 2 != 0)

/-- The fixed digest length of an algorithm; none for SHAKE and cSHAKE (R229). -/
def fixedLen (a : Nat) : Option Nat := match digestAlg a with | some (_, some d) => some d | _ => none

/-- DLEN is in range for the algorithm (R235). -/
def dlenOk (a n most : Nat) : Bool := match fixedLen a with | some _ => n = 0 | none => 1 ≤ n && n ≤ most

/-- READ_LEN or REWIND does not fit the algorithm (R235). -/
def readArgsBad (e : Entry) (a : Nat) : Bool :=
  let n := e.argN 0 4
  match fixedLen a with
  | some _ => n != 0 || e.argBit 4 0
  | none => n = 0 || 65536 < n

/-- The output length of an entry, which check 6 compares with OUT_CAP (R532, R533). -/
def outLen (s : State) (e : Entry) : Nat :=
  let p := e.ps
  match e.opc with
  | 0x010 => 8
  | 0x011 => 8
  | 0x020 => 4
  | 0x030 => 48
  | 0x031 => 8
  | 0x032 => if e.arg 0 = 0 then 32 else 0
  | 0x040 => if e.argBit 1 0 then 0 else 32
  | 0x050 => if e.arg 0 ≤ 2 then 16 else 0
  | 0x052 => if e.arg 0 = 1 then 16 else 0
  | 0x051 => 8
  | 0x060 => 48
  | 0x061 => 8
  | 0x070 => if e.arg 0 = 0 then 96 else 0
  | 0x078 => (match e.arg 0 with
    | 0 => 32
    | 1 => let r := e.argN 4 2; if 16 ≤ r ∧ r ≤ 512 ∧ r % 16 = 0 then r else 0
    | 2 => 8
    | 3 => 8
    | _ => 0)
  | 0x100 => 4
  | 0x101 => 4
  | 0x103 => 4
  | 0x102 => (match slotOf s e.keyHandle.toNat with | some x => blobLen x.2.material.length | none => 0)
  | 0x105 => if e.argBit 0 0 then 16384 else 4979
  | 0x106 => (match slotOf s e.keyHandle.toNat with | some x => publicLen s x.2 | none => 0)
  | 0x107 => (match e.arg 0 with | 0 => 16 | 1 => 16 | 2 => 4 | _ => 0)
  | 0x200 => (match mlKem p with | some x => x.1 + (if sealedForm e then 96 else 4) | none => 0)
  | 0x201 => (match mlKem p with | some x => x.2.2 + secretOut e 32 | none => 0)
  | 0x202 => secretOut e 32
  | 0x230 => (match hybrid p with | some x => x.pk + (if sealedForm e then 160 else 4) | none => 0)
  | 0x231 => (match hybrid p with | some x => x.ct + secretOut e (if e.argBit 0 2 then 32 else x.secret) | none => 0)
  | 0x232 => (match hybrid p with | some x => secretOut e (if e.argBit 0 2 then 32 else x.secret) | none => 0)
  | 0x210 => (match mlDsa p with | some x => x.1 + 4 | none => 0)
  | 0x211 => (match mlDsa p with | some x => x.2.2 | none => 0)
  | 0x213 => if (phLen (e.arg 2)).isNone then 0 else (match mlDsa p with | some x => x.2.2 | none => 0)
  | 0x220 => (match falcon p with | some x => x.1 + 4 | none => 0)
  | 0x221 => (match falcon p with | some x => x.2.2 | none => 0)
  | 0x300 => (match slhDsa p with | some x => x.1 + 4 | none => 0)
  | 0x301 => (match slhDsa p with | some x => x.2.2 | none => 0)
  | 0x303 => if (phLen (e.arg 2)).isNone then 0 else (match slhDsa p with | some x => x.2.2 | none => 0)
  | 0x310 => (match hssN p with | some n => 28 + n + 4 | none => 0)
  | 0x311 => (match slotOf s e.keyHandle.toNat with
    | some (i, _) => (match s.keys.stateful.get? i, hssN p with
      | some x, some n => hssSigLen n (levelsOf x)
      | _, _ => 0)
    | none => 0)
  | 0x313 => 64
  | 0x323 => 64
  | 0x320 => (match xmss p with | some x => 4 + 2 * famN x.2.2 + 4 | none => 0)
  | 0x321 => (match xmss p with | some x => xmssSigLen x.1 x.2.1 (famN x.2.2) | none => 0)
  | 0x400 => (match mceliece p with | some x => x.1 + 4 | none => 0)
  | 0x401 => (match mceliece p with | some x => x.2.2.2 + secretOut e 32 | none => 0)
  | 0x402 => secretOut e 32
  | 0x403 => 8
  | 0x410 => (match hqc p with | some x => x.1 + 4 | none => 0)
  | 0x411 => (match hqc p with | some x => x.2.2 + secretOut e 64 | none => 0)
  | 0x412 => secretOut e 64
  | 0x500 => (match rsaBits p with | some l => l / 8 + 4 | none => 0)
  | 0x501 => (match rsaBits p with
    | none => 0
    | some l =>
      if rsaArgsBad e l then 0
      else match e.arg 0 with
        | 3 => l / 8 - 11
        | 4 => l / 8 - 2 * (rsaHash e).getD 0 - 2
        | _ => l / 8)
  | 0x502 => (match rsaBits p with
    | none => 0
    | some l => if rsaArgsBad e l || e.arg 0 = 1 || e.arg 0 = 2 then 0 else l / 8)
  | 0x510 => (match curveOf s p with | some c => 1 + 2 * c.fb + 4 | none => 0)
  | 0x511 => (match curveOf s p with
    | some c => if e.argBit 0 0 ∧ (e.arg 1 = 0 ∨ 3 < e.arg 1) then 0 else 2 * c.nb
    | none => 0)
  | 0x513 => (match curveOf s p with | some c => secretOut e c.fb | none => 0)
  | 0x520 => (match eddsa p with | some n => n + 4 | none => 0)
  | 0x521 => (match eddsa p with | some n => if e.arg 1 ≤ 2 ∧ (p = 0x0512 → e.arg 1 ≠ 1) then 2 * n else 0 | none => 0)
  | 0x528 => if e.arg 0 = 0 then 36 else if e.arg 0 = 1 then secretOut e 32 else 0
  | 0x529 => if e.arg 0 = 0 then 60 else if e.arg 0 = 1 then secretOut e 56 else 0
  | 0x600 => 4
  | 0x603 => (match streamOf s e.auxHandle.toNat with
    | some (_, x) => if readArgsBad e x.alg then 0 else (fixedLen x.alg).getD (e.argN 0 4)
    | none => 0)
  | 0x604 => 424
  | 0x605 => 4
  | 0x610 => if dlenOk p (e.argN 0 4) 65536 then (fixedLen p).getD (e.argN 0 4) else 0
  | 0x700 => if e.argN 0 4 ≤ 65536 then e.argN 0 4 else 0
  | 0x780 => 8 * p
  | 0x781 => 8 * p
  | 0x782 => 8 * p
  | 0x788 => (match curveOf s p with | some c => 2 * words8 c.fb | none => 0)
  | o =>
    if isCustomer o then
      match entryHeader s o with
      | none => 0
      | some h => match headerRow h p with | none => 0 | some (_, r) => leAt r 44 4
    else 0

/-- O of R95: the output length, or for outputs that fill OUT_CAP the capacity up to the largest output. -/
def pageOutLen (s : State) (e : Entry) : Nat :=
  match e.opc with
  | 0x060 => Nat.min e.cap (16 + 32 * 20992)
  | 0x107 => if e.arg 0 = 2 then Nat.min e.cap (4 + 4 * 65536) else outLen s e
  | _ => outLen s e

/-- The input of a digest or OP_STAGE_LOAD entry is streamed in chunks of 65,536 bytes (R237, R390). -/
def streamedInput (h : Option Header) (e : Entry) : Bool :=
  match e.opc with
  | 0x030 => true
  | 0x401 => e.keyHandle = 0
  | 0x600 => 65536 < e.len
  | 0x601 => 65536 < e.len
  | 0x602 => 65536 < e.len
  | o => isCustomer o && (match h with | some h => bit h.flags 4 | none => false)

/-- Page demand, fixed at admission (R95). -/
def pageDemand (s : State) (e : Entry) : Nat :=
  if e.opc = 0x401 ∧ e.keyHandle = 0 then 33
  else if e.opc = 0x030 then 32
  else if isDigest e.opc ∧ 65536 < e.len then 32
  else if e.opc = 0x400 then (match mceliece e.ps with | some x => x.2.1 + (x.2.1 - 120) + 2 | none => 1)
  else if isCustomer e.opc then
    Nat.max 1 (match entryHeader s e.opc with
      | none => 1
      | some h => match headerRow h e.ps with
        | none => 1
        | some (_, r) => leAt r 52 2 + leAt r 54 2 * ceilDiv e.len 4096)
  else Nat.max 1 (ceilDiv (e.len + pageOutLen s e) 4096)

/-! ### Leases (R310) and tiles -/

/-- The operation runs on a stage tile: neither management, digest, key-table engine nor DRBG work (R310, R314). -/
def usesTile (o : Nat) : Bool := !(isManagement o && o != 0x040) && !isDigest o && o != 0x700

/-- The digest algorithm that an operation runs: the PARAM_SET's, that of its stream, or that of the staged blob of a RESUME
(R229, R243); one that names none leases as SHA3-256 does. -/
def digestAlgOf (s : State) (e : Entry) (input : Bytes) : Nat :=
  if e.opc = 0x600 ∨ e.opc = 0x610 then e.ps
  else if e.opc = 0x605 then leAt input 0 2
  else match streamOf s e.auxHandle.toNat with
    | some x => x.2.alg
    | none => 0x0612

/-- Hash-array cores of a run for both sides together (R310): Keccak, SHA-2. -/
def leaseOf (s : State) (e : Entry) (input : Bytes) : Nat × Nat :=
  let o := e.opc
  if isDigest o then
    if digestSha2 (digestAlgOf s e input) then (0, 2) else (2, 0)
  else if 0x300 ≤ o ∧ o ≤ 0x304 then (if slhShake e.ps then (3, 0) else (0, 3))
  else if o = 0x313 ∨ o = 0x323 then (if o = 0x313 then (if famShake (hssFam e.ps) then (3, 0) else (0, 3))
    else if famShake (bits e.ps 7 6) then (3, 0) else (0, 3))
  else if 0x310 ≤ o ∧ o ≤ 0x312 then (if famShake (hssFam e.ps) then (3, 0) else (0, 3))
  else if 0x320 ≤ o ∧ o ≤ 0x322 then (if famShake (bits e.ps 7 6) then (3, 0) else (0, 3))
  else if 0x200 ≤ o ∧ o ≤ 0x232 then (2, 0)
  else if 0x400 ≤ o ∧ o ≤ 0x412 then (2, 0)
  else if 0x520 ≤ o ∧ o ≤ 0x522 then (if e.ps = 0x0512 then (2, 0) else (0, 2))
  else if 0x500 ≤ o ∧ o ≤ 0x502 then (0, 2)
  else if o = 0x511 then (0, 2)
  else (0, 0)

end Machine
end Sys2Proof
end

