-- ==== Sys2Proof/Machine/Intervals.lean ====
section
/-! DEFINITION. The declared execution intervals in CCLK (R327), and the work units and meter classes of the default
stage plan (R387). -/

namespace Sys2Proof.Machine

/-! ### Lattice (R156 to R158) -/

/-- ML-KEM: keygen in the SEALED form, encaps, decaps. -/
def mlKemTime : Nat → Nat × Nat × Nat
  | 0x0001 => (6400, 7000, 9000)
  | 0x0002 => (8800, 9600, 12000)
  | _ => (12800, 14000, 18000)

/-- ML-DSA: keygen, sign base, sign round, verify. -/
def mlDsaTime : Nat → Nat × Nat × Nat × Nat
  | 0x0011 => (25600, 14400, 4800, 12000)
  | 0x0012 => (38400, 19200, 6400, 17600)
  | _ => (56000, 27200, 11200, 24000)

/-- Falcon: keygen base and round, sign base and round, verify. -/
def falconTime : Nat → Nat × Nat × Nat × Nat × Nat
  | 0x0021 => (400000, 1800000, 96000, 32000, 12800)
  | _ => (1000000, 5600000, 192000, 64000, 25600)

/-- The message term of R157: `n` bytes absorbed before the message, by blocks of 136. -/
def absorbTerm (n len : Nat) : Nat := 8 * ((n + len) / 136)

def mlDsaTerm (f : Nat) : Nat := absorbTerm 64 f
def falconTerm (m : Nat) : Nat := absorbTerm 40 m

/-- The commit allowance (R158). -/
def commitAllowance : Nat := 3200

def depositTerm (e : Entry) : Nat := if deposits e then commitAllowance else 0

/-! ### Classical groups (R212, R222, R227) -/

/-- w, N and PM of a curve (R222). -/
def curveWords (c : Curve) : Nat := ceilDiv c.pbits 64
def curvePM (c : Curve) : Nat := 64 * ceilDiv c.nbits 64 * (40 + 10 * curveWords c * curveWords c)

/-- Keygen, sign, verify and ECDH of a built-in curve (R222). -/
def curveTable : Nat → Option (Nat × Nat × Nat × Nat)
  | 0x0501 => some (43200, 44800, 81600, 48000)
  | 0x0502 => some (99200, 102400, 185600, 112000)
  | 0x0503 => some (230400, 236800, 416000, 256000)
  | 0x0504 => some (46400, 48000, 88000, 52800)
  | _ => none

/-- Keygen, sign, verify and ECDH of a curve given its PM and the ECDH term 16 · (40 + 10 · w²) (R222). -/
def curveTime (p pm cofactor : Nat) : Nat × Nat × Nat × Nat :=
  match curveTable p with
  | some t => t
  | none => (pm + 7200, pm + 8000, 2 * pm + 8000, pm + cofactor + 4000)

def curveCofactorTerm (c : Curve) : Nat := 16 * (40 + 10 * curveWords c * curveWords c)

/-- The intervals of a PARAM_SET's curve. -/
def curveTimes (s : State) (p : Nat) : Nat × Nat × Nat × Nat :=
  match curveOf s p with
  | none => (0, 0, 0, 0)
  | some c => curveTime p (curvePM c) (curveCofactorTerm c)

/-- EdDSA: keygen, sign, verify. -/
def eddsaTime : Nat → Nat × Nat × Nat
  | 0x0511 => (32000, 33600, 67200)
  | _ => (92800, 96000, 176000)

/-- The EdDSA message term (R222): sign and verify constants over blocks of 128 or 136 bytes. -/
def eddsaTerm (p m : Nat) (sign : Bool) : Nat :=
  if p = 0x0511 then (if sign then 6 else 2) * ceilDiv m 128 else (if sign then 10 else 4) * ceilDiv m 136

/-- X25519 and X448: MODE 0 and MODE 1. -/
def xTime : Nat → Nat × Nat
  | 0x0513 => (39200, 36000)
  | _ => (131200, 128000)

/-- Interval of one scalar multiplication in a hybrid's group (R156). -/
def groupTime : Nat → Nat
  | 0x0513 => 36000
  | 0x0514 => 128000
  | 0x0501 => 48000
  | _ => 112000

/-- P and M of R212 for w words. -/
def rsaP (w : Nat) : Nat := ceilDiv (3125 * w * w * (w + 32)) 1024
def rsaM (w : Nat) : Nat := ceilDiv (5 * w * w) 16
def rsaWords (l : Nat) : Nat := l / 64
def rsaKeygenTime (l r : Nat) : Nat := 8 * rsaP (rsaWords l) + r * ceilDiv (17 * rsaP (rsaWords l)) 50

/-- The padding allowance A (R212). -/
def rsaAllowance (e : Entry) : Nat :=
  match e.arg 0 with
  | 1 => 800
  | 3 => 800
  | 2 => 2400 + 2 * ceilDiv (e.argN 6 2) 64
  | 4 => 2400 + 2 * ceilDiv (e.argN 6 2) 64
  | _ => 0

/-- Bit length and number of one bits. -/
def bitLen (n : Nat) : Nat := if n = 0 then 0 else Nat.log2 n + 1
def onesCount (n width : Nat) : Nat := ((List.range width).filter fun i => n.testBit i).length

/-- Public operation without its allowance (R212). For a host key whose e is 0 no rule says what bits(e) + ones(e) − 1 gives:
DESIGN CHOICE, 0 (assumption log 118). -/
def rsaPublicTime (l e : Nat) : Nat := rsaM (rsaWords l) * (bitLen e + onesCount e 256 - 1) + 1200

/-! ### Hash-based (R170, R171, R184, R185) -/

/-- SLH-DSA: keygen, sign base, verify base. -/
def slhTime (p : Nat) : Nat × Nat × Nat :=
  match p - 0x0101 with
  | 0 => (416000, 3200000, 8000)
  | 1 => (1216000, 9280000, 12800)
  | 2 => (9600, 160000, 19200)
  | 3 => (22400, 416000, 35200)
  | 4 => (608000, 5600000, 9600)
  | 5 => (1760000, 16000000, 17600)
  | 6 => (12800, 256000, 25600)
  | 7 => (30400, 720000, 51200)
  | 8 => (400000, 4800000, 12800)
  | 9 => (1152000, 14080000, 25600)
  | 10 => (28800, 512000, 25600)
  | _ => (76800, 1472000, 51200)

/-- c · ceil(F / b) (R171). -/
def slhTerm (p f : Nat) (sign : Bool) : Nat :=
  if slhShake p then (if sign then 10 else 4) * ceilDiv f 136
  else (if sign then 4 else 2) * ceilDiv f (if p ≤ 0x0104 then 64 else 128)

/-- Signing interval of a stateful key without its message term (R184). -/
def statefulSign (heights consts : List Nat) : Nat :=
  4800 + sumOf ((heights.zip consts).map fun x => leafInterval x.2 * (1 + ceilDiv x.1 2))
    + sumOf ((consts.drop 1).map leafInterval)

/-- Verify interval of a geometry without its message term (R184). -/
def statefulVerify (heights consts : List Nat) : Nat :=
  12800 + sumOf ((heights.zip consts).map fun x => leafInterval x.2 + 64 * x.1)

/-- The message term of stateful operations (R184). -/
def statefulTerm (fam m : Nat) : Nat := if famShake fam then 4 * ceilDiv m 136 else 2 * ceilDiv m 64

/-! ### Code-based (R201, R202) -/

/-- Classic McEliece: keygen base and round, pinned encaps, decaps, pin. -/
def mceTime (p : Nat) : Nat × Nat × Nat × Nat × Nat :=
  match mceIndex p with
  | 0 => (3200000, 6400000, 24000, 112000, 6800000)
  | 1 => (6400000, 16000000, 44800, 208000, 16400000)
  | 2 => (12000000, 35200000, 80000, 320000, 35600000)
  | 3 => (12000000, 36000000, 80000, 336000, 36400000)
  | _ => (16000000, 48000000, 102400, 384000, 48400000)

/-- HQC: keygen, encaps, decaps. -/
def hqcTime : Nat → Nat × Nat × Nat
  | 0x0421 => (57600, 67200, 105600)
  | 0x0422 => (124800, 144000, 230400)
  | _ => (208000, 240000, 384000)

/-! ### Key placement (R274) -/

/-- V of a key placed. -/
def placementTime (s : State) (fam p form : Nat) : Nat :=
  match fam, form with
  | 1, 1 => 4000
  | 1, 2 => 3200
  | 3, 1 => if p = 0x0021 then 64000 else 128000
  | 3, 2 => if p = 0x0021 then 1600 else 3200
  | 10, 1 => (match rsaBits p with | some l => rsaP (rsaWords l) | none => 0)
  | 10, 2 => 1200
  | 11, 1 => (curveTimes s p).1 - 3200
  | 11, 2 => 4000 + (match loadedSlot p, curveOf s p with
    | some _, some c => if 1 < c.h then curvePM c else 0
    | _, _ => 0)
  | 12, 1 => (eddsaTime p).1 - 3200
  | 12, 2 => 8000
  | 13, 1 => (xTime p).1 - 3200
  | _, _ => 0

/-! ### Half-tiles (R304) -/

/-- F of R304 in quarters, for the opcodes with a half-tile script in the maker image. -/
def halfQuarters (o ps : Nat) : Option Nat :=
  if 0x200 ≤ o ∧ o ≤ 0x202 then some 7
  else if o = 0x528 ∨ o = 0x529 then some 6
  else if (o = 0x521 ∨ o = 0x522) ∧ ps = 0x0511 then some 6
  else if (o = 0x780 ∨ o = 0x782) ∧ 1 ≤ ps ∧ ps ≤ 8 then some 5
  else none

/-- The declared interval on the pair that runs: ceil(F · full-tile interval) on half-tiles (R304). -/
def onTiles (half : Bool) (o ps full : Nat) : Nat :=
  if half then (match halfQuarters o ps with | some q => ceilDiv (q * full) 4 | none => full) else full

/-! ### Work units and classes of the default plan (R387) -/

/-- I0: the base interval of a row's operation (R387), full-tile. A management opcode without a fixed interval has 0. -/
def baseInterval (o p : Nat) : Nat :=
  match o with
  | 0x020 => 5600
  | 0x070 => 2400
  | 0x078 => 1600
  | 0x100 => 7200
  | 0x101 => 5600
  | 0x102 => 2400
  | 0x103 => 9200
  | 0x104 => 4800
  | 0x105 => 1600
  | 0x106 => 1600
  | 0x107 => 800
  | 0x200 => (mlKemTime p).1
  | 0x201 => (mlKemTime p).2.1
  | 0x202 => (mlKemTime p).2.2
  | 0x210 => (mlDsaTime p).1
  | 0x211 => (mlDsaTime p).2.1 + (mlDsaTime p).2.2.1
  | 0x212 => (mlDsaTime p).2.2.2
  | 0x213 => (mlDsaTime p).2.1 + (mlDsaTime p).2.2.1
  | 0x214 => (mlDsaTime p).2.2.2
  | 0x220 => (falconTime p).1 + (falconTime p).2.1
  | 0x221 => (falconTime p).2.2.1 + (falconTime p).2.2.2.1
  | 0x222 => (falconTime p).2.2.2.2
  | 0x230 => (match hybrid p with | some h => (mlKemTime h.kem).1 + groupTime h.group + 200 | none => 0)
  | 0x231 => (match hybrid p with | some h => (mlKemTime h.kem).2.1 + 2 * groupTime h.group + 200 | none => 0)
  | 0x232 => (match hybrid p with | some h => (mlKemTime h.kem).2.2 + groupTime h.group + 200 | none => 0)
  | 0x300 => (slhTime p).1
  | 0x301 => (slhTime p).2.1
  | 0x303 => (slhTime p).2.1
  | 0x302 => (slhTime p).2.2
  | 0x304 => (slhTime p).2.2
  | 0x310 => 8000
  | 0x320 => 8000
  | 0x311 => 4800
  | 0x321 => 4800
  | 0x312 => 12800
  | 0x322 => 12800
  | 0x313 => 1600
  | 0x323 => 1600
  | 0x400 => (mceTime p).1 + (mceTime p).2.1
  | 0x401 => (mceTime p).2.2.1
  | 0x402 => (mceTime p).2.2.2.1
  | 0x403 => (mceTime p).2.2.2.2
  | 0x410 => (hqcTime p).1
  | 0x411 => (hqcTime p).2.1
  | 0x412 => (hqcTime p).2.2
  | 0x500 => (match rsaBits p with | some l => rsaKeygenTime l 1 | none => 0)
  | 0x501 => (match rsaBits p with | some l => rsaP (rsaWords l) | none => 0)
  | 0x502 => (match rsaBits p with | some l => rsaPublicTime l 65537 | none => 0)
  | 0x510 => (curveTime p 0 0).1
  | 0x511 => (curveTime p 0 0).2.1
  | 0x512 => (curveTime p 0 0).2.2.1
  | 0x513 => (curveTime p 0 0).2.2.2
  | 0x520 => (eddsaTime p).1
  | 0x521 => (eddsaTime p).2.1
  | 0x522 => (eddsaTime p).2.2
  | 0x528 => (xTime p).2
  | 0x529 => (xTime p).2
  | 0x600 => 600
  | 0x601 => 400
  | 0x602 => 400
  | 0x603 => 240
  | 0x604 => 1200
  | 0x605 => 1600
  | 0x606 => 200
  | 0x610 => 600
  | 0x700 => 400
  | 0x780 => 400 + 2 * rsaM p
  | 0x781 => 1200
  | 0x782 => 1600 + 192 * p * ceilDiv p 8
  | 0x788 => 4000 + (match curveTable p with
    | some _ => curvePM { emptyCurve with pbits := (if p = 0x0502 then 384 else if p = 0x0503 then 521 else 256),
                                          nbits := (if p = 0x0502 then 384 else if p = 0x0503 then 521 else 256) }
    | none => 0)
  | _ => 0

/-- Work units: ceil(I0 / 800), at least 1 (R387). -/
def defaultUnits (o p : Nat) : Nat := Nat.max 1 (ceilDiv (baseInterval o p) 800)

/-- The meter class of an opcode (R387). -/
def defaultClass (o : Nat) : Nat :=
  if o < 0x100 then 0
  else if o < 0x200 then 1
  else if o < 0x210 then 5
  else if o < 0x230 then 6
  else if o < 0x300 then 5
  else if o < 0x400 then 7
  else if o < 0x500 then 8
  else if o < 0x510 then 9
  else if o < 0x600 then 10
  else if o < 0x700 then 11
  else if o = 0x700 then 12
  else 13

/-- The entry that an opcode selects in the default plan; every opcode but management and raw ones is VF-permitted. -/
def defaultEntry (o p : Nat) : Option OpEntry :=
  if boundOpcodes.contains o then
    some { opcode := o, pool := if usesTile o then 0 else 0xFF, cls := defaultClass o,
           vf := !isManagement o && !isRaw o, customer := false, units := [defaultUnits o p] }
  else none

/-- The operation-table entry of an opcode in a plan (R386, R387): the default plan's is computed; management opcodes are
in force without a plan (R389). -/
def planEntry (s : State) (o p : Nat) : Option OpEntry :=
  match activePlan s with
  | none => if isManagement o then defaultEntry o p else none
  | some q => if q.isDefault then defaultEntry o p else q.table.find? fun t => t.opcode = o

/-- The work units that a captured entry charges for a PARAM_SET (R115, R386): the value of the header row that the
PARAM_SET selects, or the header's DEFAULT_UNITS where that is 0 (R353); `h` is the header that a customer opcode had at
admission; the maker image's rows are not numbered by the spec (assumption log 4). -/
def chargeUnits (h : Option Header) (t : OpEntry) (p : Nat) : Nat :=
  match t.units with
  | [u] => u
  | us =>
    if t.customer then
      match h with
      | none => 1
      | some h =>
        let row := match headerRow h p with | some (i, _) => i | none => 0
        let u := (us[row]?).getD 0
        if u = 0 then h.defaultUnits else u
    else
      let u := (us[Config.headerRow t.opcode p]?).getD 0
      if u = 0 then defaultUnits t.opcode p else u

end Sys2Proof.Machine
end

