-- ==== Sys2Proof/Machine/Seats.lean ====
section
/-! DEFINITION. Seats: status codes and records, the hand-over to the writer, the release of tiles, leases and seats, and
the end of an operation without a commit instant. -/

namespace Sys2Proof.Machine

/-! ### Status codes (R509) -/

def Status.code : Status → Nat
  | .ok => 0x0000 | .verifyFail => 0x0001
  | .length => 0x0201 | .paramSet => 0x0202 | .invalidPoint => 0x0203 | .invalidInput => 0x0204 | .invalidKey => 0x0205
  | .outCapacity => 0x0206 | .curveRejected => 0x0207 | .notFinished => 0x0208
  | .keyHandle => 0x0301 | .keyOwner => 0x0302 | .keyUsage => 0x0303 | .keyExhausted => 0x0304 | .tableFull => 0x0305
  | .quota => 0x0401 | .streamLimit => 0x0402 | .busy => 0x0403
  | .hostRead => 0x0501 | .streamBroken => 0x0503
  | .entropy => 0x0601 | .curtain => 0x0602 | .hold => 0x0603 | .lifecycle => 0x0604 | .auth => 0x0605
  | .faultRepeat => 0x0606
  | .scriptFault => 0x0801 | .scriptOverrun => 0x0802 | .gatherFault => 0x0803
  | .other n => n

def HaltCode.code : HaltCode → Nat
  | .opcode => 0x0101 | .reserved => 0x0102 | .length => 0x0103 | .fragment => 0x0104 | .align => 0x0105
  | .privilege => 0x0106

/-! ### What an entry names (R258, R233) -/

/-- The slot index of a handle field used as a slot; none for 0 or another use. -/
def slotNamed (u : HandleUse) (h : Nat) : List Nat :=
  match u with
  | .slot _ => if h = 0 then [] else [h % 65536]
  | _ => []

/-- The header of a customer opcode by which its entry was checked: the full width's, or the half one's where only that
exists (R24). -/
def Seat.header (x : Seat) : Option Header := x.headers.head?

/-- The slots an operation names: KEY_HANDLE, AUX_HANDLE and its key fragments (R258). -/
def namedSlots (x : Seat) : List Nat :=
  slotNamed (keyUse x.header x.entry) x.entry.keyHandle.toNat ++ slotNamed (auxUse x.header x.entry) x.entry.auxHandle.toNat
    ++ (x.frags.filter Fragment.isKey).map fun f => f.handle % 65536

/-- The operation changes or destroys slot `i`: a destroy, or a key placed over it. -/
def changesSlot (x : Seat) (i : Nat) : Bool :=
  (x.entry.opc = 0x104 && (slotNamed (keyUse x.header x.entry) x.entry.keyHandle.toNat).contains i)
    || (createsKey x.entry && (slotNamed (auxUse x.header x.entry) x.entry.auxHandle.toNat).contains i)

/-- The stream an operation names. -/
def namedStream (x : Seat) : Option Nat :=
  match auxUse x.header x.entry with
  | .stream => if x.entry.auxHandle.toNat = 0 then none else some (x.entry.auxHandle.toNat % 16384)
  | _ => none

/-- A stateful signature. -/
def isStatefulSign (o : Nat) : Bool := o = 0x311 || o = 0x321

/-- The operation has not yet passed its commit instant, nor ended. -/
def Seat.open (x : Seat) : Bool := x.phase != .committed

/-! ### Counts of what a function holds -/

def seatsOf (s : State) (f : Nat) : List (Nat × Seat) := s.seats.filter fun x => x.2.fn = f

/-- Pages held by granted seats: of one function, and of all (R95). -/
def pagesOf (s : State) (f : Nat) : Nat :=
  sumOf ((seatsOf s f).map fun x => if x.2.phase = .waiting then 0 else x.2.demand)
def pagesHeld (s : State) : Nat := sumOf (s.seats.map fun x => if x.2.phase = .waiting then 0 else x.2.demand)

def slotsOf (s : State) (f : Nat) : List (Nat × Slot) := s.keys.slots.filter fun x => x.2.occupied && x.2.owner = f
def unitsOf (s : State) (f : Nat) : Nat := sumOf ((slotsOf s f).map fun x => x.2.unitCount)
def slotsUsed (s : State) : Nat := (s.keys.slots.filter fun x => x.2.occupied).length
def unitsUsed (s : State) : Nat := sumOf ((s.keys.slots.filter fun x => x.2.occupied).map fun x => x.2.unitCount)
def streamsOf (s : State) (f : Nat) : List (Nat × Stream) := s.dig.streams.filter fun x => x.2.fn = f

/-- A seat anywhere references a stream of function `f` (R113). -/
def streamsReferenced (s : State) (f : Nat) : Bool :=
  s.seats.any fun x => match namedStream x.2 with
    | none => false
    | some i => match s.dig.streams.get? i with
      | some st => st.fn = f
      | none => false

/-! ### Records -/

/-- EXEC_CCLK and EXEC_SCALE of a held time (R75). -/
def execField (n : Nat) : Bool × Nat := if 2 ^ 32 - 1 < n then (true, ceilDiv n 65536) else (false, n)

/-- The record of an entry that completes without a commit instant (R76). -/
def plainRecord (s : State) (hint : Nat) (e : Entry) (st : Status) (outLen : Nat) : Record :=
  { phase := false, batch := false, scale := false, status := st, userTag := e.userTag, outLen := outLen, rounds := 0,
    seatHint := hint, epoch := s.box.epoch, units := 0, exec := 0 }

/-- An item reaches the end of the writer's queue (R28). -/
def handOver (i : Item) (s : State) : State := { s with writer := s.writer ++ [i] }

/-- The statuses whose completions a counter counts (R299, R355); E_FAULT_REPEAT is counted where it is decided. -/
def countCompletion (st : Status) (s : State) : State :=
  match st with
  | .entropy => bump Ctr.rngEntropy 1 s
  | .scriptFault => bump Ctr.scrFaults 1 s
  | .scriptOverrun => bump Ctr.scrOverruns 1 s
  | _ => s

/-- An entry completes: it is counted by its status, and its item goes to the writer. -/
def complete (i : Item) (s : State) : State := countCompletion i.record.status (handOver i s)

/-! ### Tiles -/

def tileAt (s : State) (t : Nat) : Tile := (s.til.tiles[t]?).getD (Tile.first t)

/-- The lowest-numbered understudy that is available and not on its way (R320). -/
def nextUnderstudy (s : State) : Option Nat :=
  (List.range s.til.tiles.length).find? fun t => (tileAt s t).state = .understudy && !s.til.coming.any fun c => c.1 = t

/-- A tile is retired: cause 0 blame, 1 TIL_RETIRE, 2 self-test (R319, R320); an understudy starts for its position. -/
def retireTile (t cause : Nat) (s : State) : State :=
  let x := tileAt s t
  if x.state = .retired then s
  else
    let s' := updTile t (fun y => { y with state := .retired, retiredHour := hoursOf s.evr.time, retireWanted := false }) s
    let s' := trouble 7 (event 0x0602 2 deviceWide [byte t, byte cause] s')
    match x.position, nextUnderstudy s' with
    | some p, some u => { s' with til := { s'.til with coming := s'.til.coming ++ [(u, p)] } }
    | _, _ => s'

/-- What a tile does when its last run is released (R308): a wanted retirement, or a waiting configuration (R393). -/
def atRelease (t : Nat) (s : State) : State :=
  let x := tileAt s t
  if x.busy != 0 then s
  else
    let s := match x.next with
      | none => s
      | some n => updTile t (fun y => { y with pool := n.1, split := n.2, next := none, cached := [], cachedB := [] }) s
    if x.retireWanted then retireTile t 1 s else s

/-- A unit is released. -/
def freeUnit (u : Nat) (s : State) : State :=
  atRelease (u / 2) (updTile (u / 2) (fun y => { y with busy := y.busy - (if bit y.busy (u % 2) then 2 ^ (u % 2) else 0) }) s)

def freeUnit? (u : Option Nat) (s : State) : State :=
  match u with
  | none => s
  | some v => freeUnit v s

/-- The pair and the lease of a seat are released. -/
def releasePair (k : Nat) (s : State) : State :=
  match s.seats.get? k with
  | none => s
  | some x =>
    let l := s.til.leased.getD x.lease.group (0, 0)
    let s := { s with til := { s.til with
      leased := s.til.leased.put x.lease.group (l.1 - x.lease.keccak, l.2 - x.lease.sha2) } }
    let s := freeUnit? x.tileB (freeUnit? x.tileA s)
    updSeat k (fun y => { y with tileA := none, tileB := none, lease := { group := 0, keccak := 0, sha2 := 0 } }) s

/-! ### Ceremonies that end (R437, R441) -/

/-- The enrolled tokens counted, as a bit mask. -/
def countedMask (c : Ceremony) : Nat := sumOf (c.counted.map fun k => 2 ^ k)

/-- A ceremony or a held approval ends with a RESULT (R437, R489); a reserved approval is not touched. -/
def endCeremony (result : Nat) (s : State) : State :=
  let finish (c : Ceremony) : State :=
    event 0x0C02 1 deviceWide ([byte c.action, byte result] ++ leBytes 2 (countedMask c))
      { s with tkb := { s.tkb with approval := .none, result := result } }
  match s.tkb.approval with
  | .open c => finish c
  | .held c => finish c
  | _ => s

/-! ### The end of a seat -/

/-- The sequence number a message carries. -/
def messageSeq : JournalMessage → Nat
  | .slotCommit q _ => q
  | .reservation q _ _ _ _ => q
  | .compact q _ _ _ => q
  | .partitionErase q _ => q
  | .tenant q _ _ _ _ _ => q
  | .curve q _ _ => q
  | .resendDone q => q
  | .plan _ _ => 0

/-- The VF holds no seat, and no seat references its streams (R113). -/
def quiet (s : State) (f : Nat) : Bool := seatsOf s f = [] && !streamsReferenced s f

/-- An OP_VF_QUIESCE in seat `k` reaches its end with a status. -/
def endQuiesce (st : Status) (k : Nat) (s : State) : State :=
  updSeat k (fun y => { y with outcome := some { status := st, out := [], rounds := 0, interval := 0, changes := [] } })
    { s with ten := { s.ten with quiesceWaits := s.ten.quiesceWaits.filter fun w => w.1 != k } }

/-- The waiting OP_VF_QUIESCE operations of the VFs that are quiet complete with S_OK (R113). -/
def endQuiesces (s : State) : State :=
  s.ten.quiesceWaits.foldl (fun t w => if quiet t w.2 then endQuiesce .ok w.1 t else t) s

/-- The seat is freed with its pages, its fetched scripts and its DRBG bytes (R29, R289); a quiesce that waited for it
ends. -/
def releaseSeat (k : Nat) (s : State) : State :=
  let (inst, len) := match s.seats.get? k with | some x => (x.drbgInst, x.drbgLen) | none => (8, 0)
  endQuiesces
    { s with seats := s.seats.del k, scr := { s.scr with sides := s.scr.sides.del k },
             ten := { s.ten with quiesceWaits := s.ten.quiesceWaits.filter fun w => w.1 != k },
             rng := { s.rng with insts := updAt s.rng.insts inst fun d => { d with pendingBytes := d.pendingBytes - len } } }

/-- A reservation of the approval by seat `k` lapses (R441); where the window closed meanwhile, which a deadline of 0 records,
the approval ends with it. -/
def lapseApproval (k : Nat) (s : State) : State :=
  match s.tkb.approval with
  | .reserved c j =>
    if j != k then s
    else
      let s := { s with tkb := { s.tkb with approval := .held c } }
      if c.deadline = 0 then endCeremony 7 s else s
  | _ => s

/-- The leaf an operation took is forfeited (R177). -/
def forfeitLeaf (x : Seat) (s : State) : State :=
  match x.leaf with
  | none => s
  | some _ =>
    match slotNamed (keyUse x.header x.entry) x.entry.keyHandle.toNat with
    | [i] => { s with keys := { s.keys with
        stateful := s.keys.stateful.upd i fun y => { y with forfeited := y.forfeited + 1 } } }
    | _ => s

/-- A row stands again as it was. -/
def restoreRow {α : Type} (t : Tab α) (r : Nat × Option α) : Tab α :=
  match r.2 with
  | none => t.del r.1
  | some a => t.put r.1 a

/-- The changes of an operation whose commit was held, and which never reaches its commit instant, do not stand, and the
records that it wrote are not sent again (R27, R31). -/
def undoHold (u : Undo) (s : State) : State :=
  { s with
    keys := { s.keys with
      slots := u.slots.foldl restoreRow s.keys.slots, stateful := u.stateful.foldl restoreRow s.keys.stateful,
      curves := u.curves.foldl restoreRow s.keys.curves,
      log := s.keys.log.filter fun r => !(u.since ≤ messageSeq r.2 && messageSeq r.2 < u.until_) },
    ten := { s.ten with table := u.tenants.foldl restoreRow s.ten.table },
    dig := { s.dig with streams := u.streams.foldl restoreRow s.dig.streams } }

/-- What every end of an operation undoes: its pair, its approval, its leaf, its load, and the changes of a held commit. -/
def dropRun (k : Nat) (s : State) : State :=
  match s.seats.get? k with
  | none => s
  | some x =>
    let s := releasePair k s
    let s := if x.phase = .held then undoHold x.undo s else s
    let s := lapseApproval k (forfeitLeaf x s)
    let s := updSeat k (fun y => { y with leaf := none, awaits := none, credit := none, undo := Undo.none }) s
    { s with stg := { s.stg with loading := s.stg.loading.filter fun l => l.1 != k },
             scr := { s.scr with sides := s.scr.sides.del k } }

/-- A seated operation ends without a commit instant: it completes with a status under R76, or, detached, it ends with
no record. -/
def endSeat (k : Nat) (st : Status) (s : State) : State :=
  match s.seats.get? k with
  | none => s
  | some x =>
    let s := dropRun k s
    if x.detached then releaseSeat k s
    else
      let s := updSeat k (fun y => { y with phase := .committed }) s
      complete
        { fn := x.fn, ring := x.ring, seq := x.seq, index := x.index, seat := some k, outPtr := x.entry.outPtr,
          out := [], batchEnd := x.entry.batchEnd, record := plainRecord s k x.entry st 0, stopped := false } s

/-- A seated operation is squashed: no record and no charge (R109, R31). -/
def squashSeat (k : Nat) (s : State) : State := releaseSeat k (dropRun k s)

/-- A seated operation completes at dispatch with output and without charge (R196). -/
def endWith (k : Nat) (out : Bytes) (s : State) : State :=
  match s.seats.get? k with
  | none => s
  | some x =>
    let s := dropRun k s
    if x.detached then releaseSeat k s
    else
      let s := updSeat k (fun y => { y with phase := .committed }) s
      complete
        { fn := x.fn, ring := x.ring, seq := x.seq, index := x.index, seat := some k, outPtr := x.entry.outPtr,
          out := out, batchEnd := x.entry.batchEnd, record := plainRecord s k x.entry .ok out.length, stopped := false } s

/-- An entry refused before it takes a seat completes at once (R93); OUT_LEN is the length required under E_OUT_CAPACITY,
otherwise 0. -/
def refuseEntry (c : Nat) (r : Ring) (e : Entry) (st : Status) (outLen : Nat) (s : State) : State :=
  complete
    { fn := r.owner, ring := c, seq := r.seq, index := r.sqNext, seat := none, outPtr := e.outPtr, out := [],
      batchEnd := e.batchEnd, record := plainRecord s 0xFFFF e st outLen, stopped := false } s

end Sys2Proof.Machine
end

