-- ==== Sys2Proof/Machine/Keys.lean ====
section
/-! DEFINITION. The key-table engine: the journal and what of it crosses the twin link, the placing and ending of keys, the
credits, and the leaves of stateful keys. -/

namespace Sys2Proof.Machine

/-! ### Channels of the twin link (R405, R406) -/

/-- The session carries records: while pairing, present or resending (R415). -/
def sharing (s : State) : Bool :=
  s.twn.session && (s.twn.state = .pairing || s.twn.state = .present || s.twn.state = .resending)

/-- Journal messages become frames while fewer than 256 are unacknowledged (R405). -/
def pumpJournal (s : State) : State :=
  if !sharing s then s
  else
    let out := s.twn.journalQueue.take (256 - s.twn.journal.unacked)
    let s := out.foldl (fun t m => emit (.twinJournal m) t) s
    bump Ctr.framesTx out.length
      { s with twn := { s.twn with
          journalQueue := s.twn.journalQueue.drop out.length, framesTx := s.twn.framesTx + out.length,
          journal := { s.twn.journal with sendSeq := s.twn.journal.sendSeq + out.length,
                                          unacked := s.twn.journal.unacked + out.length } } }

/-- A journal message joins the queue of its channel. -/
def sendJournal (m : JournalMessage) (s : State) : State :=
  pumpJournal { s with twn := { s.twn with journalQueue := s.twn.journalQueue ++ [m] } }

/-- Checkpoint messages become frames in the same way. -/
def pumpCheckpoint (s : State) : State :=
  if !sharing s then s
  else
    let out := s.twn.checkpointQueue.take (256 - s.twn.checkpoint.unacked)
    let s := out.foldl (fun t m => emit (.twinCheckpoint m) t) s
    bump Ctr.framesTx out.length
      { s with twn := { s.twn with
          checkpointQueue := s.twn.checkpointQueue.drop out.length, framesTx := s.twn.framesTx + out.length,
          checkpoint := { s.twn.checkpoint with sendSeq := s.twn.checkpoint.sendSeq + out.length,
                                                unacked := s.twn.checkpoint.unacked + out.length } } }

/-- A checkpoint message joins the queue of its channel, while a session carries it. -/
def sendCheckpoint (m : CheckpointMessage) (s : State) : State :=
  if sharing s then pumpCheckpoint { s with twn := { s.twn with checkpointQueue := s.twn.checkpointQueue ++ [m] } } else s

/-! ### The journal (R255, R256) -/

/-- The page of a record written at `h` has been overwritten. -/
def overwritten (s : State) (h : Nat) : Bool := journalPage h + journalPages ≤ journalPage s.keys.head

/-- A handle from a slot index and a generation (R246). -/
def handleFrom (i gen : Nat) : Nat := 65536 * gen + i

/-- The handle of slot `i` at its present generation. -/
def handleAt (s : State) (i : Nat) : Nat := handleFrom i (match s.keys.slots.get? i with | some x => x.gen | none => 1)

/-- One record at the head: the sequence number rises by 1 and the head by the record's size, and the records of overwritten
pages are gone; without a pairing nothing waits for an acknowledgement (R276). -/
def appendRecord (r : JournalRecord) (s : State) : State :=
  let head := s.keys.head + r.size
  let kept := (s.keys.journal ++ [(s.keys.head, s.keys.seq + 1, r)]).filter fun q =>
    journalPage head < journalPage q.1 + journalPages
  { s with keys := { s.keys with seq := s.keys.seq + 1, head := head, journal := kept,
                                 ackedSeq := if paired s then s.keys.ackedSeq else s.keys.seq + 1 } }

/-- A record of R406 takes the present sequence number, stays in the log until it is acknowledged, and is sent. -/
def shareRecord (at_ : Nat) (m : JournalMessage) (s : State) : State :=
  if paired s then sendJournal m { s with keys := { s.keys with log := s.keys.log ++ [(at_, m)] } } else s

/-- The stateful key, if any, whose latest record lies in a page that `n` more bytes would overwrite. -/
def carryCandidate (s : State) (n : Nat) : Option (Nat × Stateful) :=
  s.keys.stateful.find? fun x =>
    (x.2.reservations != 0 || x.2.parked) && journalPage x.2.recordAt + journalPages ≤ journalPage (s.keys.head + n + 31)

/-- Fresh type 0x3 records for every such key (R256). -/
def carryForward (n : Nat) : Nat → State → State
  | 0, s => s
  | fuel + 1, s =>
    match carryCandidate s n with
    | none => s
    | some (i, x) =>
      let h := s.keys.head
      let s := appendRecord (.compact (handleAt s i) x.nextBlock x.forfeited x.pos) s
      let s := { s with keys := { s.keys with stateful := s.keys.stateful.upd i fun y => { y with recordAt := h } } }
      carryForward n fuel
        (shareRecord h (.compact s.keys.seq (BitVec.ofNat 32 (handleAt s i)) x.nextBlock x.forfeited) s)

/-- A record after the carry-forward that it forces. -/
def writeRecord (r : JournalRecord) (s : State) : State := appendRecord r (carryForward r.size Config.statefulTotal s)

/-- Where a record of `n` bytes will stand, after the carry-forward that it forces. -/
def recordHead (n : Nat) (s : State) : Nat := (carryForward n Config.statefulTotal s).keys.head

/-- A record of R406, and the message that `m` builds from its sequence number. -/
def writeShared (r : JournalRecord) (m : Nat → JournalMessage) (s : State) : State :=
  let s := carryForward r.size Config.statefulTotal s
  let h := s.keys.head
  let s := appendRecord r s
  shareRecord h (m s.keys.seq) s

/-- The function whose partition a journal message concerns. -/
def messageFunction (s : State) : JournalMessage → Option Nat
  | .slotCommit _ x => some x.owner
  | .reservation _ h _ _ _ => (s.keys.slots.get? (h.toNat % 65536)).map Slot.owner
  | .compact _ h _ _ => (s.keys.slots.get? (h.toNat % 65536)).map Slot.owner
  | .partitionErase _ f => some f
  | .tenant _ f _ _ _ _ => some f
  | .curve _ _ _ => none
  | .resendDone _ => none
  | .plan _ _ => none

/-- This device committed a record for a partition after its last acknowledged record (R414). -/
def changedApart (s : State) (f : Nat) : Bool := s.keys.log.any fun m => messageFunction s m.2 = some f

/-! ### The key hierarchy (R252) -/

/-- The key-table key. -/
def ktk (s : State) : Bytes := kmac256 s.keys.master (leBytes 8 s.otp.serial.toNat) "CHROELLE-KTK" 64

/-- Key `i` derived from the key-table key: 0 the device context key, 1 the seal-key base, 2 the key-derivation key of R211, each
under its own S string, which the spec does not print (assumption log 112). -/
def derivedKey (s : State) (i : Nat) : Bytes := kmacWith (ktk s) [] (Config.keyLabel ++ [byte i]) 32

/-- The device context key (R243). Without a master key it is a free value, another after every drop (assumption log 112). -/
def contextKey (s : State) : Bytes :=
  if s.keys.mkPresent then derivedKey s 0 else Config.prim .contextKey [leBytes 8 s.keys.mkGen] 32

/-- The seal key, from its base and a fresh value; the derivation is not printed (R131, assumption log 112). -/
def sealKeyOf (s : State) (v : Bytes) : Bytes := Config.prim .sealKey [derivedKey s 1, v] 32

/-- A unit of material as MRAM holds it: encrypted under KTK, with its index, the slot's generation and the slot's index as
the tweak (R252). -/
def storedUnit (s : State) (i : Nat) (x : Slot) (j : Nat) : Bytes :=
  xtsUnit (ktk s) (x.firstUnit + j + fld x.gen 32 + fld i 48) (padTo 64 (slice x.material (64 * j) 64))

/-! ### Slots and units (R246, R248, R251) -/

/-- The next generation (R246). -/
def nextGen (g : Nat) : Nat := if g = 65535 then 1 else g + 1

/-- The runs that occupied slots hold. -/
def unitRuns (s : State) : List (Nat × Nat) :=
  (s.keys.slots.filter fun x => x.2.occupied).map fun x => (x.2.firstUnit, x.2.unitCount)

/-- A run of `n` units from `u` is free. -/
def runFree (runs : List (Nat × Nat)) (u n : Nat) : Bool :=
  u + n ≤ Config.unitTotal && runs.all fun r => u + n ≤ r.1 || r.1 + r.2 ≤ u

/-- The first free run of `n` units, searched cyclically from the unit after the last run allocated (R251): it starts
there, at unit 0, or at the end of another run. -/
def findRun (s : State) (n : Nat) : Option Nat :=
  let runs := unitRuns s
  let far (u : Nat) := (u + Config.unitTotal - s.keys.unitNext) % Config.unitTotal
  let starts := (s.keys.unitNext :: 0 :: runs.map fun r => r.1 + r.2).filter fun u => runFree runs u n
  starts.foldl (fun b u => match b with | none => some u | some v => if far u < far v then some u else some v) none

/-- The longest free run (R276). -/
def largestRun (s : State) : Nat :=
  let runs := unitRuns s
  let gap (u : Nat) := if runFree runs u 1 then
      (minOf? ((runs.filter fun r => u ≤ r.1).map Prod.fst)).getD Config.unitTotal - u else 0
  maxOf (gap 0 :: runs.map fun r => gap (r.1 + r.2))

/-- An index this device may allocate: even on the even device and odd on the odd one while a pairing record exists (R401). -/
def parityOk (s : State) (i : Nat) : Bool := !paired s || (i % 2 = 1) = odd s

/-- The unoccupied slot whose directory entry was written longest ago (R248); which of the slots never written, no rule says. -/
def freeSlot (s : State) : Option Nat :=
  let used := (s.keys.slots.filter fun x => parityOk s x.1).length
  let total := if paired s then Config.slotTotal / 2 else Config.slotTotal
  if used < total then
    pick s ((List.range Config.slotTotal).filter fun i => (s.keys.slots.get? i).isNone && parityOk s i)
  else
    let cands := s.keys.slots.filter fun x => !x.2.occupied && parityOk s x.1
    match minOf? (cands.map fun x => x.2.written) with
    | none => none
    | some w => (cands.find? fun x => x.2.written = w).map Prod.fst

/-- A private key of families 6 and 7. -/
def isStatefulKey (family form : Nat) : Bool := (family = 6 || family = 7) && form ≤ 1

/-- The directory entry and material of slot `i` as they cross the link (R406). -/
def slotImage (s : State) (i : Nat) : SlotImage :=
  let x := (s.keys.slots.get? i).getD
    { gen := 1, owner := 0, family := 0, paramSet := 0, form := 0, usage := 0, origin := 0, exportable := false,
      mirror := false, occupied := false, firstUnit := 0, unitCount := 0, material := [], commitSeq := 0, written := 0 }
  let (hs, cs) := match s.keys.stateful.get? i with | some y => (y.heights, y.consts) | none => ([], [])
  { index := i, generation := x.gen, owner := x.owner, family := x.family, paramSet := x.paramSet, form := x.form,
    usage := x.usage, origin := x.origin, exportable := x.exportable, occupied := x.occupied, units := x.unitCount,
    material := x.material, heights := hs, consts := cs }

/-- An unoccupied directory entry keeps GENERATION and the OWNER of its last key; every other field reads zero (R267). -/
def emptySlot (gen owner seq written : Nat) : Slot :=
  { gen := gen, owner := owner, family := 0, paramSet := 0, form := 0, usage := 0, origin := 0, exportable := false,
    mirror := false, occupied := false, firstUnit := 0, unitCount := 0, material := [], commitSeq := seq,
    written := written }

/-- A pin ends; seats that use it keep a copy of their own, numbered by the free counter (R197). -/
def endPin (i : Nat) (s : State) : State :=
  if (s.keys.pins.get? i).isNone then s
  else
    let mark (x : Seat) : Seat := if x.pinned = some i then { x with pinned := some (65536 * (s.free + 1) + i) } else x
    spend { s with keys := { s.keys with pins := s.keys.pins.del i }, seats := s.seats.mapRows fun _ x => mark x }

/-- The kept copies whose pins have ended: their numbers and pages, each counted once. -/
def keptPins : List (Nat × Seat) → List (Nat × Nat)
  | [] => []
  | (_, x) :: r =>
    let rest := keptPins r
    match x.pinned with
    | none => rest
    | some n => if n < 65536 ∨ rest.any (fun q => q.1 = n) then rest
      else (n, x.pinPages) :: rest

/-- Pages of the pin area in use (R196, R197). -/
def pinPagesUsed (s : State) : Nat := sumOf (s.keys.pins.map Prod.snd) + sumOf ((keptPins s.seats).map Prod.snd)

/-- A slot's key ends: the generation rises, its units are free, and its pin, its reservations and its cached expansion end
with it (R246, R265). `seq` is the record that ended it. -/
def endKey (i seq : Nat) (s : State) : State :=
  match s.keys.slots.get? i with
  | none => s
  | some x =>
    if !x.occupied then s
    else
      let s := endPin i s
      { s with keys := { s.keys with
        slots := s.keys.slots.put i (emptySlot (nextGen x.gen) x.owner seq s.keys.written), written := s.keys.written + 1,
        stateful := s.keys.stateful.del i, cache := s.keys.cache.del i } }

/-- The working record of a stateful private key at its creation. -/
def freshStateful (heights consts : List Nat) : Stateful :=
  { heights := heights, consts := consts, nextBlock := 0, block := none, pos := 0, forfeited := 0, reservations := 0,
    active := false, lastSigned := 0, parked := false, checkpointAt := none, recordAt := 0,
    checkpoint := [] }

/-- The 96-bit directory entry of a slot (R249), FIRST_UNIT as given. -/
def directory (y : Slot) (firstUnit : Nat) : Nat :=
  y.gen + fld y.owner 16 + fld y.family 29 + fld y.paramSet 33 + fld y.form 49 + fld y.usage 51 + fld y.origin 58
    + fld (bnat y.exportable) 60 + fld (bnat y.mirror) 61 + fld (bnat y.occupied) 62 + fld firstUnit 63 + fld y.unitCount 80

/-- The directory entry of an index; a slot never used has generation 1 and owner 0. -/
def slotAt (s : State) (i : Nat) : Slot := (s.keys.slots.get? i).getD (emptySlot 1 0 0 0)

/-- The slot commit record of slot `i` as it stands. -/
def slotRecord (s : State) (i : Nat) : JournalRecord := .slotCommit i (directory (slotAt s i) (slotAt s i).firstUnit)

/-- A slot commit: its record, and the counter of R276. -/
def commitSlot (i : Nat) (s : State) : State :=
  let s := writeShared (slotRecord s i) (fun q => .slotCommit q (slotImage s i)) s
  bump Ctr.ktCommits 1
    { s with keys := { s.keys with slots := s.keys.slots.upd i fun x => { x with commitSeq := s.keys.seq } } }

/-- A key is placed in a slot chosen by the engine (target 0) or over the named one, and its handle is given; none when
no run is long enough, no slot is left, or the device holds its 4,096 stateful private keys (R248, R251, R256). -/
def putKey (target : Nat) (k : NewKey) (s : State) : Option (Nat × State) :=
  let replaced := if target = 0 then none else s.keys.slots.get? (target % 65536)
  let stateful := isStatefulKey k.family k.form
  let gone := if target != 0 && (s.keys.stateful.get? (target % 65536)).isSome then 1 else 0
  if stateful ∧ Config.statefulTotal ≤ s.keys.stateful.length - gone then none
  else match (if target = 0 then freeSlot s else some (target % 65536)), findRun s k.units with
    | some i, some u =>
      let gen := match replaced with
        | some x => nextGen x.gen
        | none => match s.keys.slots.get? i with | some x => x.gen | none => 1
      let x : Slot :=
        { gen := gen, owner := k.owner, family := k.family, paramSet := k.paramSet, form := k.form, usage := k.usage,
          origin := k.origin, exportable := k.exportable, mirror := false, occupied := true, firstUnit := u,
          unitCount := k.units, material := k.material, commitSeq := 0, written := s.keys.written }
      let s := if target = 0 then spend s else endKey i 0 s
      let s := { s with keys := { s.keys with
        slots := s.keys.slots.put i x, written := s.keys.written + 1, unitNext := (u + k.units) % Config.unitTotal,
        stateful := if stateful then s.keys.stateful.put i (freshStateful k.heights k.consts) else s.keys.stateful,
        slotReady := if target = 0 then s.keys.slotReady.put i (s.now + 68000) else s.keys.slotReady } }
      some (handleFrom i gen, bump Ctr.ktUnits k.units (commitSlot i s))
    | _, _ => none

/-- A slot's key is destroyed (R265). -/
def destroyKey (i : Nat) (s : State) : State := commitSlot i (endKey i 0 s)

/-- Every slot of a function ends in one journaled commit, and the function's erase count rises (R114). -/
def erasePartition (f : Nat) (s : State) : State :=
  let s := writeShared (.partitionErase f) (fun q => .partitionErase q f) s
  let s := (slotsOf s f).foldl (fun t x => endKey x.1 s.keys.seq t) s
  { s with ten := { s.ten with eraseCount := s.ten.eraseCount.put f (s.ten.eraseCount.getD f 0 + 1) } }

/-! ### Credits (R257) -/

/-- The three credits are taken. -/
def takeCredit (i : Option Nat) (n : Nat) (s : State) : State :=
  { s with keys := { s.keys with
      commitCredit := commitLevel s - 10, unitCredit := unitLevel s - 10 * n, creditTick := s.now,
      slotReady := match i with | none => s.keys.slotReady | some j => s.keys.slotReady.put j (s.now + 68000) } }

/-! ### Leaves of stateful keys (R176 to R183) -/

/-- Leaves of a key, of one block, and blocks. -/
def Stateful.total (x : Stateful) : Nat := 2 ^ sumOf x.heights
def Stateful.blockSize (x : Stateful) : Nat := Nat.min 1024 x.total
def Stateful.blocks (x : Stateful) : Nat := ceilDiv x.total 1024

/-- Unused leaves of the block in use, and leaves of blocks not yet reserved. -/
def Stateful.remaining (x : Stateful) : Nat := match x.block with | none => 0 | some _ => x.blockSize - x.pos
def Stateful.unreserved (x : Stateful) : Nat := x.total - Nat.min x.total (1024 * x.nextBlock)

/-- The global index that the next signature takes. -/
def Stateful.nextLeaf (x : Stateful) : Option Nat :=
  if 0 < x.remaining then x.block.map fun b => 1024 * b + x.pos
  else if x.nextBlock < x.blocks then some (1024 * x.nextBlock) else none

/-- The device lost the working state: an active key forfeits the rest of its block (R177). -/
def Stateful.lose (x : Stateful) : Stateful :=
  if x.active then { x with forfeited := x.forfeited + x.remaining, block := none, pos := 0, active := false } else x

/-- The key's partition moved: the in-block position is discarded (R180). `n` leaves of the block are lost. -/
def Stateful.discard (n : Nat) (x : Stateful) : Stateful :=
  { x with forfeited := x.forfeited + n, block := none, pos := 0, active := false, parked := false }

/-- State entries in use, of 256 (R181). -/
def entriesUsed (s : State) : Nat := sumOf ((s.keys.stateful.filter fun x => x.2.active).map fun x => x.2.heights.length)

/-- A key is deactivated: its position goes to the journal in a type 0x4 record, and nothing is forfeited (R181). -/
def deactivate (i : Nat) (s : State) : State :=
  let h := recordHead 32 s
  let pos := match s.keys.stateful.get? i with | some y => y.pos | none => 0
  let s := writeRecord (.parked (handleAt s i) pos) s
  let mark (y : Stateful) : Stateful := { y with active := false, parked := true, recordAt := h }
  { s with keys := { s.keys with stateful := s.keys.stateful.upd i mark } }

/-- The active key to deactivate: the least recently used that no seated operation names and that has not signed for 1 s
(R181). -/
def idleKey (s : State) : Option Nat :=
  let cands := s.keys.stateful.filter fun x =>
    x.2.active && x.2.lastSigned + Config.tickPerSecond ≤ s.now
      && s.seats.all fun y => !(namedSlots y.2).contains x.1
  match minOf? (cands.map fun x => x.2.lastSigned) with
  | none => none
  | some t => (cands.find? fun x => x.2.lastSigned = t).map Prod.fst

/-- Idle keys are deactivated until `n` state entries are free, or no idle key is left. -/
def makeRoom (n : Nat) : Nat → State → State
  | 0, s => s
  | fuel + 1, s =>
    if entriesUsed s + n ≤ Config.stateEntryTotal then s
    else match idleKey s with
      | none => s
      | some i => makeRoom n fuel (deactivate i s)

/-- Leaves that an activation advances: from the checkpoint of the latest reservation record to the leaf where signing
resumes (R182). -/
def Stateful.advance (x : Stateful) : Nat :=
  if 0 < x.remaining then x.pos else if x.nextBlock = 0 then 0 else 1024

/-- What an activation has to do before the signature (R182, R256). -/
def activationWork (s : State) (x : Stateful) : CatchUp :=
  if x.reservations = 0 then .none
  else if (match x.checkpointAt with | none => true | some h => overwritten s h) then .recompute
  else if x.advance = 0 then .none else .advance

/-- The checkpoint of a block: the working state of its first leaf, 4,096 bytes for each level, which the key and the block
decide (R176). -/
def checkpointOf (s : State) (i : Nat) (x : Stateful) : Bytes :=
  let m := match s.keys.slots.get? i with | some y => y.material | none => []
  Config.prim .checkpoint [m, x.heights.map byte, leBytes 8 x.nextBlock] (4096 * x.heights.length)

/-- A signature takes the next leaf at dispatch, reserving the next block when it is the block's first (R176, R177). The
answer names the leaf and the sequence number of the reservation record. -/
def takeLeaf (i : Nat) (s : State) : Option (Nat × Option Nat × State) :=
  match s.keys.stateful.get? i with
  | none => none
  | some x =>
    if 0 < x.remaining then
      match x.nextLeaf with
      | none => none
      | some l =>
        let y := { x with pos := x.pos + 1, parked := false, lastSigned := s.now }
        some (l, none, { s with keys := { s.keys with stateful := s.keys.stateful.put i y } })
    else if x.nextBlock < x.blocks then
      let c := checkpointOf s i x
      let r := JournalRecord.reservation (handleAt s i) x.nextBlock x.forfeited c
      let h := recordHead r.size s
      let s := writeShared r (fun q => .reservation q (BitVec.ofNat 32 (handleAt s i)) x.nextBlock x.forfeited c) s
      let mark (y : Stateful) : Stateful :=
        { y with block := some x.nextBlock, pos := 1, nextBlock := x.nextBlock + 1, reservations := y.reservations + 1,
                 parked := false, lastSigned := s.now, checkpointAt := some h, recordAt := h, checkpoint := c }
      some (1024 * x.nextBlock, some s.keys.seq,
        { s with keys := { s.keys with stateful := s.keys.stateful.upd i mark } })
    else none

end Sys2Proof.Machine
end

