-- ==== Sys2Proof/Machine/Curtain.lean ====
section
/-! DEFINITION. What several blocks set off: the declaration of the twin's absence, the drop of the safety curtain, and the
counting and firing of monitor channels. -/

namespace Sys2Proof.Machine

/-! ### Absence of the twin (R411, R418) -/

/-- Length of a meter page buffer (R121). -/
def pageBufferLen : Nat := 1052672

/-- A page of the twin's meters (R418): `partialEpoch` for the snapshot written at absence. A checkpoint carries no
times, so START, END, PERIOD and FLAGS [3:0] and [6] of the page are free (assumption log 40). -/
def writeTwinPage (epoch : Nat) (counters : List (Nat × Nat)) (partialEpoch : Bool) (s : State) : State :=
  if s.twn.meterEnable && canMaster s 0 then
    let low := Config.choice s.free
    let page : MeterPage :=
      { epoch := epoch, flags := low % 16 + 16 + fld (bnat partialEpoch) 5 + fld (low / 16 % 2) 6,
        start := Config.timeEstimate s.free, ending := Config.timeEstimate (s.free + 1),
        period := Config.choice (s.free + 1), lostFrom := if bit low 3 then Config.choice (s.free + 2) else 0,
        counters := counters }
    emit (.meterPage (s.twn.meterBase + pageBufferLen * (epoch % s.twn.meterCount)) page)
      { s with free := s.free + 3 }
  else s

/-- The session ends: its keys, its channels and what waited for them (R402, R405). -/
def endSession (s : State) : State :=
  { s with twn := { s.twn with session := false, handshake := .idle, hello := none, reply := none, auth := none,
                               ephemeral := [], agreed := [], keyOut := [], keyIn := [], rekeying := false, tagFails := 0, journal := Channel.first, checkpoint := Channel.first,
                               journalQueue := [], checkpointQueue := [] } }

/-- The device is unpaired: nothing of the pairing is left (R403). What is left of the link's state is its configuration and
the link itself. -/
def forgetTwin (s : State) : State :=
  let s := endSession s
  { s with ten := { s.ten with homes := [] },
           keys := { s.keys with log := [], ackedSeq := s.keys.seq },
           twn := { s.twn with record := none, state := .unpaired, appliedSeq := 0, peerApplied := 0, joinUntil := 0,
                               yielding := [], diverged := [], peerState := 0, peerCurtain := false, peerContext := [],
                               peerPlanSync := false, peerStreamCkpt := false, held := [], snapshot := none,
                               asker := none } }

/-- The functions whose partition is homed at the twin. -/
def mirrorFunctions (s : State) : List Nat := Tab.keys (s.ten.homes.filter fun x => x.2.twin)

/-- Every mirror partition is erased as R114 erases one, when no record is shared any more (R403). -/
def eraseMirrors (s : State) : State :=
  (mirrorFunctions s).foldl (fun t f => event 0x0104 1 f [] (erasePartition f t)) s

/-- The pairing record is deleted, the mirror partitions are erased, and the session ends (R403). -/
def unpair (s : State) : State :=
  let s := endSession s
  forgetTwin (eraseMirrors { s with twn := { s.twn with record := none } })

/-- The twin is declared absent (R411): only a device that holds a pairing record declares it, and only once. A pairing whose
copy had not ended goes back to its handshake, or is given up with its operation (assumption log 41). -/
def declareAbsent (s : State) : State :=
  let s := endSession s
  if s.twn.state = .pairing then
    if s.twn.asker.isNone then unpair s else { s with twn := { s.twn with record := none } }
  else if !paired s || s.twn.state = .absent || s.twn.state = .diverged then s
  else
    let s := { s with twn := { s.twn with state := .absent },
                      ten := { s.ten with homes := s.ten.homes.mapRows fun _ h => { h with adopted := false } } }
    let s := bump Ctr.absences 1 (event 0x0901 2 deviceWide [] s)
    match s.twn.snapshot with
    | none => s
    | some (e, c) => writeTwinPage e c true s

/-! ### The curtain drop (R31, R272, R456, R457) -/

/-- The next generation of a stream index (R231). -/
def closeStream (i : Nat) (s : State) : State :=
  { s with dig := { s.dig with streams := s.dig.streams.del i,
                               gens := s.dig.gens.put i (nextGen (s.dig.gens.getD i 1)) } }

/-- Every stream is closed. -/
def closeStreams (s : State) : State := s.dig.streams.keys.foldl (fun t i => closeStream i t) s

/-- Operations before their commit instant end with E_CURTAIN; records not yet written of operations that committed carry
E_CURTAIN, and no more output is written (R31). -/
def curtainOps (s : State) : State :=
  let live := Tab.keys (s.seats.filter fun x => x.2.open)
  let cut (r : Record) : Record := { r with status := .curtain, outLen := 0 }
  let cutBatch (b : BatchItem) : BatchItem := { b with done := b.done.map fun r => if r.seatHint = 0xFFFF then r else cut r }
  let s := { s with
    writer := s.writer.map (fun i => if i.seat.isSome then { i with stopped := true, record := cut i.record } else i),
    ush := { s.ush with rings := s.ush.rings.mapRows fun _ q => { q with batch := q.batch.map cutBatch } } }
  live.foldl (fun t k => endSeat k .curtain t) s

/-- Stage 1: the master key and every key derived from the key-table key. -/
def curtainStage1 (s : State) : State :=
  { s with keys := { s.keys with mkPresent := false, master := [], mkGen := s.keys.mkGen + 1, sealPresent := false, sealKey := [] } }

/-- The DRBG instances, the pool and the mask generators are cleared (R296). -/
def clearRandom (s : State) : State :=
  { s with rng := { s.rng with pool := [], insts := List.replicate 8 Drbg.first, masks := [] },
           seats := s.seats.map fun x => (x.1, { x.2 with drbgInst := 8 }) }

/-- Stage 2: volatile secrets. -/
def curtainStage2 (s : State) : State :=
  let s := clearRandom (closeStreams (curtainOps s))
  let s := { s with keys := { s.keys with cache := [], pins := [] },
                    pcie := { s.pcie with ide := s.pcie.ide.map Ide.cleared },
                    scr := { s.scr with sides := [] }, lcs := { s.lcs with challenge := false },
                    twn := { s.twn with record := s.twn.record.map fun r => { r with secret := none },
                                        peerContext := [], asker := none } }
  endCeremony 0 (declareAbsent s)

/-- A curtain drop set off by channel `ch` (R451, R456): a tick makes one. Stage 3 starts unless the curtain was down
already, when it continues or stays complete (R457). -/
def dropCurtain (ch : Nat) (s : State) : State :=
  if s.tmp.dropTick = some s.now then s
  else
    let up := !s.tmp.curtainDown
    let s := bump Ctr.tmpDrops 1 (event 0x0A04 4 deviceWide [byte ch] s)
    let s := { s with tmp := { s.tmp with dropTick := some s.now, curtainDown := true, raising := false } }
    let s := curtainStage2 (curtainStage1 s)
    { s with keys := { s.keys with overwriteBusy := s.keys.overwriteBusy || up } }

/-! ### Monitor channels (R445, R449 to R451) -/

def monAt (s : State) (n : Nat) : Mon := (s.tmp.mons[n]?).getD (Mon.first n)

def updMon (n : Nat) (f : Mon → Mon) (s : State) : State := { s with tmp := { s.tmp with mons := updAt s.tmp.mons n f } }

/-- Channel `n` fires with its response (R450, R451); the end of the firing tick falls inside the step (assumption
log 6). -/
def fireChannel (n : Nat) (s : State) : State :=
  let m := monAt s n
  let p := m.policy
  let s := updMon n (fun m => { m with stamps := [], lastFire := some (s.now, p) }) s
  let s := bump (Ctr.tmpFirings n) 1 s
  let s := event 0x0A01 (p + 1) deviceWide ([byte n, byte p, byte m.k, 0] ++ leBytes 4 s.now) s
  let s := if 1 ≤ p then raise 10 s else s
  let s := if 2 ≤ p then { s with tmp := { s.tmp with hold := true, lastHold := some s.now } } else s
  if 3 ≤ p then dropCurtain n s else s

/-- An event of channel `n`, stamped with the present tick; in SCRAPPED no channel counts (R445). -/
def countEvent (n : Nat) (s : State) : State :=
  if lc s = .scrapped then s
  else
    let m := monAt s n
    let stamps := within (m.stamps ++ [s.now]) s.now (2 ^ 24)
    let s := bump (Ctr.tmpEvents n) 1 (updMon n (fun m => { m with stamps := stamps }) s)
    let s := if n = 47 then trouble 14 s else s
    if m.k ≤ (within stamps s.now m.w).length then fireChannel n s else s

end Sys2Proof.Machine
end

