-- ==== Sys2Proof/Machine/Rng.lean ====
section
/-! DEFINITION. Entropy sources and their health tests, the conditioner and its pool, the DRBG instances and the mask
generators. -/

namespace Sys2Proof

/-- The raw bits of a block, a XOR b (R277). -/
def RawBlock.raw (k : RawBlock) : Nat := (k.a ^^^ k.b).toNat

/-- The decimated bits: each the XOR of 4 successive raw bits (R278). -/
def RawBlock.decimated (k : RawBlock) : List Bool :=
  let r := k.raw
  (List.range 1024).map fun j => bit r (4 * j) != (bit r (4 * j + 1) != (bit r (4 * j + 2) != bit r (4 * j + 3)))

/-- Samples of pair `p` in which a equals b (R281). -/
def RawBlock.equal (k : RawBlock) (p : Nat) : Nat :=
  let r := k.raw
  ((List.range 512).filter fun t => !bit r (8 * t + p)).length

namespace Machine

/-! ### Health tests (R281) -/

/-- The limits of R281: edge counts, lock counts, and the two cutoffs. -/
def freqMin : Nat := 150
def freqMax : Nat := 1200
def lockLow : Nat := 166
def lockHigh : Nat := 346
def rctCutoff : Nat := 55
def aptCutoff : Nat := 720

/-- The pair of the first oscillator count outside its limits. -/
def livenessFail (b : RawBlock) : Option Nat :=
  ((List.range b.edges.length).find? fun i => match b.edges[i]? with
    | some n => n < freqMin || freqMax < n
    | none => false).map fun i => i % 16 / 2

/-- The first pair whose count of equal samples lies outside its limits. -/
def lockFail (b : RawBlock) : Option Nat := (List.range 8).find? fun p => b.equal p < lockLow || lockHigh < b.equal p

/-- The longest run of identical bits that ends in a string, and the run at its end, going on from `last` and `run`. -/
def runsOf (last : Bool) (run best : Nat) : List Bool → Bool × Nat × Nat
  | [] => (last, run, best)
  | b :: r => let n := if b = last then run + 1 else 1; runsOf b n (Nat.max best n) r

/-- Occurrences of the first bit of a window. -/
def firstBitCount (bs : List Bool) : Nat :=
  match bs with
  | [] => 0
  | b :: _ => (bs.filter fun c => c = b).length

/-- The test that a block fails, as a cause of RNG_SRC and a pair; the tests are tried in the order of R281. -/
def blockFail (x : Source) (b : RawBlock) : Option (Nat × Option Nat) :=
  match livenessFail b with
  | some p => some (1, some p)
  | none => match lockFail b with
    | some p => some (2, some p)
    | none =>
      if rctCutoff ≤ (runsOf x.lastBit x.runLength 0 b.decimated).2.2 then some (3, none)
      else if aptCutoff ≤ firstBitCount b.decimated then some (4, none)
      else none

def sourceAt (s : State) (i : Nat) : Source := (s.rng.srcs[i]?).getD Source.first
def updSource (i : Nat) (f : Source → Source) (s : State) : State := { s with rng := { s.rng with srcs := updAt s.rng.srcs i f } }

/-- FAILS_1S: failures of a source within the last 1 s (R299). -/
def failsInSecond (s : State) (i : Nat) : Nat :=
  Nat.min 4 (within (sourceAt s i).fails s.now Config.tickPerSecond).length

/-- An instance whose reseed is deferred stops serving while both sources are fatal (R290, R292). -/
def stopDeferred (s : State) : State :=
  if bothFatal s then
    { s with rng := { s.rng with insts := s.rng.insts.map fun d => if d.deferred then { d with serving := false } else d } }
  else s

/-- A failure of source `i` is counted: the fourth within 1 s is fatal, otherwise the source restarts in its next
configuration (R280, R282, R283). -/
def failSource (i cause : Nat) (pair : Option Nat) (s : State) : State :=
  let x := sourceAt s i
  let fails := within (x.fails ++ [s.now]) s.now Config.tickPerSecond
  let p := pair.getD x.pair
  let fatal := 4 ≤ fails.length
  let s := bump (Ctr.rngFailed i) 1 (event 0x0501 1 deviceWide [byte i, byte cause, byte p] s)
  let s := updSource i (fun x =>
    { x with state := if fatal then .fatal else .restarting, config := if fatal then x.config else (x.config + 1) % 4,
             fails := fails, cause := cause, pair := p, runLength := 0 }) s
  if fatal then countEvent 41 (stopDeferred (trouble 8 s)) else s

/-! ### The conditioner and the pool (R286, R287) -/

/-- Bits packed first bit into bit 0 of byte 0. -/
def packBits (bs : List Bool) (bytes : Nat) : Bytes :=
  (List.range bytes).map fun i => byte (sumOf ((List.range 8).map fun j => bnat (bs.getD (8 * i + j) false) * 2 ^ j))

/-- The conditioner: SHA3-256 of the 64 bytes that 512 decimated bits pack into. -/
def condition (bs : List Bool) : Bytes := digestOf 0x0612 (packBits bs 64) 32

/-- The conditioned output of a passing block: 256 bits of each half of its decimated bits. -/
def conditioned (b : RawBlock) : Bytes := condition (b.decimated.take 512) ++ condition (b.decimated.drop 512)

/-- Conditioned bits in the pool, and a request's supply of them: the oldest leave first. -/
def poolBits (s : State) : Nat := 8 * s.rng.pool.length

/-- Conditioned bits enter the pool; those beyond 8,192 are discarded. -/
def fillPool (new : Bytes) (s : State) : State :=
  { s with rng := { s.rng with pool := (s.rng.pool ++ new).take (Config.rngPoolBits / 8) } }

/-- `n` bits leave the pool. -/
def drawPool (n : Nat) (s : State) : State := { s with rng := { s.rng with pool := s.rng.pool.drop (n / 8) } }

/-- RNG_BLOCK (R279, R281, R282, R286, R287): a passing block of a running source is conditioned into the pool. The tests run
during a restart and a start-up too, where a failing block counts as a failure and a passing one gives nothing. -/
def takeBlock (i : Nat) (b : RawBlock) (s : State) : State :=
  let x := sourceAt s i
  if x.state = .off ∨ x.state = .fatal then s
  else match blockFail x b with
    | some (c, p) => failSource i c p s
    | none =>
      if x.state != .running then s
      else
        let r := runsOf x.lastBit x.runLength 0 b.decimated
        let s := updSource i (fun x => { x with lastBit := r.1, runLength := r.2.1 }) s
        bump (Ctr.rngOk i) 1 (fillPool (conditioned b) s)

def execRngBlock (src : Nat) (blk : RawBlock) (s : State) : Host.Outcome State Fault Refusal := run (takeBlock src blk) s

/-- SOURCE_RESTART (R282): the start-up test begins. -/
def execSourceRestart (src : Nat) (s : State) : Host.Outcome State Fault Refusal :=
  run (fun s => if (sourceAt s src).state = .restarting then updSource src (fun x => { x with state := .startUp }) s
    else s) s

/-- START_UP_TEST (R285): its samples are never conditioned; a failure restarts the source again. -/
def startUpEnds (i : Nat) (b : RawBlock) (s : State) : State :=
  let x := sourceAt s i
  if x.state != .startUp then s
  else match blockFail { x with runLength := 0 } b with
    | some (_, p) => failSource i 5 p s
    | none =>
      let r := runsOf x.lastBit 0 0 b.decimated
      updSource i (fun x => { x with state := .running, lastBit := r.1, runLength := r.2.1 }) s

def execStartUpTest (src : Nat) (blk : RawBlock) (s : State) : Host.Outcome State Fault Refusal :=
  run (startUpEnds src blk) s

/-- A fatal source restarts in its next configuration with its failure count at zero (R284). -/
def reviveSource (i : Nat) (s : State) : State :=
  if (sourceAt s i).state = .fatal then
    event 0x0502 0 deviceWide [byte i]
      (updSource i (fun x => { x with state := .restarting, config := (x.config + 1) % 4, fails := [], runLength := 0 }) s)
  else s

/-- RNG_REVIVE.SOURCE takes a value. -/
def writeRevive (v : Nat) (s : State) : State :=
  let s := if bit v 0 then reviveSource 0 s else s
  if bit v 1 then reviveSource 1 s else s

def execRngRevive (value : Nat) (s : State) : Host.Outcome State Fault Refusal :=
  run (pfGuarded 0x280018 (writeRevive value)) s

/-! ### DRBG instances (R288 to R294) -/

def instAt (s : State) (i : Nat) : Drbg := (s.rng.insts[i]?).getD Drbg.first
def updInst (i : Nat) (f : Drbg → Drbg) (s : State) : State := { s with rng := { s.rng with insts := updAt s.rng.insts i f } }

/-- The output of a generate request of `n` bytes to instance `i` (R288). -/
def drawn (s : State) (i n : Nat) : Bytes := (instAt s i).gen.output 0 n

/-- One generate request of `n` bytes (R288); `held` while a seat keeps them (R289). -/
def generate (i n : Nat) (held : Bool) (s : State) : State :=
  bump Ctr.rngBytes n (updInst i (fun d =>
    { d with requests := d.requests + 1, gen := d.gen.after n [], pendingBytes := d.pendingBytes + (if held then n else 0) }) s)

/-- The life-cycle nonce of 32 bytes is drawn from instance `i`, and the challenge awaits its attempt (R469). -/
def drawChallenge (i : Nat) (s : State) : State :=
  generate i 32 false { s with lcs := { s.lcs with nonce := drawn s i 32, challenge := true, newWanted := false } }

/-- The personalisation string of instance `i` (R288). -/
def personalisation (s : State) (i : Nat) : Bytes :=
  leBytes 8 s.otp.serial.toNat ++ leBytes 4 s.evr.cycles ++ [byte i] ++ zeros 3

/-- DRBG_INSTANTIATE (R294): after the known-answer tests, with 512 bits in the pool, 384 of entropy and 128 of nonce (R288). A
challenge that waited for it is drawn (R295, R469). -/
def instantiate (i : Nat) (s : State) : State :=
  if s.rng.katDone && !s.rng.katFail && !(instAt s i).live && 512 ≤ poolBits s then
    let gen := CtrDrbg.instantiate (slice s.rng.pool 0 48) (slice s.rng.pool 48 16) (personalisation s i)
    let s := updInst i (fun _ => { Drbg.first with live := true, serving := true, reseedTick := s.now, gen := gen })
      (drawPool 512 s)
    if s.lcs.newWanted && i < s.rng.insts.length then drawChallenge i s else s
  else s

def execDrbgInstantiate (i : Nat) (s : State) : Host.Outcome State Fault Refusal := run (instantiate i) s

/-- An instance reseeds from the pool and serves (R288, R293). -/
def reseed (i : Nat) (s : State) : State :=
  let entropy := slice s.rng.pool 0 48
  bump Ctr.rngReseeds 1
    (updInst i (fun d => { d with serving := true, requests := 0, reseedTick := s.now, deferred := false,
                                  gen := d.gen.reseed entropy [] }) (drawPool 384 s))

/-- An instance that stopped serving reseeds behind every lower-numbered one that stopped (R293). -/
def reseedTurn (s : State) (i : Nat) : Bool :=
  (instAt s i).serving || !(List.range i).any fun j => (instAt s j).deferred && !(instAt s j).serving

/-- DRBG_RESEED (R288, R290, R292): a due reseed is served from the pool, or deferred. -/
def reseedDue (i : Nat) (s : State) : State :=
  let d := instAt s i
  if d.live && (2 ^ 20 ≤ d.requests || d.reseedTick + Config.tickPerSecond ≤ s.now) then
    if 384 ≤ poolBits s && reseedTurn s i then reseed i s
    else stopDeferred (updInst i (fun d => { d with deferred := true }) s)
  else s

def execDrbgReseed (i : Nat) (s : State) : Host.Outcome State Fault Refusal := run (reseedDue i) s

/-- DEFERRED_RESEED (R290, R293). -/
def deferredReseed (i : Nat) (s : State) : State :=
  if (instAt s i).deferred && 384 ≤ poolBits s && reseedTurn s i then reseed i s else s

def execDeferredReseed (i : Nat) (s : State) : Host.Outcome State Fault Refusal := run (deferredReseed i) s

/-- The serving instance with the fewest bytes pending, the lowest-numbered among equals (R289). -/
def servingInst (s : State) : Option Nat :=
  let c := servingInsts s
  match minOf? (c.map fun i => (instAt s i).pendingBytes) with
  | none => none
  | some m => c.find? fun i => (instAt s i).pendingBytes = m

/-- No randomness will come: both sources are fatal or a start-up test failed (R292, R295). -/
def noMoreEntropy (s : State) : Bool := bothFatal s || s.rng.katFail

/-- A value drawn from a serving instance outside an operation, if one serves: one generate request of its length. -/
def drawBytes (n : Nat) (s : State) : Option (Bytes × State) :=
  match servingInst s with
  | none => none
  | some i => some (drawn s i n, generate i n false s)

/-! ### Mask generators (R291) -/

/-- The generator of a unit: 2t for tile t or its half A, 2t + 1 for half B. -/
def maskGen (s : State) (u : Nat) : MaskGen := s.rng.masks.getD u { seeded := false, expired := false, ops := 0, seed := [] }

/-- A unit's generator may serve an operation without a reseed. -/
def maskOk (s : State) (u : Nat) : Bool := (maskGen s u).seeded && !(maskGen s u).expired && (maskGen s u).ops < 65536

/-- A unit's generator gives no masks: it was never seeded, or it is expired (R291, R292). -/
def maskDry (s : State) (u : Nat) : Bool := !(maskGen s u).seeded || (maskGen s u).expired

/-- Seeds a generator with one generate request of 32 bytes, or expires it. -/
def seedMask (u : Nat) (s : State) : State :=
  match servingInst s with
  | some i =>
    let g : MaskGen := { seeded := true, expired := false, ops := 0, seed := drawn s i 32 }
    let s := bump Ctr.rngMaskReseeds 1 (generate i 32 false s)
    { s with rng := { s.rng with masks := s.rng.masks.put u g } }
  | none =>
    let g := maskGen s u
    { s with rng := { s.rng with masks := s.rng.masks.put u { g with expired := g.seeded } } }

/-- MASK_GENERATOR_RESEED (R291): due when unseeded, expired, or after 2^16 operations. -/
def execMaskGeneratorReseed (tile : Nat) (half : Bool) (s : State) : Host.Outcome State Fault Refusal :=
  run (fun s => let u := 2 * tile + bnat half
    if maskOk s u then s else seedMask u s) s

/-- An operation ran on a unit. -/
def countMaskOp (u : Nat) (s : State) : State :=
  let g := maskGen s u
  { s with rng := { s.rng with masks := s.rng.masks.put u { g with ops := g.ops + 1 } } }

end Machine
end Sys2Proof
end

