-- ==== Sys2Proof/Machine/Admission.lean ====
section
/-! DEFINITION. The structural checks and the function halt, the admission checks, and the taking of a seat. -/

namespace Sys2Proof.Machine

/-! ### Structural checks (R89) -/

/-- The overlay denies the opcode to VFs (R396). -/
def denied (s : State) (o : Nat) : Bool := bit (s.stg.deny.getD (o / 64) 0) (o % 64)

/-- The OP_ARGS bits an opcode names: its header's mask for a customer opcode (R346), its chapter's otherwise (R72). -/
def argsNamed (s : State) (o : Nat) : Nat :=
  if isCustomer o then (match entryHeader s o with | some h => 2 ^ 128 - 1 - h.argsMask | none => 0) else argsAllowed o

/-- Checks 1 to 7, for an entry on a ring of function `f`: the number of the first that fails and its code. -/
def structural (s : State) (f : Nat) (e : Entry) : Option (Nat × HaltCode) :=
  match planEntry s e.opc e.ps with
  | none => if bits e.ctl.toNat 15 4 ≠ 0 ∨ bits e.opcode.toNat 15 12 ≠ 0 then some (1, .reserved) else some (2, .opcode)
  | some t =>
    if bits e.ctl.toNat 15 4 ≠ 0 ∨ bits e.opcode.toNat 15 12 ≠ 0 then some (1, .reserved)
    else if f ≠ 0 ∧ (isManagement e.opc ∨ t.vf = false ∨ denied s e.opc) then some (3, .privilege)
    else if e.opArgs.toNat &&& (2 ^ 128 - 1 - argsNamed s e.opc) ≠ 0 then some (4, .reserved)
    else if e.inlineIn ∧ (e.fragCount ≠ 0 ∨ 64 < e.len) then some (5, .length)
    else if 1024 < e.fragCount.toNat then some (6, .fragment)
    else if e.fragCount ≠ 0 ∧ e.inPtr.toNat % 16 ≠ 0 then some (7, .align)
    else none

/-- Checks 8 and 9, on the fragment list: the check, its code and the fragment reported. -/
def fragmentChecks (e : Entry) (fs : List Fragment) : Option (Nat × HaltCode × Nat) :=
  match (List.range fs.length).find? fun i => (fs[i]?).any Fragment.reservedSet with
  | some i => some (8, .reserved, i)
  | none => if e.len ≠ sumOf (fs.map fun f => f.length.toNat) then some (9, .length, 0xFFFF) else none

/-- A ring that stops being read: it leaves the hot state, its reads still outstanding are discarded when they arrive. -/
def stopReads (r : Ring) : Ring := { r with hot := false, reads := r.reads, stale := r.reads, frag := none, held := false }

/-- The items of the batches whose BATCH_END entry has been read. -/
def closedBatches (b : List BatchItem) : List BatchItem :=
  (b.reverse.dropWhile fun i => !i.batchEnd).reverse

/-- A structural malformation halts the owning function (R90, R91). SEQUENCE is free when the event has no sequence
number (assumption log 5). -/
def haltFunction (c : Nat) (e : Entry) (check : Nat) (code : HaltCode) (fragment : Nat) (s : State) : State :=
  match s.ush.rings.get? c with
  | none => s
  | some r =>
    let f := r.owner
    let detail := leBytes 2 code.code ++ [byte r.ringId, byte check] ++ leBytes 4 r.sqNext
    let s' := event 0x0101 2 f detail s
    let seq := if s'.evr.next = s.evr.next then Config.choice s.free % 2 ^ 32 else (s'.evr.next + (2 ^ 32 - 1)) % 2 ^ 32
    let count := match s.ush.halts.get? f with | some h => h.count + 1 | none => 1
    let rec_ : Halt :=
      { code := code, ringId := r.ringId, check := check, index := r.sqNext, opcode := e.opcode.toNat,
        fragment := fragment, sequence := seq, addr := r.sqBase + 128 * r.sqNext, count := count }
    let s' := spend s'
    let s' := { s' with ush := { s'.ush with
      halts := s'.ush.halts.put f rec_, halted := insertSorted f s'.ush.halted,
      rings := s'.ush.rings.mapRows fun _ q =>
        if q.owner = f then { stopReads q with batch := closedBatches q.batch } else q } }
    let s' := bump Ctr.halts 1 (signal f 0 s')
    if f = 0 then s' else raise (32 + (f - 1) / 16) s'

/-! ### Admission checks (R93) -/

/-- Check 1: the life-cycle state permits the opcode (R466, R467). -/
def stateAllows (l : LcState) (o : Nat) : Bool :=
  match l with
  | .factory => true
  | .sealed => true
  | .blank => o != 0x050 && o != 0x052
  | .ret => o != 0x050 && o != 0x052
  | .locked => o = 0x078
  | .scrapped => false

/-- Check 7 for one handle field: an unused slot, a closed stream, or a stale generation. -/
def handleBad (s : State) (u : HandleUse) (h : Nat) : Bool :=
  match u with
  | .unused => false
  | .slot _ => h != 0 && (slotOf s h).isNone
  | .stream => h != 0 && (streamOf s h).isNone

/-- Check 8 for one handle field: a slot of a function other than `f`, or a stream bound to another function or ring. -/
def ownerBad (s : State) (u : HandleUse) (h f ringId : Nat) : Bool :=
  match u with
  | .unused => false
  | .slot _ => (match slotOf s h with | some x => x.2.owner != f | none => false)
  | .stream => (match streamOf s h with | some x => x.2.fn != f || x.2.ringId != ringId | none => false)

/-- The owner that a named slot must have: the OWNER of OP_KEY_WRITE_CLEAR for its AUX_HANDLE (R260), the slot's own for
a PF ring that destroys a slot of a quiescing VF (R265) or uses an opcode served on mirror slots there (R268). -/
def keyOwnerBad (s : State) (e : Entry) (f ringId : Nat) : Bool :=
  match keyUse (entryHeader s e.opc) e, slotOf s e.keyHandle.toNat with
  | .slot _, some x =>
    if f = 0 ∧ e.opc = 0x104 ∧ quiescing s x.2.owner then false
    else if f = 0 ∧ x.2.mirror ∧ [0x105, 0x106, 0x107, 0x313, 0x323].contains e.opc then false
    else x.2.owner != f
  | u, _ => ownerBad s u e.keyHandle.toNat f ringId

def auxOwnerBad (s : State) (e : Entry) (f ringId : Nat) : Bool :=
  if e.opc = 0x020 then ownerBad s (auxUse (entryHeader s e.opc) e) e.auxHandle.toNat (e.argN 4 2) ringId
  else ownerBad s (auxUse (entryHeader s e.opc) e) e.auxHandle.toNat f ringId

/-- The usage a slot carries: in public-only form neither sign, decaps nor derive, which need a private key (R128, R190, R203). -/
def heldUsage (x : Slot) : Nat := if x.form = 2 then x.usage &&& 0x72 else x.usage

/-- Check 9 for one handle field: the slot lacks a usage bit. -/
def usageBad (s : State) (u : HandleUse) (h : Nat) : Bool :=
  match u with
  | .slot n => (match slotOf s h with | some x => heldUsage x.2 &&& n != n | none => false)
  | _ => false

/-- The wrapping key of an export is no AES-256 key (R264, R275; DEDUCED, assumption log 30). -/
def wrapKeyBad (s : State) (e : Entry) : Bool :=
  e.opc = 0x102 && (match slotOf s e.auxHandle.toNat with
    | some x => x.2.family != 14 || x.2.paramSet != 0x0F02
    | none => false)

/-- A slot that must be pinned and is not: any slot of a McEliece encapsulation (R198), a McEliece slot whose public key is
read (R266). -/
def unpinned (s : State) (e : Entry) : Bool :=
  match slotOf s e.keyHandle.toNat with
  | some (i, x) => (e.opc = 0x401 || (e.opc = 0x106 && x.family = 8)) && (s.keys.pins.get? i).isNone
  | none => false

/-- Check 9 for the key fragments: usage derive, or an opcode that accepts none; the raw commands are exempt (R94, R224). -/
def fragmentUsageBad (s : State) (e : Entry) (fs : List Fragment) : Bool :=
  (fs.filter Fragment.isKey).any fun f =>
    if acceptsKeyFrag e.opc then usageBad s (.slot 0x08) f.handle else !isRaw e.opc

/-- The tenant-table entry of a function; a VF without one has no quota. -/
def tenantOf (s : State) (f : Nat) : Tenant :=
  (s.ten.table.get? f).getD
    { rings := 0, seats := 0, pages := 0, slots := 0, units := 0, streams := 0, pollShare := 0, classes := 0 }

/-- Check 10: the meter class, then the page demand, of a VF (R107). -/
def quotaBad (s : State) (f : Nat) (e : Entry) : Bool :=
  f != 0 && (match planEntry s e.opc e.ps with
    | some t => !bit (tenantOf s f).classes t.cls || (tenantOf s f).pages < pageDemand s e
    | none => true)

/-- The handle whose key or stream gives an entry its output length (R175, R240, R264, R266) fails check 7, 8 or 9. -/
def lengthHandleBad (s : State) (f ringId : Nat) (e : Entry) : Bool :=
  let u := keyUse (entryHeader s e.opc) e
  let h := e.keyHandle.toNat
  if [0x102, 0x106, 0x311].contains e.opc then
    handleBad s u h || keyOwnerBad s e f ringId || usageBad s u h || unpinned s e
  else e.opc = 0x603 && (handleBad s .stream e.auxHandle.toNat || auxOwnerBad s e f ringId)

/-- The output length that check 6 compares with OUT_CAP: 0 where the handle that gives it is to be reported (R532). -/
def requiredOut (s : State) (f ringId : Nat) (e : Entry) : Nat := if lengthHandleBad s f ringId e then 0 else outLen s e

/-- The admission checks of an entry on a ring of function `f`: the first failure and the OUT_LEN of its record. -/
def admissionCheck (s : State) (f ringId : Nat) (e : Entry) (fs : List Fragment) : Option (Status × Nat) :=
  let frags := fs.filter Fragment.isKey
  if !stateAllows (lc s) e.opc then some (.lifecycle, 0)
  else if usesSecret s (entryHeader s e.opc) e fs && s.tmp.curtainDown then some (.curtain, 0)
  else if usesSecret s (entryHeader s e.opc) e fs && s.tmp.hold then some (.hold, 0)
  else if !paramOk s e then some (.paramSet, 0)
  else if !lenOk s e then some (.length, 0)
  else if e.cap < requiredOut s f ringId e then some (.outCapacity, requiredOut s f ringId e)
  else if handleBad s (keyUse (entryHeader s e.opc) e) e.keyHandle.toNat || handleBad s (auxUse (entryHeader s e.opc) e) e.auxHandle.toNat
      || frags.any (fun g => (slotOf s g.handle).isNone) then some (.keyHandle, 0)
  else if keyOwnerBad s e f ringId || auxOwnerBad s e f ringId
      || frags.any (fun g => ownerBad s (.slot 0) g.handle f ringId) then some (.keyOwner, 0)
  else if usageBad s (keyUse (entryHeader s e.opc) e) e.keyHandle.toNat || usageBad s (auxUse (entryHeader s e.opc) e) e.auxHandle.toNat || unpinned s e || wrapKeyBad s e
      || fragmentUsageBad s e fs then some (.keyUsage, 0)
  else if quotaBad s f e then some (.quota, 0)
  else none

/-! ### Taking a seat (R22, R95) -/

/-- A seat that no operation holds, which of them no rule says; none when the function or the device has none left. -/
def freeSeat (s : State) (f : Nat) : Option Nat :=
  if (f ≠ 0 ∧ (tenantOf s f).seats ≤ (seatsOf s f).length) ∨ Config.seatTotal ≤ s.seats.length then none
  else pick s ((List.range Config.seatTotal).filter fun k => (s.seats.get? k).isNone)

/-- The pinned slot that an entry uses: a McEliece encapsulation or public-key read from a slot (R197, R198, R266). -/
def pinOf (s : State) (e : Entry) : Option Nat :=
  if e.opc = 0x401 ∨ e.opc = 0x106 then
    match slotOf s e.keyHandle.toNat with
    | some (i, x) => if x.family = 8 then some i else none
    | none => none
  else none

/-- The seat an entry takes at admission (R24: the operation-table entry and the bank are fixed here). -/
def newSeat (s : State) (c : Nat) (r : Ring) (e : Entry) (fs : List Fragment) (t : OpEntry) : Seat :=
  { fn := r.owner, ring := c, ringId := r.ringId, seq := r.seq, index := r.sqNext, entry := e, frags := fs, table := t,
    headers := entryHeaders s e.opc, pool := some t.pool, defaults := quotaDefaults s,
    quota := tenantOf s (if e.opc = 0x020 then e.argN 4 2 else r.owner), bank := s.stg.active, order := s.order, admitTick := s.now, phase := .waiting, demand := pageDemand s e,
    outLen := outLen s e, input := none, asked := 0, chunks := [], staged := 0, processed := 0, tileA := none, tileB := none,
    half := false, lease := { group := 0, keccak := 0, sha2 := 0 }, used := [], runs := [], run := 0, drbg := 0,
    gen := CtrDrbg.zero, drbgInst := 8, drbgLen := 0, noEntropy := false, outcome := none, overA := false, overB := false, leaf := none,
    reserves := false, catchUp := .none, approval := false, pinned := pinOf s e,
    pinPages := (match pinOf s e with | some i => s.keys.pins.getD i 0 | none => 0), passed := 0, credit := none, leaseWait := false,
    detached := false, awaits := none, undo := Undo.none, ue := none }

/-- SQ_NEXT moves past an entry, EXP_PHASE toggling at the wrap (R77); an inline ring's batch takes the entry (R80). -/
def consume (e : Entry) (done : Option Record) (r : Ring) : Ring :=
  let next := (r.sqNext + 1) % 2 ^ r.log2
  { r with sqNext := next, expPhase := if next = 0 then !r.expPhase else r.expPhase, seq := r.seq + 1, frag := none,
           batch := if r.split then r.batch
             else r.batch ++ [{ seq := r.seq, index := r.sqNext, batchEnd := e.batchEnd, phase := e.phase, done := done }] }

/-- An entry that passed the structural checks is refused, takes a seat, or holds its ring (R22, R93). -/
def seatEntry (c : Nat) (e : Entry) (fs : List Fragment) (s : State) : State :=
  match s.ush.rings.get? c, planEntry s e.opc e.ps with
  | some r, some t =>
    match admissionCheck s r.owner r.ringId e fs with
    | some (st, n) => updRing c (consume e none) (refuseEntry c r e st n s)
    | none =>
      match freeSeat s r.owner with
      | none => updRing c (fun q => { stopReads q with held := true }) s
      | some k =>
        let s' := { s with seats := s.seats.put k (newSeat s c r e fs t), order := s.order + 1 }
        let s' := updRing c (fun q => { consume e none q with admitted := q.admitted + 1 }) s'
        bump Ctr.admitted 1 (spend s')
  | _, _ => s

end Sys2Proof.Machine
end

