-- ==== Sys2Proof/Machine/Usher.lean ====
section
/-! DEFINITION. The usher: polls, entry and fragment-list reads, failed reads of either, the intervals and the budget, and
PF ring 0. -/

namespace Sys2Proof.Machine

/-- The usher reads a ring (R85 to R88, R50, R55, R113, R474): READY, no intermission, the ring neither parked, stopped,
halted, quiescing nor being reset, and its function may master the bus. -/
def readable (s : State) (r : Ring) : Bool :=
  s.pcie.ready && !intermission s && lc s != .scrapped && ringCounts s r

/-- Ring reads outstanding, and the most non-posted reads that the device has outstanding (R48). -/
def readsOut (s : State) : Nat := sumOf (s.ush.rings.map fun r => r.2.reads)
def maxReads : Nat := 768

/-! ### USHER_POLL -/

/-- A poll of a ring that is not hot and has no live read outstanding issues the read at SQ_NEXT (R85). -/
def pollRing (c : Nat) (s : State) : State :=
  match s.ush.rings.get? c with
  | none => s
  | some r =>
    if readable s r && !r.hot && r.reads = r.stale && r.frag.isNone && readsOut s < maxReads then
      bump Ctr.polls 1 (updRing c (fun q => { q with reads := q.reads + 1, held := false }) s)
    else s

/-- USHER_POLL (R85). -/
def execUsherPoll (c : Nat) (s : State) : Host.Outcome State Fault Refusal := run (pollRing c) s

/-! ### ENTRY_READ -/

/-- Reads after a valid entry: back-to-back, up to 4 outstanding (R85). -/
def readAhead (c : Nat) (s : State) : State :=
  match s.ush.rings.get? c with
  | none => s
  | some r =>
    if readable s r && r.hot then
      let n := Nat.min (4 - r.reads) (maxReads - readsOut s)
      bump Ctr.hotReads n (updRing c (fun q => { q with reads := q.reads + n }) s)
    else s

/-- A valid entry at SQ_NEXT (R89, R93). -/
def takeEntry (c : Nat) (r : Ring) (e : Entry) (s : State) : State :=
  match structural s r.owner e with
  | some (n, code) => haltFunction c e n code 0xFFFF s
  | none =>
    if e.fragCount ≠ 0 then readAhead c (updRing c (fun q => { q with frag := some e, hot := true }) s)
    else readAhead c (seatEntry c e [] (updRing c (fun q => { q with hot := true }) s))

/-- A read of an entry returns. A read issued after the first invalid entry is discarded unexamined; an entry whose phase
is not EXP_PHASE ends the hot state (R77, R85); during an intermission or a reset the entry stays in its ring (R31). -/
def entryArrives (c : Nat) (e : Entry) (s : State) : State :=
  match s.ush.rings.get? c with
  | none => s
  | some r =>
    if r.reads = 0 ∨ r.frag.isSome then s
    else if r.stale ≠ 0 then updRing c (fun q => { q with reads := q.reads - 1, stale := q.stale - 1 }) s
    else
      let s := updRing c (fun q => { q with reads := q.reads - 1 }) s
      if !readable s r || e.phase != r.expPhase then updRing c stopReads s
      else takeEntry c r e s

/-- ENTRY_READ (R85). An entry read while software is still writing it has an undefined outcome (R78). -/
def execEntryRead (c : Nat) (e : Entry) (torn : Bool) (s : State) : Host.Outcome State Fault Refusal :=
  if torn then .fault (.tornEntry c) else run (entryArrives c e) s

/-! ### FRAGMENT_LIST_READ -/

/-- The fragment list of the entry that waits for it arrives: checks 8 and 9, then admission (R89). -/
def fragmentsArrive (c : Nat) (fs : List Fragment) (s : State) : State :=
  match s.ush.rings.get? c with
  | none => s
  | some r => match r.frag with
    | none => s
    | some e =>
      if fs.length ≠ e.fragCount.toNat then s
      else if !readable s r then updRing c stopReads s
      else match fragmentChecks e fs with
        | some (n, code, i) => haltFunction c e n code i s
        | none => readAhead c (seatEntry c e fs (updRing c (fun q => { q with frag := none }) s))

/-- FRAGMENT_LIST_READ (R89). -/
def execFragmentListRead (c : Nat) (fs : List Fragment) (s : State) : Host.Outcome State Fault Refusal :=
  run (fragmentsArrive c fs) s

/-! ### Rings that stop (R51, R18) -/

/-- A ring stops: STATE 4, its cause, an event, and its source; nothing more of it is read. -/
def stopRing (c : Nat) (st : Status) (s : State) : State :=
  match s.ush.rings.get? c with
  | none => s
  | some r =>
    let s := updRing c (fun q => { stopReads q with stop := some st }) s
    let s := event 0x0102 1 r.owner ([byte r.ringId, 0] ++ leBytes 2 st.code) s
    raise (if r.owner = 0 then 800 + r.ringId / 2 else 544 + (r.owner - 1) / 16) s

/-! ### Ring registers -/

/-- INTERVAL as stored (R86). -/
def storedInterval (v : Nat) : Nat := if v = 0 then 0 else if v ≤ 3 then 4 else v % 2 ^ 18

/-- RING_INTERVAL_WRITE (R86): the manager rewrites INTERVAL; the new value applies from the next poll. -/
def setInterval (c v : Nat) (s : State) : State :=
  pfWrite (0x80000 + 32 * c + 8) (updRing c fun q => { q with interval := storedInterval (v % 2 ^ 18) }) s

def execRingIntervalWrite (c : Nat) (value : Nat) (s : State) : Host.Outcome State Fault Refusal :=
  run (setInterval c value) s

/-- BUDGET as stored (R97). -/
def storedBudget (v : Nat) : Nat := if v = 0 then 1 else if 256 < v then 256 else v

/-- USH_BUDGET_WRITE (R87): a guarded pair on USH_BUDGET takes effect. -/
def execUshBudgetWrite (value : Nat) (s : State) : Host.Outcome State Fault Refusal :=
  run (pfGuarded 0x40020 fun s => { s with ush := { s.ush with budget := storedBudget (value % 2 ^ 9) } }) s

/-! ### PF ring 0 and set-up checks (R68 to R70) -/

/-- What a set-up names. -/
structure RingSpec where
  fn : Nat
  ringId : Nat
  log2 : Nat
  split : Bool
  irqMode : Nat
  vector : Nat
  interval : Nat
  sqBase : Nat
  cqBase : Nat
  /-- a reserved byte or bit is set -/
  reserved : Bool
  deriving DecidableEq, Repr

/-- The 32 bytes of OP_RING_SETUP (R68). -/
def ringSpecOf (b : Bytes) : RingSpec :=
  { fn := leAt b 0 2, ringId := leAt b 2 1, log2 := leAt b 3 1, split := bit (leAt b 4 1) 0,
    irqMode := bits (leAt b 4 1) 2 1, vector := leAt b 5 1, interval := leAt b 8 4, sqBase := leAt b 16 8,
    cqBase := leAt b 24 8,
    reserved := bits (leAt b 4 1) 7 3 != 0 || leAt b 6 2 != 0 || leAt b 12 4 != 0 }

/-- The context of the ring with a FUNCTION and RING_ID. -/
def ringContext (s : State) (f id : Nat) : Option (Nat × Ring) :=
  s.ush.rings.find? fun x => x.2.owner = f && x.2.ringId = id

/-- The contexts that OP_RING_SETUP may allocate: context 0 stays free for PF ring 0 (R70). -/
def freeContexts (s : State) : List Nat :=
  (List.range Config.ringTotal).filter fun c => c != 0 && (s.ush.rings.get? c).isNone

/-- Check 1 of R68. -/
def ringFunctionOk (s : State) (f : Nat) : Bool := f = 0 || (fnExists s f && (s.ten.table.get? f).isSome)

/-- Check 2 of R68. -/
def ringGeometryOk (s : State) (r : RingSpec) : Bool :=
  !r.reserved && (r.log2 = 0 || (4 ≤ r.log2 && r.log2 ≤ 16 && r.log2 ≤ maxLog2 s)) && (r.split || r.log2 ≤ 8)
    && r.irqMode != 3 && (if r.fn = 0 then 34 ≤ r.vector && r.vector ≤ 255 else 3 ≤ r.vector && r.vector ≤ 15)
    && r.interval ≤ 262143 && r.sqBase % 4096 = 0 && r.cqBase % 4096 = 0 && (r.split || r.cqBase = 0)

def ringQuota (s : State) (f : Nat) : Nat := if f = 0 then pfRings s else (tenantOf s f).rings

/-- The first check of R68 or R69 that fails; `admin` for the set-up of PF ring 0 by registers. A teardown takes no ring
context, so of the third row only the ring quota concerns it (assumption log 109). -/
def ringSetupCheck (s : State) (r : RingSpec) (admin : Bool) : Option Status :=
  if !ringFunctionOk s r.fn || !ringGeometryOk s r then some .invalidInput
  else if ringQuota s r.fn ≤ r.ringId || (r.log2 != 0 && !admin && (freeContexts s = [])) then some .quota
  else if r.log2 = 0 then
    match ringContext s r.fn r.ringId with
    | none => some .invalidInput
    | some (c, q) => if q.interval ≠ 0 ∨ s.seats.any (fun x => x.2.ring = c) then some .busy else none
  else if (ringContext s r.fn r.ringId).isSome then some .busy
  else none

/-- A ring as set-up starts it (R68). -/
def ringStart (r : RingSpec) : Ring :=
  { owner := r.fn, ringId := r.ringId, log2 := r.log2, split := r.split, irqMode := r.irqMode, vector := r.vector,
    interval := storedInterval r.interval, sqBase := r.sqBase, cqBase := r.cqBase, expPhase := true, cqPhase := true,
    sqNext := 0, cqNext := 0, hot := false, reads := 0, stale := 0, admitted := 0, completed := 0, stop := none,
    held := false, frag := none, seq := 0, batch := [] }

/-- A ring that passed its checks is created in context `c`, or torn down. -/
def placeRing (c : Nat) (r : RingSpec) (s : State) : State :=
  if r.log2 = 0 then
    match ringContext s r.fn r.ringId with
    | none => s
    | some (d, _) => { s with ush := { s.ush with rings := s.ush.rings.del d } }
  else { s with ush := { s.ush with rings := s.ush.rings.put c (ringStart r) } }

/-- The set-up that USH_ADMIN_SQ, USH_ADMIN_CQ and USH_ADMIN_CFG give (R97). -/
def adminSpec (s : State) (cfg : Nat) : RingSpec :=
  { fn := 0, ringId := 0, log2 := bits cfg 4 0, split := bit cfg 5, irqMode := bits cfg 7 6, vector := bits cfg 15 8,
    interval := bits cfg 49 32, sqBase := s.ush.adminSq, cqBase := s.ush.adminCq, reserved := false }

/-- The writable fields of USH_ADMIN_CFG. -/
def keptAdminCfg (v : Nat) : Nat := bits v 16 0 + fld (bits v 49 32) 32

/-- A write of the other fields of PF ring 0's set-up: discarded while the ring exists (R70). -/
def adminWrite (f : Ush → Ush) (s : State) : State :=
  if (ringContext s 0 0).isSome then s else { s with ush := f s.ush }

/-- A write of USH_ADMIN_CFG (R70). With ENABLE set and no PF ring 0 it creates the ring under the checks of R68 (a LOG2_SIZE
of 0 creates nothing, so it fails them); with PF ring 0 present, clearing ENABLE tears it down under R69, and every other
write is discarded. -/
def adminCfg (v : Nat) (s : State) : State :=
  let kept := keptAdminCfg v
  match ringContext s 0 0 with
    | some _ =>
      if bit v 16 then s
      else match ringSetupCheck s { adminSpec s v with log2 := 0, vector := 34, interval := 0, irqMode := 0, cqBase := 0 } true with
        | some _ => s
        | none =>
          let s := placeRing 0 { adminSpec s v with log2 := 0 } s
          { s with ush := { s.ush with adminCfg := kept } }
    | none =>
      let s' := { s with ush := { s.ush with adminCfg := kept } }
      if !bit v 16 then s'
      else
        let spec := adminSpec s v
        if spec.log2 = 0 then { s' with ush := { s'.ush with setupErr := true } }
        else match ringSetupCheck s spec true with
          | some _ => { s' with ush := { s'.ush with setupErr := true } }
          | none =>
            let s' := placeRing 0 spec s'
            { s' with ush := { s'.ush with setupErr := false } }

/-- USH_ADMIN_CFG_WRITE (R70). -/
def execUshAdminCfgWrite (value : BitVec 64) (s : State) : Host.Outcome State Fault Refusal :=
  run (pfWrite 0x40010 (adminCfg value.toNat)) s

/-! ### Ring reset (R92) -/

/-- The values a ring takes at a reset of its function; its own addresses, mode, vector and RING_ID stay. -/
def resetRing (r : Ring) : Ring :=
  { r with sqNext := 0, cqNext := 0, expPhase := true, cqPhase := true, interval := 0, hot := false, reads := 0,
           stale := 0, stop := none, held := false, frag := none, batch := [] }

/-- Every ring of a function takes the values of R92 and its halt flag clears. -/
def resetRings (f : Nat) (s : State) : State :=
  { s with ush := { s.ush with rings := s.ush.rings.mapRows fun _ q => if q.owner = f then resetRing q else q,
                               halted := s.ush.halted.filter fun g => g != f } }

/-- USH_PF_RESTART (R92): the PF's rings are reset, and its halt ends. -/
def execUshPfRestart (value : BitVec 64) (s : State) : Host.Outcome State Fault Refusal :=
  run (pfWrite 0x40018 fun s => if value.getLsbD 0 then resetRings 0 s else s) s

end Sys2Proof.Machine
end

