-- ==== Sys2Proof/Machine/Dispatcher.lean ====
section
/-! DEFINITION. Staging, the grant of wings pages, and the dispatcher: which seat is served, the checks made at dispatch,
and what a dispatched operation is given. -/

namespace Sys2Proof.Machine

/-! ### Input bytes (R74, R236, R242) -/

/-- Bytes that the host delivers: the input without its key fragments. -/
def hostLen (x : Seat) : Nat := x.entry.len - sumOf ((x.frags.filter Fragment.isKey).map fun f => f.length.toNat)

/-- Host bytes among the first `p` bytes of the input. -/
def hostBefore (x : Seat) (p : Nat) : Nat :=
  if x.frags = [] then Nat.min p x.entry.len
  else (x.frags.foldl (fun c f =>
    let n := f.length.toNat
    (c.1 + n, c.2 + (if f.isKey then 0 else Nat.min n (p - c.1)))) (0, 0)).2

/-- The chunks of 65,536 bytes of a streamed input, and the host bytes of chunk `j` (R237). -/
def chunkCount (x : Seat) : Nat := ceilDiv x.entry.len 65536
def chunkLen (x : Seat) (j : Nat) : Nat := hostBefore x (65536 * (j + 1)) - hostBefore x (65536 * j)

/-- The bytes of a key fragment: the slot's secret, zero beyond its end, each XORed with XOR_BYTE (R242). -/
def keyBytes (s : State) (f : Fragment) : Bytes :=
  let m := match s.keys.slots.get? (f.handle % 65536) with | some x => x.material | none => []
  (padTo f.length.toNat m).map fun b => b ^^^ f.xorByte

/-- The fragments in list order, host bytes taken from `host`. -/
def assemble (s : State) (host : Bytes) : List Fragment → Bytes
  | [] => []
  | f :: r =>
    if f.isKey then keyBytes s f ++ assemble s host r
    else host.take f.length.toNat ++ assemble s (host.drop f.length.toNat) r

/-- The operation's input: INLINE bytes, one buffer, or fragments in list order (R236). -/
def fullInput (s : State) (x : Seat) : Bytes :=
  if x.frags.any Fragment.isKey then assemble s (x.input.getD []) x.frags else x.input.getD []

/-! ### PAGE_GRANT (R95, R107) -/

/-- The oldest seat of a function that waits for pages. -/
def oldestWaiting (s : State) (f : Nat) : Option (Nat × Seat) :=
  (seatsOf s f).foldl (fun b y => if y.2.phase != .waiting then b else match b with
    | none => some y
    | some z => if y.2.order < z.2.order then some y else some z) none

/-- The demand fits the function's page quota, as it stood at admission (R102, R107). -/
def fitsQuota (s : State) (x : Seat) : Bool := x.fn = 0 || pagesOf s x.fn + x.demand ≤ x.quota.pages

/-- The demand fits the free wings pages. -/
def fitsPages (s : State) (x : Seat) : Bool := pagesHeld s + x.demand ≤ wingsTotal s

/-- How far a function stands behind the one served last, in round-robin order. -/
def turn (last f : Nat) : Nat := (f + (Config.vfTotal + 1) - (last + 1) % (Config.vfTotal + 1)) % (Config.vfTotal + 1)

/-- The oldest waiting seats of the functions whose quota admits them, in round-robin order from the last grant. -/
def grantOrder (s : State) : List (Nat × Seat) :=
  let fs := s.seats.foldl (fun l y => if y.2.phase = .waiting then insertSorted (turn s.ush.granted y.2.fn) l else l) []
  fs.filterMap fun d =>
    match oldestWaiting s ((s.ush.granted + 1 + d) % (Config.vfTotal + 1)) with
    | none => none
    | some y => if fitsQuota s y.2 then some y else none

/-- The seat that receives pages next: while a function has been passed over 16 times in a row, only such functions. -/
def nextGrant (s : State) : Option (Nat × Seat) :=
  let c := grantOrder s
  match c.find? fun y => 16 ≤ s.ush.passed.getD y.2.fn 0 with
  | some y => if fitsPages s y.2 then some y else none
  | none => c.find? fun y => fitsPages s y.2

/-- Input that is already there when the pages are: INLINE bytes, or none from the host. -/
def readyInput (x : Seat) : Option Bytes :=
  if hostLen x = 0 then some []
  else if streamedInput x.header x.entry then none
  else if x.entry.inlineIn then some (x.entry.inline.take x.entry.len)
  else none

/-- The reads of an operand that a function may master the bus for are issued: two chunks ahead of the one being processed,
or the whole input (R50, R198, R237). -/
def askOperand (s : State) (x : Seat) : Seat :=
  if canMaster s x.fn && x.phase != .waiting then { x with asked := x.processed + 2 } else x

/-- Pages go to the next seat; the functions before it in turn were passed over. -/
def grantPages (s : State) : State :=
  match nextGrant s with
  | none => s
  | some (k, x) =>
    let skipped := (grantOrder s).takeWhile fun y => y.1 != k
    let passed := skipped.foldl (fun t y => t.put y.2.fn (t.getD y.2.fn 0 + 1)) (s.ush.passed.del x.fn)
    let s := { s with ush := { s.ush with granted := x.fn, passed := passed } }
    updSeat k (fun y => askOperand s { y with phase := .granted, input := readyInput y }) s

/-- PAGE_GRANT (R95). -/
def execPageGrant (s : State) : Host.Outcome State Fault Refusal := run grantPages s

/-! ### OPERAND_STAGED, STREAM_CHUNK_STAGED, CHUNK_PROCESSED (R198, R237, R307) -/

/-- Pages are held and the operation has not ended. -/
def stagingOpen (x : Seat) : Bool := x.phase = .granted || x.phase = .executing

/-- The whole input of an operation that does not stream reaches the wings. -/
def stageOperand (k : Nat) (input : Bytes) (s : State) : State :=
  match s.seats.get? k with
  | none => s
  | some x =>
    if stagingOpen x && x.input.isNone && !streamedInput x.header x.entry && input.length = hostLen x && x.asked != 0 then
      updSeat k (fun y => { y with input := some input }) s
    else s

/-- OPERAND_STAGED (R307). -/
def execOperandStaged (k : Nat) (input : Bytes) (s : State) : Host.Outcome State Fault Refusal :=
  run (stageOperand k input) s

/-- Digest streams and OP_STAGE_LOAD absorb a chunk as soon as they run; a McEliece key and a customer script take them one
by one (R198, R237, R339). -/
def absorbsAtOnce (x : Seat) : Bool := x.entry.opc != 0x401 && !isCustomer x.entry.opc

/-- Chunk j + 2 is read once chunk j is processed: two buffers (R198, R237). -/
def stageChunk (k : Nat) (chunk : Bytes) (s : State) : State :=
  match s.seats.get? k with
  | none => s
  | some x =>
    if stagingOpen x && streamedInput x.header x.entry && x.input.isNone && x.staged < chunkCount x
        && x.staged < x.processed + 2 && x.staged < x.asked && chunk.length = chunkLen x x.staged then
      updSeat k (fun y =>
        let all := y.chunks ++ chunk
        askOperand s
          { y with chunks := all, staged := y.staged + 1,
                   processed := if y.phase = .executing && absorbsAtOnce y then y.staged + 1 else y.processed,
                   input := if y.staged + 1 = chunkCount y then some all else none }) s
    else s

/-- STREAM_CHUNK_STAGED (R198). -/
def execStreamChunkStaged (k : Nat) (chunk : Bytes) (s : State) : Host.Outcome State Fault Refusal :=
  run (stageChunk k chunk) s

/-- The pair finishes a chunk of a streamed McEliece key. -/
def processChunk (k : Nat) (s : State) : State :=
  match s.seats.get? k with
  | none => s
  | some x =>
    if x.phase = .executing && x.entry.opc = 0x401 && x.processed < x.staged then
      updSeat k (fun y => askOperand s { y with processed := y.processed + 1 }) s
    else s

/-- CHUNK_PROCESSED (R198). -/
def execChunkProcessed (k : Nat) (s : State) : Host.Outcome State Fault Refusal := run (processChunk k) s

/-! ### Host reads that fail (R49, R51, R237, R238) -/

/-- The stream that a failed streamed absorb leaves BROKEN: it is OPEN, and the first chunk has been absorbed. -/
def brokenStream (s : State) (x : Seat) : Option Nat :=
  if (x.entry.opc = 0x601 ∨ x.entry.opc = 0x602) ∧ streamedInput x.header x.entry ∧ 1 ≤ x.processed then
    (namedStream x).filter fun i => match s.dig.streams.get? i with | some t => t.state = .opened | none => false
  else none

/-- An operation's input read fails: it ends with E_HOST_READ. -/
def operandFails (k : Nat) (s : State) : State :=
  match s.seats.get? k with
  | none => s
  | some x =>
    let s := match brokenStream s x with
      | none => s
      | some i => { s with dig := { s.dig with streams := s.dig.streams.upd i fun t => { t with state := .broken } } }
    endSeat k .hostRead s

/-- A read is outstanding for the target, and its function. -/
def readOutstanding (s : State) (r : ReadTarget) : Option Nat :=
  match r with
  | .entry c => (match s.ush.rings.get? c with
    | some q => if q.stale < q.reads then some q.owner else none
    | none => none)
  | .fragments c => (match s.ush.rings.get? c with
    | some q => if q.frag.isSome then some q.owner else none
    | none => none)
  | .operand k => (match s.seats.get? k with
    | some x => if stagingOpen x && x.input.isNone then some x.fn else none
    | none => none)

/-- The AER statuses of a failed read: an Unsupported Request or Completer Abort is advisory non-fatal (R51). -/
def logReadError (f : Nat) (a : Aer) (s : State) : State :=
  let s := logAer f a s
  if a = .unsupportedRequest ∨ a = .completerAbort then logAer f .advisoryNonFatal s else s

/-- A DMA read fails: the AER status of the owning function, and the end of the operation or the stop of the ring (R51). -/
def readFails (r : ReadTarget) (a : Aer) (s : State) : State :=
  match readOutstanding s r with
  | none => s
  | some f =>
    let s := logReadError f a s
    match r with
    | .entry c => stopRing c .hostRead (updRing c (fun q => { q with reads := q.reads - 1 }) s)
    | .fragments c => stopRing c .hostRead s
    | .operand k => operandFails k s

def ReadError.aer : ReadError → Aer
  | .ur => .unsupportedRequest
  | .ca => .completerAbort
  | .poison => .poisoned

/-- DMA_READ_ERROR (R51). -/
def execDmaReadError (r : ReadTarget) (kind : ReadError) (s : State) : Host.Outcome State Fault Refusal :=
  run (readFails r (ReadError.aer kind)) s

/-- The completion timeout of a function is disabled: bit 4 of its Device Control 2 value (R49). -/
def timeoutOff (s : State) (f : Nat) : Bool := bit (s.pcie.completionTimeout.getD f 0) 4

/-- A timeout expires where it is enabled (R49). -/
def timeoutFails (r : ReadTarget) (s : State) : State :=
  match readOutstanding s r with
  | none => s
  | some f => if timeoutOff s f then s else readFails r .completionTimeout s

/-- COMPLETION_TIMEOUT (R49). -/
def execCompletionTimeout (r : ReadTarget) (s : State) : Host.Outcome State Fault Refusal := run (timeoutFails r) s

/-! ### The operation under the configuration in force (R24, R393) -/

/-- The pool that serves the seat's opcode; 0xFF, or no entry, for none. -/
def poolOf (x : Seat) : Nat := x.pool.getD 0xFF

/-- The tiles of a pool are split. -/
def poolSplit (s : State) (p : Nat) : Bool := s.til.tiles.any fun t => t.pool = p && t.state = .active && t.split

/-- The width at which the operation runs: of its pool as the dispatcher serves it, and from then on of its dispatch
(R24, R25). -/
def runsHalf (s : State) (x : Seat) : Bool := if x.run = 0 then poolSplit s (poolOf x) else x.half

/-- The header of a customer opcode of a width, as admission found it (R24, R353). -/
def seatHeader (x : Seat) (half : Bool) : Option Header := x.headers.find? fun h => h.width = bnat half

/-- The image holds a header of the pool's width (R304, R393). -/
def widthOk (s : State) (x : Seat) : Bool :=
  let half := poolSplit s (poolOf x)
  if poolOf x = 0xFF then true
  else if isCustomer x.entry.opc then (seatHeader x half).isSome
  else !half || (halfQuarters x.entry.opc x.entry.ps).isSome

/-! ### What an operation asks for -/

/-- Bytes of the material that a key-creating entry stores (R127, R134, R151, R165, R173, R190, R206, R217, R261 to R263). -/
def newKeyLen (s : State) (e : Entry) : Nat :=
  let p := e.ps
  match e.opc with
  | 0x020 => e.len
  | 0x101 => e.len - 24
  | 0x100 => e.argN 2 2
  | 0x103 => e.argN 2 2
  | 0x310 => 76 + (hssN p).getD 0
  | 0x320 => (match xmss p with | some x => 4 * famN x.2.2 | none => 0)
  | 0x200 => 64
  | 0x210 => 32
  | 0x220 => (formLen s 3 p 1).getD 0
  | 0x230 => 128
  | 0x300 => (formLen s 5 p 1).getD 0
  | 0x400 => 40
  | 0x410 => 96
  | 0x500 => (formLen s 10 p 1).getD 0
  | 0x510 => (formLen s 11 p 1).getD 0
  | 0x520 => (formLen s 12 p 1).getD 0
  | 0x528 => if e.arg 0 = 0 then 64 else 32
  | 0x529 => if e.arg 0 = 0 then 112 else 56
  | 0x201 => 32
  | 0x202 => 32
  | 0x401 => 32
  | 0x402 => 32
  | 0x411 => 64
  | 0x412 => 64
  | 0x231 => if e.argBit 0 2 then 32 else (match hybrid p with | some h => h.secret | none => 0)
  | 0x232 => if e.argBit 0 2 then 32 else (match hybrid p with | some h => h.secret | none => 0)
  | 0x513 => (match curveOf s p with | some c => c.fb | none => 0)
  | _ => 0

/-- Material units of a length (R251). -/
def unitsFor (len : Nat) : Nat := Nat.max 1 (ceilDiv len 64)

/-- Material units of a deposited secret: 2 for 64 bytes (R134). -/
def depositUnits (len : Nat) : Nat := if len = 64 then 2 else unitsFor len

/-- The operation will change the key table (R257). -/
def keyChange (e : Entry) : Bool := createsKey e || e.opc = 0x104 || e.opc = 0x015

/-- Units that it writes. -/
def changeUnits (s : State) (e : Entry) : Nat := if deposits e then depositUnits (newKeyLen s e) else if createsKey e then unitsFor (newKeyLen s e) else 0

/-- The one slot it names to change, for the credit of one commit per slot (R257). -/
def changeSlot (e : Entry) : Option Nat :=
  if e.opc = 0x104 then some (e.keyHandle.toNat % 65536)
  else if createsKey e && e.auxHandle != 0 then some (e.auxHandle.toNat % 65536)
  else none

/-- The partition that it changes: the function whose slots it creates, replaces, destroys, reserves or erases. -/
def changesPartition (s : State) (x : Seat) : Option Nat :=
  let e := x.entry
  if e.opc = 0x020 then some (e.argN 4 2)
  else if createsKey e then some x.fn
  else if e.opc = 0x104 then (match slotOf s e.keyHandle.toNat with | some y => some y.2.owner | none => some x.fn)
  else if e.opc = 0x010 then some (leAt (fullInput s x) 0 2)
  else if e.opc = 0x015 then some (e.argN 0 2)
  else if isStatefulSign e.opc then some x.fn
  else none

/-- The stateful key that a signature names: of the opcode's family and the entry's PARAM_SET (R186). -/
def signingKey (s : State) (x : Seat) : Option (Nat × Stateful) :=
  if isStatefulSign x.entry.opc then
    match slotOf s x.entry.keyHandle.toNat with
    | none => none
    | some (i, y) =>
      if y.family = (if x.entry.opc = 0x311 then 6 else 7) ∧ y.paramSet = x.entry.ps then
        (s.keys.stateful.get? i).map fun z => (i, z)
      else none
  else none

/-- The signature takes the first leaf of a block. -/
def reservesBlock (y : Stateful) : Bool := y.remaining = 0

/-- The approval that an operation consumes: action and argument (R437, R441). The digest of an enrolled key is that of the
staged input. -/
def approvalNeeded (s : State) (x : Seat) : Option (Nat × Bytes) :=
  let e := x.entry
  match e.opc with
  | 0x061 => if e.argBit 0 0 then none else some (2, [])
  | 0x032 =>
    if e.arg 0 = 0 then some (5, [0, byte (e.arg 1)] ++ digestOf 0x0612 (fullInput s x) 32)
    else if e.arg 0 = 1 then some (5, [1, byte (e.arg 1)]) else none
  | 0x050 => if e.arg 0 ≤ 1 then some (6, leBytes 8 (e.argN 8 8)) else none
  | 0x052 => some (7, leBytes 8 (e.argN 8 8))
  | _ => none

/-! ### Ready (R33, R306) -/

/-- Two operations of one slot, stream or log never run together (R177, R233, R258, R484): `y` came earlier. -/
def conflicts (x y : Seat) : Bool :=
  ((namedSlots x).any fun i => (namedSlots y).contains i && (changesSlot x i || changesSlot y i))
    || (isStatefulSign x.entry.opc && isStatefulSign y.entry.opc
        && x.entry.keyHandle.toNat % 65536 = y.entry.keyHandle.toNat % 65536)
    || ((namedStream x).isSome && namedStream x = namedStream y)
    || ([0x060, 0x061].contains x.entry.opc && [0x060, 0x061].contains y.entry.opc)

/-- Nothing admitted earlier holds the seat back. -/
def turnCome (s : State) (x : Seat) : Bool :=
  s.seats.all fun y => !y.2.open || x.order ≤ y.2.order
    || !((x.entry.fence && y.2.ring = x.ring) || conflicts x y.2)

/-- A change to a partition homed here waits out JOIN_WAIT, and one to a partition being yielded waits (R412, R413). -/
def partitionHeld (s : State) (x : Seat) : Bool :=
  match changesPartition s x with
  | none => false
  | some f => (paired s && !(homeOf s f).twin && s.now < s.twn.joinUntil) || s.twn.yielding.contains f

/-- The image of a plan that an opcode's script comes from. -/
def planImage (p : Plan) (o : Nat) : Option Image := if isCustomer o then p.customer else some p.maker

/-- The image that the seat's opcode needs is still being written (R354). -/
def sceneHeld (s : State) (x : Seat) : Bool :=
  s.scr.sceneChange && (match bankOf s x.bank with
    | none => false
    | some p => (planImage p x.entry.opc).map Image.digest
        != (if isCustomer x.entry.opc then s.scr.customer else s.scr.maker).map Image.digest)

/-- OP_STREAM_RESUME is checked again on its staged blob (R228), an enrolment's approval names its key (R352), and the
input of OP_VF_SETUP names its partition (R409, R412). -/
def stagedEnough (x : Seat) : Bool := !([0x010, 0x032, 0x605].contains x.entry.opc) || x.input.isSome

/-- Key-table credit is available (R257). -/
def creditFor (s : State) (x : Seat) : Bool :=
  x.run != 0 || !keyChange x.entry || creditOk s (changeSlot x.entry) (changeUnits s x.entry)

/-- Ready but for credit. A rerun of a dispatched operation waits for its pair and its lease only (R317). -/
def readyOnCredit (s : State) (x : Seat) : Bool :=
  x.phase = .granted
    && (x.run != 0 || (stagedEnough x && turnCome s x && !partitionHeld s x && !sceneHeld s x))

/-- Ready for dispatch (R306). -/
def ready (s : State) (x : Seat) : Bool := readyOnCredit s x && creditFor s x

/-! ### Checks at dispatch (R228, R511) -/

/-- How an operation ends at dispatch: with a status, or with an output and S_OK (R196). -/
inductive Ending where
  | status (st : Status)
  | output (out : Bytes)
  deriving DecidableEq, Repr

/-- A key-table opcode whose statuses at the commit instant have no place for a handle that names nothing: it ends at dispatch,
uncharged (R275; DEDUCED, assumption log 29). -/
def handleMissing (x : Seat) : Bool :=
  let e := x.entry
  ([0x102, 0x104].contains e.opc || (e.opc = 0x105 && !e.argBit 0 0) || (e.opc = 0x107 && e.arg 0 = 0)) && e.keyHandle = 0
    || e.opc = 0x102 && e.auxHandle = 0

/-- A handle of the seat is stale or its stream closed (R233, R258). -/
def handlesStale (s : State) (x : Seat) : Bool :=
  handleMissing x || handleBad s (keyUse x.header x.entry) x.entry.keyHandle.toNat || handleBad s (auxUse x.header x.entry) x.entry.auxHandle.toNat
    || (x.frags.filter Fragment.isKey).any fun f => (slotOf s f.handle).isNone

/-- The seat's stream is BROKEN and the operation is not CLOSE (R234). -/
def streamBroken (s : State) (x : Seat) : Bool :=
  [0x601, 0x602, 0x603, 0x604].contains x.entry.opc && (match namedStream x with
    | some i => (match s.dig.streams.get? i with | some t => t.state = .broken | none => false)
    | none => false)

/-- What the operation may not do here: use a mirror slot (R268), sign for a partition homed at the twin (R179), or create a
key in it (R413, R268); OP_KEY_WRITE_CLEAR makes that last check inside the interval (R262). -/
def mirrorRefused (s : State) (x : Seat) : Bool :=
  let served := [0x313, 0x323].contains x.entry.opc || (x.fn = 0 && [0x105, 0x106, 0x107].contains x.entry.opc)
  ((namedSlots x).any fun i => match s.keys.slots.get? i with | some y => y.occupied && y.mirror && !served | none => false)
    || ((homeOf s x.fn).twin
        && ((signingKey s x).isSome || (createsKey x.entry && x.entry.opc != 0x020)))

/-- No pair is in service in the pool (R322). -/
def noPair (s : State) (x : Seat) : Bool := poolOf x != 0xFF && poolHalfPairs s (poolOf x) = 0

/-- The signature cannot take a leaf: none is left (R179). -/
def exhausted (s : State) (x : Seat) : Bool :=
  match signingKey s x with
  | none => false
  | some (_, y) => y.nextLeaf.isNone

/-- The signature may not reserve its block while the twin is absent (R178). -/
def reserveRefused (s : State) (x : Seat) : Bool :=
  match signingKey s x with
  | none => false
  | some (_, y) => reservesBlock y && paired s && twinAbsentLive s && !(homeOf s x.fn).adopted

/-- The key is idle and not enough state entries can be freed (R181). -/
def noRoom (s : State) (x : Seat) : Bool :=
  match signingKey s x with
  | none => false
  | some (_, y) => !y.active
    && Config.stateEntryTotal < entriesUsed (makeRoom y.heights.length Config.stateEntryTotal s) + y.heights.length

/-- Pages of the pin area (R384, R196). -/
def pinArea (s : State) : Nat := match activePlan s with | none => 2656 | some p => p.pinPages

/-- The McEliece slot that OP_MCE_PIN names, with its pages. -/
def pinTarget (s : State) (x : Seat) : Option (Nat × Nat) :=
  if x.entry.opc = 0x403 then
    match slotOf s x.entry.keyHandle.toNat with
    | none => none
    | some (i, y) => if y.family = 8 ∧ y.paramSet = x.entry.ps then (mceliece y.paramSet).map fun m => (i, m.2.1) else none
  else none

/-- Pages in use and free after OP_MCE_PIN (R195). -/
def pinOutput (s : State) : Bytes := leBytes 4 (pinPagesUsed s) ++ leBytes 4 (pinArea s - pinPagesUsed s)

/-- Pages of pins dispatched and not committed, of slots other than `i`, which are free no longer. -/
def pagesPinning (s : State) (i : Nat) : Nat :=
  sumOf ((s.seats.filter fun y => y.2.phase = .executing && !y.2.entry.argBit 0 0).map fun y =>
    match pinTarget s y.2 with | some (j, n) => if j = i then 0 else n | none => 0)

/-- The pin's outcome at dispatch (R196). -/
def pinEnding (s : State) (x : Seat) : Option Ending :=
  match pinTarget s x with
  | none => none
  | some (i, n) =>
    let pinned := (s.keys.pins.get? i).isSome
    if x.entry.argBit 0 0 then (if pinned then none else some (.output (pinOutput s)))
    else if pinned then some (.output (pinOutput s))
    else if pinArea s < pinPagesUsed s + pagesPinning s i + n then some (.status .busy) else none

/-- The function whose partition a new key joins (R262). -/
def keyOwner (x : Seat) : Nat := if x.entry.opc = 0x020 then x.entry.argN 4 2 else x.fn

/-- The opcodes that open a stream. -/
def opensStream (o : Nat) : Bool := o = 0x600 || o = 0x605

/-- Slots, units and streams that a new key or stream takes: the owner's quota as it stood at admission (R102, R107); slots
and units count from the commit instants that create them. OP_KEY_WRITE_CLEAR for an OWNER that is not set up fails its own
check, inside the interval (R262). -/
def quotaReached (s : State) (x : Seat) : Bool :=
  let f := keyOwner x
  (createsKey x.entry && f != 0 && (x.entry.opc != 0x020 || (s.ten.table.get? f).isSome)
      && ((x.entry.auxHandle = 0 && x.quota.slots ≤ (slotsOf s f).length)
        || x.quota.units < unitsOf s f + changeUnits s x.entry))
    || (opensStream x.entry.opc && x.fn != 0 && x.quota.streams ≤ (streamsOf s x.fn).length)

/-- No stream index is free (R107). -/
def streamsFull (s : State) (x : Seat) : Bool := opensStream x.entry.opc && Config.streamTotal ≤ s.dig.streams.length

/-- The free slots or units do not cover the new key (R510). -/
def tableFull (s : State) (x : Seat) : Bool :=
  createsKey x.entry && ((x.entry.auxHandle = 0 && Config.slotTotal ≤ slotsUsed s)
    || Config.unitTotal < unitsUsed s + changeUnits s x.entry)

/-- The byte count would pass the limit of the algorithm (R236). -/
def messageTooLong (s : State) (x : Seat) : Bool :=
  match x.entry.opc with
  | 0x600 => digestLimit x.entry.ps < x.entry.len
  | 0x601 => (match streamOf s x.entry.auxHandle.toNat with | some (_, t) => digestLimit t.alg < t.count + x.entry.len | none => false)
  | 0x602 => (match streamOf s x.entry.auxHandle.toNat with | some (_, t) => digestLimit t.alg < t.count + x.entry.len | none => false)
  | _ => false

/-- The KEYED bit of a suspended-stream blob (R243). -/
def blobKeyed (b : Bytes) : Bool := bit (leAt b 0 4) 24

/-- A rerun finds no fresh pair in service: fewer than two tiles of its pool and width took no part in an earlier run
(R25, R317, R322). -/
def noFreshPair (s : State) (x : Seat) : Bool :=
  poolOf x != 0xFF
    && (noPair s x
      || ((poolTiles s (poolOf x)).filter fun t => !x.used.contains t.1 && t.2.split = x.half).length < 2)

/-- What is decided at dispatch, in the order of R511, after the renewed checks of a RESUME (R228). -/
def dispatchCheck (s : State) (x : Seat) : Option Ending :=
  let keyed := x.entry.opc = 0x605 && blobKeyed (x.input.getD [])
  if x.run != 0 then (if noFreshPair s x then some (.status .faultRepeat) else none)
  else if keyed && s.tmp.curtainDown then some (.status .curtain)
  else if keyed && s.tmp.hold then some (.status .hold)
  else if handlesStale s x then some (.status .keyHandle)
  else if streamBroken s x then some (.status .streamBroken)
  else if mirrorRefused s x then some (.status .keyOwner)
  else if noPair s x then some (.status .faultRepeat)
  else if exhausted s x then some (.status .keyExhausted)
  else if x.pool.isNone || !widthOk s x || reserveRefused s x || noRoom s x then some (.status .busy)
  else match pinEnding s x with
    | some e => some e
    | none =>
      if quotaReached s x then some (.status .quota)
      else if streamsFull s x then some (.status .streamLimit)
      else if tableFull s x then some (.status .tableFull)
      else if messageTooLong s x then some (.status .length)
      else none

/-! ### Resources (R289, R291, R305, R306, R310) -/

/-- The operation needs a pair. -/
def needsPair (x : Seat) : Bool := poolOf x != 0xFF

/-- Free units of the pool, of the operation's width, whose tiles took part in no earlier run: halves where the pool is split
(R305, R317). -/
def freeUnits (s : State) (p : Nat) (half : Bool) (used : List Nat) : List Nat :=
  (List.range s.til.tiles.length).flatMap fun t =>
    let x := tileAt s t
    if x.state != .active || x.pool != p || x.split != half || x.next.isSome || used.contains t then []
    else if x.split then (if bit x.busy 0 then [] else [2 * t]) ++ (if bit x.busy 1 then [] else [2 * t + 1])
    else if x.busy = 0 then [2 * t] else []

/-- Units that can serve the seat now: with live mask generators, where masks are needed and randomness still comes
(R291, R292, R295). -/
def candidates (s : State) (x : Seat) : List Nat :=
  let us := freeUnits s (poolOf x) (runsHalf s x) x.used
  if needsMasks s x.header x.entry x.frags && !noMoreEntropy s then us.filter (maskOk s) else us

/-- Pairs that a list of units offers: the halves of one tile never pair (R305). -/
def pairsOf (us : List Nat) : Nat :=
  let tiles := us.foldl (fun l u => insertSorted (u / 2) l) []
  if tiles.length < 2 then 0 else Nat.min (us.length / 2) us.length

/-- The pair: any two of the candidates. -/
def pickPair (s : State) (us : List Nat) : Nat × Nat :=
  let a := us.getD (Config.choice s.free % us.length) 0
  let rest := us.filter fun u => u / 2 != a / 2
  (a, rest.getD (Config.choice (s.free + 1) % rest.length) 0)

/-- The lease of the operation, with the header of its width for a customer opcode (R310). -/
def leaseNeed (s : State) (x : Seat) : Lease :=
  let digest := isDigest x.entry.opc
  let group := match activePlan s with
    | none => 0
    | some p => if digest then p.digestGroup else (p.poolGroup[poolOf x]?).getD 0
  let n := if isCustomer x.entry.opc then
      (match seatHeader x (runsHalf s x) with | some h => (2 * h.keccak, 2 * h.sha2) | none => (0, 0))
    else leaseOf s x.entry (x.input.getD [])
  { group := group, keccak := n.1, sha2 := n.2 }

/-- Cores of a hash group that no lease holds. -/
def freeCores (s : State) (g : Nat) : Nat × Nat :=
  match activePlan s with
  | none => (0, 0)
  | some p => ((p.keccak[g]?).getD 0 - (s.til.leased.getD g (0, 0)).1, (p.sha2[g]?).getD 0 - (s.til.leased.getD g (0, 0)).2)

/-- The operation's DRBG bytes: a stated length, the row of a customer header, or an amount that no rule gives. -/
def drbgBytes (s : State) (x : Seat) : Nat :=
  match x.entry.opc with
  | 0x700 => if x.entry.argN 0 4 ≤ 65536 then x.entry.argN 0 4 else 0
  | 0x100 => x.entry.argN 2 2
  | o =>
    if isCustomer o then
      (match seatHeader x (runsHalf s x) with
      | none => 0
      | some h => match headerRow h x.entry.ps with | some r => leAt r.2 48 4 | none => 0)
    else Config.drbgAmount o x.entry.ps % 65537

/-- An instance serves, or none is needed, or none will ever come and the operation fails with E_ENTROPY (R292, R295). -/
def drbgReady (s : State) (x : Seat) : Bool := x.run != 0 || !drawsDrbg s x.header x.entry || (servingInst s).isSome || noMoreEntropy s

/-- In turn before `x`: function round-robin, then admission order (R306). -/
def goesBefore (s : State) (y x : Seat) : Bool :=
  let dy := turn s.til.served y.fn
  let dx := turn s.til.served x.fn
  dy < dx || (dy = dx && y.order < x.order)

/-- Ready seats for which a pair and a lease are reserved: passed over 64 times, and before `x` where `x` has been too. -/
def reservers (s : State) (k : Nat) (x : Seat) : List Seat :=
  (s.seats.filter fun y => y.1 != k && 64 ≤ y.2.passed && ready s y.2 && (dispatchCheck s y.2).isNone
    && (x.passed < 64 || goesBefore s y.2 x)).map Prod.snd

/-- A pair is free. -/
def pairFree (s : State) (k : Nat) (x : Seat) : Bool :=
  !needsPair x
    || ((reservers s k x).filter fun y => needsPair y && poolOf y = poolOf x).length < pairsOf (candidates s x)

/-- The lease is free. -/
def leaseFree (s : State) (k : Nat) (x : Seat) : Bool :=
  let l := leaseNeed s x
  let kept := ((reservers s k x).map (leaseNeed s)).filter fun m => m.group = l.group
  let free := freeCores s l.group
  (l.keccak = 0 || l.keccak + sumOf (kept.map Lease.keccak) ≤ free.1)
    && (l.sha2 = 0 || l.sha2 + sumOf (kept.map Lease.sha2) ≤ free.2)

/-- Pair, lease and DRBG reservation are available together (R306). -/
def resourcesFree (s : State) (k : Nat) (x : Seat) : Bool := pairFree s k x && leaseFree s k x && drbgReady s x

/-- A ready seat that ends at dispatch, or has its resources. -/
def servable (s : State) (k : Nat) (x : Seat) : Bool :=
  ready s x && ((dispatchCheck s x).isSome || resourcesFree s k x)

/-- Seat `k` is the one that the dispatcher serves next. -/
def servedNext (s : State) (k : Nat) (x : Seat) : Bool :=
  servable s k x && s.seats.all fun y => y.1 = k || !goesBefore s y.2 x || !servable s y.1 y.2

/-! ### The assignment -/

/-- The header that a seat runs at a width: of the customer image, or of the maker's. -/
def headerOf (s : State) (x : Seat) (half : Bool) : Option Header :=
  match bankOf s x.bank with
  | none => none
  | some p =>
    if isCustomer x.entry.opc then customerHeader p x.entry.opc (bnat half)
    else if p.maker.bytes = [] then some (makerHeader x.entry.opc (bnat half))
    else findHeader p.maker.bytes x.entry.opc (bnat half)

/-- The footprint of the seat's script at a width (R331). -/
def footprintOf (s : State) (x : Seat) (half : Bool) : Footprint :=
  let img := (bankOf s x.bank).bind fun p => planImage p x.entry.opc
  { image := match img with | some i => i.digest | none => [],
    ranges := match headerOf s x half with | some h => h.footprint | none => [] }

def Footprint.words (f : Footprint) : Nat := sumOf (f.ranges.map Prod.snd)

/-- The footprints that a cache of `room` words still holds, the last used first. -/
def keepFootprints (room : Nat) : List Footprint → List Footprint
  | [] => []
  | f :: r => if f.words ≤ room then f :: keepFootprints (room - f.words) r else []

/-- Half `u` of a tile, or the whole tile, becomes busy; the run is counted, and the footprint loaded into its script cache
unless it is resident, in the place of those used least recently (R331). -/
def takeUnit (f : Footprint) (half : Bool) (u : Nat) (s : State) : State :=
  let t := u / 2
  let old := if u % 2 = 0 then (tileAt s t).cached else (tileAt s t).cachedB
  let now := keepFootprints (if half then 2048 else 4096) (f :: old.filter fun g => g != f)
  let take (y : Tile) : Tile :=
    { y with busy := y.busy + (if bit y.busy (u % 2) then 0 else 2 ^ (u % 2)),
             cached := if u % 2 = 0 then now else y.cached, cachedB := if u % 2 = 0 then y.cachedB else now }
  bump Ctr.scrFills (if old.contains f then 0 else 1) (bump (Ctr.tilOps t) 1 (updTile t take s))

/-- The pair of a run. -/
def assignPair (k : Nat) (x : Seat) (s : State) : State :=
  if !needsPair x then s
  else
    let us := candidates s x
    let (a, b) := pickPair s us
    let half := runsHalf s x
    let masked := needsMasks s x.header x.entry x.frags
    let dry := masked && x.run = 0 && noMoreEntropy s && (maskDry s a || maskDry s b)
    let s := spend (spend s)
    let s := takeUnit (footprintOf s x half) half b (takeUnit (footprintOf s x half) half a s)
    let s := countMaskOp b (countMaskOp a s)
    updSeat k (fun y => { y with tileA := some a, tileB := some b, half := half, used := y.used ++ [a / 2, b / 2],
                                 noEntropy := y.noEntropy || dry }) s

/-- The lease of a run. -/
def assignLease (k : Nat) (x : Seat) (s : State) : State :=
  let l := leaseNeed s x
  let c := s.til.leased.getD l.group (0, 0)
  let s := { s with til := { s.til with leased := s.til.leased.put l.group (c.1 + l.keccak, c.2 + l.sha2) } }
  updSeat k (fun y => { y with lease := l }) s

/-- The DRBG reservation (R289): all bytes in one request, from the instance with the fewest bytes pending. -/
def assignDrbg (k : Nat) (x : Seat) (s : State) : State :=
  if !drawsDrbg s x.header x.entry then s
  else match servingInst s with
    | none => updSeat k (fun y => { y with noEntropy := true }) s
    | some i =>
      let n := drbgBytes s x
      let y0 : Seat := { x with gen := (instAt s i).gen, drbg := s.free, drbgInst := i, drbgLen := n }
      let s := spend (generate i n true s)
      updSeat k (fun y => { y with gen := y0.gen, drbg := y0.drbg, drbgInst := y0.drbgInst, drbgLen := y0.drbgLen }) s

/-- The leaf of a stateful signature, its activation and its reservation (R176, R177, R181, R182). While TWIN_ABSENT is live, only
an adopted key reserves, and with a local commit only (R178). -/
def assignLeaf (k : Nat) (x : Seat) (s : State) : State :=
  match signingKey s x with
  | none => s
  | some (i, y) =>
    let work := if y.active then .none else activationWork s y
    let s := if y.active then s else makeRoom y.heights.length Config.stateEntryTotal s
    match takeLeaf i s with
    | none => s
    | some (leaf, record, s) =>
      let s := { s with keys := { s.keys with stateful := s.keys.stateful.upd i fun z => { z with active := true } } }
      updSeat k (fun z => { z with leaf := some leaf, catchUp := work, reserves := record.isSome,
                                   awaits := if sharing s && !twinAbsentLive s then record else none }) s

/-- The approval is reserved when its action and argument match (R441). -/
def assignApproval (k : Nat) (x : Seat) (s : State) : State :=
  match approvalNeeded s x, s.tkb.approval with
  | some (a, arg), .held c =>
    if c.action = a ∧ c.arg = padTo 64 arg then
      updSeat k (fun y => { y with approval := true }) { s with tkb := { s.tkb with approval := .reserved c k } }
    else s
  | _, _ => s

/-- The seat runs the image behind bank `b`, which the plan in force replaces by one with another digest (R354). -/
def boundToOld (s : State) (b : Bool) (x : Seat) : Bool :=
  x.open && x.bank = b && x.table.pool != 0xFF
    && ((bankOf s b).bind fun p => planImage p x.entry.opc).map Image.digest
      != ((activePlan s).bind fun p => planImage p x.entry.opc).map Image.digest

/-- The retention area holds words of the image of a bank: operations bound to it have not ended (R354). -/
def retaining (s : State) (b : Bool) : Bool := s.scr.retainBank = some b && s.seats.any fun x => boundToOld s b x.2

/-- The words of the retention area in use; it is released when the last operation bound to them ends (R354, R355). -/
def retainWords (s : State) : Nat :=
  match s.scr.retainBank with
  | some b => if retaining s b then s.scr.retain else 0
  | none => 0

/-- The bank that OP_STAGE_LOAD names is active, the target of a switch, or behind the retention area (R390). -/
def loadRefused (s : State) (b : Bool) : Bool :=
  s.stg.active = b || (s.stg.switching != .idle && s.stg.target = b) || retaining s b
    || s.stg.loading.any fun l => l.2 = b

/-- A bank empties. Seats admitted under it that need no retained words run the resident image, which is then that of the
active bank (R24, R354). -/
def emptyBank (b : Bool) (s : State) : State :=
  let s := { s with seats := s.seats.mapRows fun _ x => if x.bank = b then { x with bank := s.stg.active } else x }
  if b then { s with stg := { s.stg with bankB := none } } else { s with stg := { s.stg with bankA := none } }

/-- A load empties its bank from dispatch on (R390). -/
def assignBank (k : Nat) (x : Seat) (s : State) : State :=
  if x.entry.opc != 0x030 then s
  else
    let b := x.entry.argBit 0 0
    if loadRefused s b then s
    else
      let s := emptyBank b s
      { s with stg := { s.stg with loading := s.stg.loading ++ [(k, b)] } }

/-! ### The log as OP_LOG_READ returns it (R476, R484): fixed at dispatch -/

/-- The records of the log in ascending sequence order: opening area, running area, buffer (R484). -/
def logRecords (s : State) : List Evt := s.evr.opening ++ s.evr.running ++ s.evr.buffer

/-- The 32 bytes of an event record (R476). -/
def Evt.bytes (e : Evt) : Bytes :=
  leBytes 2 e.code ++ [byte (e.severity + fld (bnat e.backup) 3), byte e.source] ++ leBytes 2 e.fn ++ leBytes 4 e.hours
    ++ leBytes 2 e.fraction ++ leBytes 4 e.cycles ++ leBytes 4 e.sequence ++ padTo 12 e.detail

/-- Sequence number `q` is `start` or follows it (R477). -/
def follows (start q : Nat) : Bool := (q + 2 ^ 32 - start % 2 ^ 32) % 2 ^ 32 < 2 ^ 31

/-- Header and records of a read: those found, how many fit, and the GAP flag. -/
def logAnswer (s : State) (found : List Evt) (fits : Nat) (gap : Bool) : Bytes :=
  let out := found.take fits
  let next := match out.getLast? with | some e => (e.sequence + 1) % 2 ^ 32 | none => s.evr.next
  let first := match (logRecords s).head? with | some e => e.sequence | none => s.evr.next
  leBytes 4 out.length ++ leBytes 4 next ++ leBytes 4 first
    ++ leBytes 4 (bnat gap + fld (bnat (decide (fits < found.length))) 1) ++ out.flatMap Evt.bytes

/-- The output of OP_LOG_READ (R484, R485). -/
def logRead (s : State) (e : Entry) : Bytes :=
  let start := e.argN 0 4
  let f := e.argN 4 2
  let fits := (e.cap - 16) / 32
  let all := logRecords s
  if e.argBit 6 1 then logAnswer s s.evr.history fits false
  else if !e.argBit 6 0 && start = s.evr.next then
    leBytes 4 0 ++ leBytes 4 start ++ leBytes 4 (match all.head? with | some r => r.sequence | none => s.evr.next) ++ leBytes 4 0
  else
    let from_ := if e.argBit 6 0 then all else all.filter fun r => follows start r.sequence
    let gap := !e.argBit 6 0 && !all.any fun r => r.sequence = start
    logAnswer s (from_.filter fun r => f = 0xFFFF || r.fn = f) fits gap

/-- A log read takes the log as it stands at its dispatch. -/
def assignLog (k : Nat) (x : Seat) (s : State) : State :=
  if x.entry.opc = 0x060 then
    let out := logRead s x.entry
    updSeat k (fun y => { y with chunks := out }) s
  else s

/-! ### DISPATCH -/

/-- A rerun starts: it keeps what the operation was given at its dispatch, and takes a pair and a lease (R317). -/
def beginRerun (k : Nat) (x : Seat) (s : State) : State :=
  let s := assignPair k x (assignLease k x s)
  updSeat k (fun y => { y with phase := .executing,
                               processed := if absorbsAtOnce y then y.staged else y.processed }) s

/-- The seat starts to run. -/
def beginRun (k : Nat) (x : Seat) (s : State) : State :=
  let n := changeUnits s x.entry
  let s := assignApproval k x (assignBank k x (assignLog k x s))
  let s := assignPair k x (assignLease k x (assignDrbg k x s))
  let s := assignLeaf k x s
  let s := if keyChange x.entry then takeCredit (changeSlot x.entry) n s else s
  let s := if x.credit.isSome then bump Ctr.ktThrottle 1 s else s
  let s := if x.leaseWait then bump Ctr.leaseWaits 1 s else s
  updSeat k (fun y => { y with phase := .executing, credit := none, leaseWait := false,
                               processed := if absorbsAtOnce y then y.staged else y.processed }) s

/-- Ready seats before the one served, which lacked resources, were passed over once more (R306). -/
def passOver (k : Nat) (x : Seat) (s : State) : State :=
  { s with seats := s.seats.mapRows fun j y =>
      if j != k && goesBefore s y x && ready s y then { y with passed := y.passed + 1 } else y }

/-- The seats that wait only for credit are marked (R257): each dispatch looks at all of them, since only a dispatch takes
credit. -/
def markCredit (s : State) : State :=
  { s with seats := s.seats.mapRows fun _ y =>
      if y.credit.isNone && readyOnCredit s y && !creditFor s y then
        { y with credit := some (changeSlot y.entry, changeUnits s y.entry) }
      else y }

/-- A seat that waits only for a lease is marked as delayed (R329). -/
def markDelay (k : Nat) (x : Seat) (s : State) : State :=
  if ready s x && (dispatchCheck s x).isNone && pairFree s k x && !leaseFree s k x then
    updSeat k (fun y => { y with leaseWait := true }) s
  else s

/-- A completion with E_FAULT_REPEAT is counted (R329, R497). -/
def countFaultRepeat (st : Status) (s : State) : State :=
  if st = .faultRepeat then trouble 13 (bump Ctr.faultRepeats 1 s) else s

/-- A mismatch blamed on a tile; the third within 24 operating hours retires it (R318, R319). -/
def blame (t : Nat) (s : State) : State :=
  let recent := within ((tileAt s t).blames ++ [s.evr.time]) s.evr.time (24 * Config.tickPerHour)
  let s := updTile t (fun y => { y with blames := recent }) s
  if 3 ≤ recent.length then retireTile t 0 s else s

def blame? (t : Option Nat) (s : State) : State := match t with | none => s | some n => blame n s

/-- The mismatched runs of an operation are blamed when it ends: on the other side's tile where a later run matched one
side's fingerprint, otherwise on both (R318). `last` holds the fingerprint of the run that matched, if one did. -/
def decideBlame : List Run → List Nat → State → State
  | [], _, s => s
  | r :: rest, last, s =>
    let later := rest.flatMap (fun q => [q.printA, q.printB]) ++ last
    let a := later.contains r.printA
    let b := later.contains r.printB
    let s := if a && !b then blame? r.tileB s
      else if b && !a then blame? r.tileA s
      else blame? r.tileB (blame? r.tileA s)
    decideBlame rest last s

/-- An activation that ends for want of room has deactivated the idle keys first (R181). -/
def roomTried (st : Status) (x : Seat) (s : State) : State :=
  match signingKey s x with
  | none => s
  | some (_, y) =>
    if st = .busy && noRoom s x && !reserveRefused s x && x.pool.isSome && widthOk s x then
      makeRoom y.heights.length Config.stateEntryTotal s
    else s

/-- The dispatcher serves seat `k`, where it is next. -/
def dispatchSeat (k : Nat) (s : State) : State :=
  match s.seats.get? k with
  | none => s
  | some x =>
    if !servedNext s k x then markDelay k x s
    else
      let ending := dispatchCheck s x
      let s := passOver k x s
      let s := { s with til := { s.til with served := x.fn } }
      match ending with
      | some (.status st) => endSeat k st (countFaultRepeat st (decideBlame x.runs [] (roomTried st x s)))
      | some (.output out) => endWith k out s
      | none => if x.run = 0 then beginRun k x s else beginRerun k x s

/-- DISPATCH (R257, R306). -/
def execDispatch (k : Nat) (s : State) : Host.Outcome State Fault Refusal :=
  run (fun s => markCredit (dispatchSeat k (markCredit s))) s

/-! ### Catch-up of a stateful key (R182, R256) -/

/-- The catch-up ends, and the signature's interval may begin. -/
def catchUpDone (k : Nat) (s : State) : State :=
  updSeat k (fun y => if y.phase = .executing && y.catchUp = .advance then { y with catchUp := .done } else y) s

/-- CATCH_UP_COMPLETE (R182). -/
def execCatchUpComplete (k : Nat) (s : State) : Host.Outcome State Fault Refusal := run (catchUpDone k) s

/-- The overwritten checkpoint is recomputed; the catch-up follows. -/
def recomputed (k : Nat) (s : State) : State :=
  match s.seats.get? k with
  | none => s
  | some x =>
    if x.phase = .executing && x.catchUp = .recompute then
      bump Ctr.ktRebuilds 1 (updSeat k (fun y => { y with catchUp := .advance }) s)
    else s

/-- CHECKPOINT_RECOMPUTE (R256). -/
def execCheckpointRecompute (k : Nat) (s : State) : Host.Outcome State Fault Refusal := run (recomputed k) s

/-! ### SCRIPT_OVERRUN (R344) -/

/-- A side is stopped at its deadline. -/
def overrun (k : Nat) (side : Side) (s : State) : State :=
  updSeat k (fun y => if y.phase = .executing then (match side with
    | .a => { y with overA := true }
    | .b => { y with overB := true }) else y) s

/-- The same for the script machine of the side, where it runs. -/
def stopSide (k : Nat) (side : Side) (s : State) : State :=
  let stop (x : SideState) : SideState := if x.ended = .running then { x with ended := .faulted .scriptOverrun, out := [] } else x
  { s with scr := { s.scr with sides := s.scr.sides.upd k fun p => match side with
    | .a => (stop p.1, p.2)
    | .b => (p.1, stop p.2) } }

def execScriptOverrun (k : Nat) (side : Side) (s : State) : Host.Outcome State Fault Refusal :=
  run (fun s => stopSide k side (overrun k side s)) s

/-! ### Understudies and retirement (R319, R320, R329) -/

/-- The understudy on its way was retired: the next one starts (R320). -/
def nextFor (p : Nat) (s : State) : State :=
  let s := { s with til := { s.til with coming := s.til.coming.filter fun c => c.2 != p } }
  match nextUnderstudy s with
  | none => s
  | some u => { s with til := { s.til with coming := s.til.coming ++ [(u, p)] } }

/-- An understudy enters the position of a retired tile with its pool and split, an empty script cache and a seeded mask
generator. -/
def understudyIn (p : Nat) (s : State) : State :=
  match s.til.coming.find? fun c => c.2 = p with
  | none => s
  | some (u, _) =>
    if (tileAt s u).state != .understudy then nextFor p s
    else
    let old := ((List.range s.til.tiles.length).find? fun t => (tileAt s t).state = .retired && (tileAt s t).position = some p)
    let (pool, split) := match old with
      | some t => (match (tileAt s t).next with | some n => n | none => ((tileAt s t).pool, (tileAt s t).split))
      | none => (0, false)
    let s := { s with til := { s.til with coming := s.til.coming.filter fun c => c.2 != p } }
    let s := match old with | some t => updTile t (fun y => { y with position := none }) s | none => s
    let s := updTile u (fun y =>
      { y with state := .active, position := some p, pool := pool, split := split, cached := [], cachedB := [] }) s
    let s := seedMask (2 * u) s
    let s := if split then seedMask (2 * u + 1) s else s
    event 0x0603 2 deviceWide [byte u, byte p] s

/-- UNDERSTUDY_IN (R320). -/
def execUnderstudyIn (position : Nat) (s : State) : Host.Outcome State Fault Refusal := run (understudyIn position) s

/-- Available understudies that fail the self-test are retired without entering service. -/
def selfTest (failed : List Nat) (s : State) : State :=
  failed.foldl (fun s t =>
    if (tileAt s t).state = .understudy && !s.til.coming.any (fun c => c.1 = t) then retireTile t 2 s else s) s

/-- UNDERSTUDY_SELF_TEST (R320). -/
def execUnderstudySelfTest (failed : List Nat) (s : State) : Host.Outcome State Fault Refusal := run (selfTest failed) s

/-- TIL_RETIRE.TILE takes a value: an active tile is retired at its next release, one that is free or an understudy at
once; 63 means none (R329). -/
def writeRetire (v : Nat) (s : State) : State :=
  let t := v % 64
  let s := { s with til := { s.til with retire := t } }
  if s.til.tiles.length ≤ t || (tileAt s t).state = .retired then s
  else if (tileAt s t).busy = 0 then retireTile t 1 s
  else updTile t (fun y => { y with retireWanted := true }) s

/-- TIL_RETIRE_WRITE (R319). -/
def execTilRetireWrite (value : Nat) (s : State) : Host.Outcome State Fault Refusal :=
  run (pfGuarded 0x300008 (writeRetire value)) s

end Sys2Proof.Machine
end

