-- ==== Sys2Proof/Machine/Arith.lean ====
section
/-! DEFINITION. Modular arithmetic and short-Weierstrass curves on natural numbers, as the classical and raw operations use
them (R206, R215, R217 to R219, R226). -/

namespace Sys2Proof.Machine

/-! ### Modular arithmetic -/

/-- b^e · acc mod m, one exponent bit a step. -/
def powStep (m : Nat) : Nat → Nat → Nat → Nat → Nat
  | 0, _, _, acc => acc
  | n + 1, b, e, acc => powStep m n (b * b % m) (e / 2) (if e % 2 = 1 then acc * b % m else acc)

/-- b^e mod m. -/
def powMod (b e m : Nat) : Nat := powStep m (bitLen e) (b % m) e (1 % m)

/-- Euclid's steps on (r, r') with the coefficients (t, t') of the second argument. -/
def euclid : Nat → Int → Int → Int → Int → Int × Int
  | 0, r, _, t, _ => (r, t)
  | n + 1, r, r', t, t' => if r' = 0 then (r, t) else euclid n r' (r - (r / r') * r') t' (t - (r / r') * t')

/-- The inverse of a modulo m, or 0 when there is none (R226). Euclid on (m, a mod m) takes at most twice the bits of m. -/
def invMod (a m : Nat) : Nat :=
  let g := euclid (2 * bitLen m + 2) m (a % m : Nat) 0 1
  if g.1 = 1 then (g.2 % m).toNat else 0

/-- a - b mod m. -/
def subMod (a b m : Nat) : Nat := (a % m + (m - b % m)) % m

/-! ### Curves y² = x³ + ax + b over GF(p) (R214) -/

/-- A point; none is the point at infinity. -/
abbrev Point := Option (Nat × Nat)

/-- The point satisfies the curve equation. -/
def onCurve (c : Curve) (x y : Nat) : Bool := y * y % c.p = (x * x * x + c.a * x + c.b) % c.p

/-- The sum of two points with slope `l`. -/
def chord (c : Curve) (l x1 y1 x2 : Nat) : Point :=
  let x := subMod (l * l) (x1 + x2) c.p
  some (x, subMod (l * subMod x1 x c.p) y1 c.p)

/-- The group law in affine coordinates. -/
def pointAdd (c : Curve) : Point → Point → Point
  | none, q => q
  | q, none => q
  | some (x1, y1), some (x2, y2) =>
    if x1 = x2 then
      if (y1 + y2) % c.p = 0 then none
      else chord c ((3 * x1 * x1 + c.a) * invMod (2 * y1) c.p % c.p) x1 y1 x2
    else chord c (subMod y2 y1 c.p * invMod (subMod x2 x1 c.p) c.p % c.p) x1 y1 x2

/-- Double and add, one bit of the scalar a step. -/
def mulStep (c : Curve) : Nat → Nat → Point → Point → Point
  | 0, _, _, acc => acc
  | n + 1, k, q, acc => mulStep c n (k / 2) (pointAdd c q q) (if k % 2 = 1 then pointAdd c acc q else acc)

/-- kP. -/
def pointMul (c : Curve) (k : Nat) (q : Point) : Point := mulStep c (bitLen k) k q none

/-- kG. -/
def baseMul (c : Curve) (k : Nat) : Point := pointMul c k (some (c.gx, c.gy))

/-- The uncompressed encoding of a point; infinity has none. -/
def encodePoint (c : Curve) : Point → Bytes
  | none => []
  | some (x, y) => [0x04] ++ beBytes c.fb x ++ beBytes c.fb y

/-- The coordinates of an uncompressed encoding. -/
def decodePoint (c : Curve) (b : Bytes) : Nat × Nat := (beNat (slice b 1 c.fb), beNat (slice b (1 + c.fb) c.fb))

/-- Point validation of R219; the subgroup check is made on a loaded curve with H above 1. -/
def pointOk (c : Curve) (b : Bytes) : Bool :=
  let q := decodePoint c b
  b.length = 1 + 2 * c.fb && b.head? = some 0x04 && q.1 < c.p && q.2 < c.p && onCurve c q.1 q.2
    && (c.h ≤ 1 || pointMul c c.n (some q) = none)

/-- A point that the raw command finds on the curve and in the subgroup of order n. -/
def inGroup (c : Curve) (x y : Nat) : Bool := onCurve c x y && pointMul c c.n (some (x, y)) = none

/-! ### Placement checks of RSA and curve keys (R206, R217) -/

/-- The parts of an RSA key: n, e, p, q, dP, dQ, qInv. -/
structure RsaKey where
  n : Nat
  e : Nat
  p : Nat
  q : Nat
  dp : Nat
  dq : Nat
  qinv : Nat
  deriving DecidableEq, Repr

/-- A slot's material: n and each CRT part big-endian, e in 32 bytes (R206, before R206 in the chapter). -/
def rsaKeyOf (l : Nat) (m : Bytes) : RsaKey :=
  let half (i : Nat) := beNat (slice m (l / 8 + 32 + i * (l / 16)) (l / 16))
  { n := beNat (slice m 0 (l / 8)), e := beNat (slice m (l / 8) 32), p := half 0, q := half 1, dp := half 2, dq := half 3,
    qinv := half 4 }

/-- The material of a private key. -/
def rsaMaterial (l : Nat) (k : RsaKey) : Bytes :=
  beBytes (l / 8) k.n ++ beBytes 32 k.e
    ++ ([k.p, k.q, k.dp, k.dq, k.qinv].flatMap fun v => beBytes (l / 16) v)

/-- The public part of R206. -/
def rsaPublicOk (l n e : Nat) : Bool :=
  n % 2 = 1 && bitLen n = l && e % 2 = 1 && 3 ≤ e && e < 2 ^ 256

/-- A private key's further conditions. -/
def rsaPrivateOk (l : Nat) (k : RsaKey) : Bool :=
  rsaPublicOk l k.n k.e && bitLen k.p = l / 2 && bitLen k.q = l / 2 && k.p * k.q = k.n
    && k.e * k.dp % (k.p - 1) = 1 % (k.p - 1) && k.e * k.dq % (k.q - 1) = 1 % (k.q - 1) && k.q * k.qinv % k.p = 1 % k.p

/-- The private operation x^d mod n by the key's CRT parts. -/
def rsaCrt (k : RsaKey) (x : Nat) : Nat :=
  let m1 := powMod x k.dp k.p
  let m2 := powMod x k.dq k.q
  m2 + k.q * (k.qinv * subMod m1 m2 k.p % k.p)

/-- A private EC key d ‖ Q: 0 < d < n and Q = dG (R217). -/
def ecPrivateOk (c : Curve) (m : Bytes) : Bool :=
  let d := beNat (m.take c.nb)
  0 < d && d < c.n && m.drop c.nb = encodePoint c (baseMul c d)

/-! ### The checks of a curve load (R215) -/

/-- The integer square root test |u| ≤ 2√p, squared. -/
def hasseOk (c : Curve) : Bool :=
  let u : Int := (c.h * c.n : Nat) - (c.p + 1 : Nat)
  u * u ≤ (4 * c.p : Nat)

/-- The outcome of the primality tests of R208 and R215. DESIGN CHOICE: a number passes exactly when it is prime, so that the
random bases decide nothing (assumption log 117). -/
def passesPrime (n : Nat) : Bool := decide (Nat.Prime n)

/-- p^k mod n ≠ 1 for k from 1 to 20. -/
def embeddingOk (c : Curve) : Bool := (List.range 20).all fun i => powMod c.p (i + 1) c.n != 1

/-- The nine checks, each with its number; the first failure decides. -/
def curveCheck (c : Curve) : Option Nat :=
  if !(192 ≤ c.pbits && c.pbits ≤ 640 && bitLen c.p = c.pbits && bitLen c.n = c.nbits && 1 ≤ c.h && c.h ≤ 65535) then some 1
  else if !(c.p % 2 = 1 && passesPrime c.p) then some 2
  else if !(c.a < c.p && c.b < c.p && c.gx < c.p && c.gy < c.p) then some 3
  else if (4 * c.a * c.a * c.a + 27 * c.b * c.b) % c.p = 0 then some 4
  else if !onCurve c c.gx c.gy then some 5
  else if !(passesPrime c.n && c.n != c.p) then some 6
  else if baseMul c c.n != none then some 7
  else if !hasseOk c then some 8
  else if !embeddingOk c then some 9
  else none

end Sys2Proof.Machine
end

