-- ==== Sys2Proof/Machine/Edwards.lean ====
section
/-! DEFINITION. Edwards25519 and Edwards448 with EdDSA, and the Montgomery ladders of X25519 and X448, as RFC 8032 and RFC 7748
define them (R220, R221, R223). The RFCs' steps and numbers are PRESUMED: the spec names them and prints none (assumption log
110). -/

namespace Sys2Proof.Machine

/-! ### Edwards curves a·x² + y² = 1 + d·x²·y² -/

/-- A curve with its base point, group order, cofactor 2^c and key length in bytes. -/
structure Edwards where
  p : Nat
  a : Nat
  d : Nat
  order : Nat
  bx : Nat
  by_ : Nat
  c : Nat
  len : Nat
  deriving DecidableEq, Repr

def edwards25519 : Edwards :=
  { p := 2 ^ 255 - 19, a := 2 ^ 255 - 20,
    d := 0x52036cee2b6ffe738cc740797779e89800700a4d4141d8ab75eb4dca135978a3,
    order := 2 ^ 252 + 27742317777372353535851937790883648493,
    bx := 0x216936d3cd6e53fec0a4e231fdd6dc5c692cc7609525a7b2c9562d608f25d51a,
    by_ := 0x6666666666666666666666666666666666666666666666666666666666666658, c := 3, len := 32 }

def edwards448 : Edwards :=
  { p := 2 ^ 448 - 2 ^ 224 - 1, a := 1, d := 2 ^ 448 - 2 ^ 224 - 1 - 39081,
    order := 2 ^ 446 - 13818066809895115352007386748515426880336692474882178609894547503885,
    bx := 0x4f1970c66bed0ded221d15a622bf36da9e146570470f1767ea6de324a3d3a46412ae1af72ab66511433b80e18b00938e2626a82bc70cc05e,
    by_ := 0x693f46716eb6bc248876203756c9c7624bea73736ca3984087789c1e05a0c2d73ad3ff1ce67c39c4fdbd132c4ed7c8ad9808795bf230fa14, c := 2, len := 57 }

/-- The curve of a PARAM_SET (R205). -/
def edwardsOf (p : Nat) : Edwards := if p = 0x0512 then edwards448 else edwards25519

/-- The complete addition law. -/
def edAdd (c : Edwards) (u v : Nat × Nat) : Nat × Nat :=
  let t := c.d * (u.1 * v.1 % c.p) % c.p * (u.2 * v.2 % c.p) % c.p
  ((u.1 * v.2 + u.2 * v.1) * invMod (1 + t) c.p % c.p,
   subMod (u.2 * v.2) (c.a * (u.1 * v.1 % c.p)) c.p * invMod (subMod 1 t c.p) c.p % c.p)

/-- Double and add, one bit of the scalar a step. -/
def edStep (c : Edwards) : Nat → Nat → Nat × Nat → Nat × Nat → Nat × Nat
  | 0, _, _, acc => acc
  | n + 1, k, q, acc => edStep c n (k / 2) (edAdd c q q) (if k % 2 = 1 then edAdd c acc q else acc)

def edMul (c : Edwards) (k : Nat) (q : Nat × Nat) : Nat × Nat := edStep c (bitLen k) k q (0, 1)

/-- kB. -/
def edBase (c : Edwards) (k : Nat) : Nat × Nat := edMul c k (c.bx, c.by_)

/-- The encoding: y little-endian, the sign of x in the top bit. -/
def edEncode (c : Edwards) (q : Nat × Nat) : Bytes := leBytes c.len (q.2 + fld (q.1 % 2) (8 * c.len - 1))

/-- A square root modulo p, where there is one. -/
def sqrtMod (p w : Nat) : Option Nat :=
  let r := if p % 4 = 3 then powMod w ((p + 1) / 4) p else powMod w ((p + 3) / 8) p
  if r * r % p = w % p then some r
  else
    let t := r * powMod 2 ((p - 1) / 4) p % p
    if t * t % p = w % p then some t else none

/-- The point that an encoding stands for, if it decodes. -/
def edDecode (c : Edwards) (b : Bytes) : Option (Nat × Nat) :=
  let v := leNat b
  let y := v % 2 ^ (8 * c.len - 1)
  let sign := v / 2 ^ (8 * c.len - 1)
  if b.length ≠ c.len ∨ c.p ≤ y then none
  else
    let yy := y * y % c.p
    match sqrtMod c.p (subMod yy 1 c.p * invMod (subMod (c.d * yy) c.a c.p) c.p % c.p) with
    | none => none
    | some x => if x = 0 then (if sign = 1 then none else some (0, y)) else some (if x % 2 = sign then x else c.p - x, y)

/-- Eight or four times a point. -/
def edClear (c : Edwards) (q : Nat × Nat) : Nat × Nat := edMul c (2 ^ c.c) q

/-- A public key decodes and has no small order (R217, R223). -/
def edPublicOk (c : Edwards) (b : Bytes) : Bool :=
  match edDecode c b with
  | none => false
  | some q => edClear c q != (0, 1)

/-! ### EdDSA -/

/-- The hash of a curve: SHA-512, or SHAKE256 with 114 bytes. -/
def edHash (c : Edwards) (m : Bytes) : Bytes := if c.len = 32 then digestOf 0x0604 m 64 else digestOf 0x0622 m 114

/-- dom2 or dom4 of a VARIANT and a context; empty for the pure form of Ed25519. -/
def edDomain (c : Edwards) (variant : Nat) (ctx : Bytes) : Bytes :=
  let tail := [byte (bnat (decide (variant = 2))), byte ctx.length] ++ ctx
  if c.len = 32 then (if variant = 0 then [] else ascii "SigEd25519 no Ed25519 collisions" ++ tail)
  else ascii "SigEd448" ++ tail

/-- The secret scalar of a seed, clamped, and the prefix. -/
def edSecret (c : Edwards) (seed : Bytes) : Nat × Bytes :=
  let h := edHash c seed
  let v := leNat (h.take c.len)
  let top := if c.len = 32 then 254 else 447
  (2 ^ top + 2 ^ c.c * (v % 2 ^ top / 2 ^ c.c), h.drop c.len)

/-- A of a seed. -/
def edPublic (c : Edwards) (seed : Bytes) : Bytes := edEncode c (edBase c (edSecret c seed).1)

/-- R ‖ S of a message. -/
def edSign (c : Edwards) (variant : Nat) (seed pk ctx m : Bytes) : Bytes :=
  let (a, pre) := edSecret c seed
  let dom := edDomain c variant ctx
  let r := leNat (edHash c (dom ++ pre ++ m)) % c.order
  let rb := edEncode c (edBase c r)
  let k := leNat (edHash c (dom ++ rb ++ pk ++ m)) % c.order
  rb ++ leBytes c.len ((r + k * a) % c.order)

/-- The cofactored equation [2^c][S]B = [2^c]R + [2^c][k]A; R decodes, and S is below the group order (R220). -/
def edVerify (c : Edwards) (variant : Nat) (pk sig ctx m : Bytes) : Bool :=
  let s := leNat (sig.drop c.len)
  let k := leNat (edHash c (edDomain c variant ctx ++ sig.take c.len ++ pk ++ m)) % c.order
  match edDecode c pk, edDecode c (sig.take c.len) with
  | some a, some r => s < c.order && edClear c (edBase c s) = edClear c (edAdd c r (edMul c k a))
  | _, _ => false

/-! ### X25519 and X448 -/

/-- Prime, the constant of the ladder, and the length of a PARAM_SET. -/
def montgomery (p : Nat) : Nat × Nat × Nat :=
  if p = 0x0514 then (2 ^ 448 - 2 ^ 224 - 1, 39081, 56) else (2 ^ 255 - 19, 121665, 32)

/-- A scalar clamped. -/
def xClamp (p : Nat) (b : Bytes) : Bytes :=
  let v := leNat b
  if p = 0x0514 then leBytes 56 (2 ^ 447 + 4 * (v % 2 ^ 447 / 4)) else leBytes 32 (2 ^ 254 + 8 * (v % 2 ^ 254 / 8))

/-- A step of the ladder: x1, then (x2, z2) and (x3, z3). -/
def ladderStep (q a24 x1 : Nat) (w : (Nat × Nat) × (Nat × Nat)) : (Nat × Nat) × (Nat × Nat) :=
  let ((x2, z2), (x3, z3)) := w
  let a := (x2 + z2) % q
  let b := subMod x2 z2 q
  let aa := a * a % q
  let bb := b * b % q
  let e := subMod aa bb q
  let da := subMod x3 z3 q * a % q
  let cb := (x3 + z3) * b % q
  let u := (da + cb) % q
  let v := subMod da cb q
  ((aa * bb % q, e * (aa + a24 * e) % q), (u * u % q, x1 * (v * v % q) % q))

/-- The ladder from bit `n - 1` of a scalar down. -/
def ladder (q a24 x1 k : Nat) : Nat → (Nat × Nat) × (Nat × Nat) → (Nat × Nat) × (Nat × Nat)
  | 0, w => w
  | n + 1, w =>
    let r := if bit k n then (ladderStep q a24 x1 (w.2, w.1)).swap else ladderStep q a24 x1 w
    ladder q a24 x1 k n r

/-- The u of a scalar and a peer's u: the top bit of an X25519 u is ignored, and u is reduced modulo the prime (R221). -/
def xMul (p : Nat) (scalar u : Bytes) : Bytes :=
  let (q, a24, n) := montgomery p
  let x1 := (if n = 32 then leNat u % 2 ^ 255 else leNat u) % q
  let w := ladder q a24 x1 (leNat (xClamp p scalar)) (8 * n) ((1, 0), (x1, 1))
  leBytes n (w.1.1 * invMod w.1.2 q % q)

/-- The public value of a scalar: u of the base point is 9 or 5. -/
def xPublic (p : Nat) (scalar : Bytes) : Bytes :=
  let n := (montgomery p).2.2
  xMul p scalar (leBytes n (if n = 32 then 9 else 5))

end Sys2Proof.Machine
end

