-- ==== Sys2Proof/Machine/Outcomes.lean ====
section
/-! DEFINITION. How an opcode's result reaches its seat: outcomes, fresh bytes, keys named and keys placed, and the public
key of a slot. -/

namespace Sys2Proof.Machine

/-! ### Outcomes -/

/-- An operation that ends with a status and no output (R509). -/
def ended (st : Status) (interval : Nat) : Outcome :=
  { status := st, out := [], rounds := 0, interval := interval, changes := [] }

/-- An operation that ends with S_OK. -/
def done (out : Bytes) (interval : Nat) (changes : List Change) : Outcome :=
  { status := .ok, out := out, rounds := 0, interval := interval, changes := changes }

/-- A verification (R145). -/
def verdict (ok : Bool) (interval : Nat) : Outcome := ended (if ok then .ok else .verifyFail) interval

/-- Bytes `off` to `off + len - 1` of the seat's DRBG reservation (R289). -/
def fresh (x : Seat) (off len : Nat) : Bytes := x.gen.output off len

/-- A number as an argument of a standard's function. -/
def tag (n : Nat) : Bytes := leBytes 8 n

/-- A handle field that the opcode does not use is not 0 (R532). -/
def strayHandle (x : Seat) : Bool :=
  (keyUse x.header x.entry = .unused && x.entry.keyHandle != 0)
    || (auxUse x.header x.entry = .unused && x.entry.auxHandle != 0)

/-- What holds for every opcode: E_ENTROPY was decided at dispatch (R292), a handle in an unused field ends it (R532), and
the interval is that of the width that runs (R304). -/
def settleOutcome (x : Seat) (o : Outcome) : Outcome :=
  let iv := onTiles x.half x.entry.opc x.entry.ps o.interval
  if x.noEntropy then { ended .entropy iv with rounds := o.rounds }
  else if strayHandle x then { ended .invalidInput iv with rounds := o.rounds }
  else { o with interval := iv }

/-- Ready to compute: dispatched, staged, caught up, and not computed yet. -/
def computing (x : Seat) (o : Nat) : Bool :=
  x.phase = .executing && x.entry.opc = o && x.input.isSome && x.outcome.isNone
    && (x.catchUp = .none || x.catchUp = .done)

/-- The expanded form of a slot's key: ek, Â, the NTT forms, the Falcon tree, the Goppa polynomial and the support, which the
standards define (R129, R190). -/
def expansionOf (s : State) (y : Slot) : Expansion :=
  let key := [tag y.family, tag y.paramSet, tag y.form, y.material]
  let part (i : Nat) := Config.prim .expand (tag i :: key) (Config.primNat .expand (tag i :: key) 0 % 2 ^ 23)
  let secret := part 1
  let a := Config.freeBytes s.free secret.length
  let b := Config.freeBytes (s.free + 1) secret.length
  { pub := part 0, shares := [a, b, xorBytes (xorBytes secret a) b] }

/-- The slots whose expansions a lattice operation, or a code-based decapsulation, leaves in the expansion cache. -/
def expands (e : Entry) (y : Slot) : Bool :=
  (0x200 ≤ e.opc && e.opc < 0x300 && 1 ≤ y.family && y.family ≤ 4)
    || (e.opc = 0x402 && y.family = 8) || (e.opc = 0x412 && y.family = 9)

/-- The cache after an operation on a slot. -/
def cacheExpansion (x : Seat) (s : State) : State :=
  match keyUse x.header x.entry, slotOf s x.entry.keyHandle.toNat with
  | .slot _, some (i, y) =>
    if expands x.entry y && (s.keys.cache.get? i).isNone then
      spend (spend { s with keys := { s.keys with cache := s.keys.cache.put i (expansionOf s y) } })
    else s
  | _, _ => s

/-- The operation of seat `k`, where it runs opcode `o`, computes its outcome. -/
def compute (k o : Nat) (f : State → Seat → Bytes → Outcome) (s : State) : State :=
  match s.seats.get? k with
  | none => s
  | some x =>
    if computing x o then
      let r := settleOutcome x (f s x (fullInput s x))
      cacheExpansion x (updSeat k (fun y => { y with outcome := some r }) (spend s))
    else s

/-! ### Keys named -/

/-- The slot in KEY_HANDLE. -/
def keySlot (s : State) (x : Seat) : Option Slot := (slotOf s x.entry.keyHandle.toNat).map Prod.snd

/-- The slot in KEY_HANDLE holds a key of another algorithm or parameter set (R136, R159). -/
def wrongKey (s : State) (x : Seat) (fam : Nat) : Bool :=
  match keySlot s x with
  | none => false
  | some y => y.family != fam || y.paramSet != x.entry.ps

/-- The private key in KEY_HANDLE: of the family and parameter set, and not public-only. -/
def privateKey (s : State) (x : Seat) (fam : Nat) : Option Slot :=
  match keySlot s x with
  | none => none
  | some y => if y.family = fam ∧ y.paramSet = x.entry.ps ∧ y.form != 2 then some y else none

/-! ### Public keys (R127, R165, R173, R190, R206, R217, R266) -/

/-- The classical public value of a hybrid group's scalar (R150). -/
def groupPublic (s : State) (group : Nat) (scalar : Bytes) : Bytes :=
  match group with
  | 0x0513 => xPublic group scalar
  | 0x0514 => xPublic group scalar
  | _ => (match curveOf s group with | some c => encodePoint c (baseMul c (beNat scalar)) | none => [])

/-- Length of a group's scalar as a hybrid slot holds it. -/
def groupScalarLen (s : State) (group : Nat) : Nat :=
  match xLen group with
  | some n => n
  | none => (match curveOf s group with | some c => c.nb | none => 0)

/-- A hybrid's parts in its fixed order: the ML-KEM part first for X25519 and X448, last for the curves (R150). -/
def joinHybrid (h : Hybrid) (pq cl : Bytes) : Bytes := if (xLen h.group).isSome then pq ++ cl else cl ++ pq

/-- The ML-KEM part and the classical part of a joined string, the ML-KEM part `n` bytes long. -/
def splitHybrid (h : Hybrid) (n : Nat) (b : Bytes) : Bytes × Bytes :=
  if (xLen h.group).isSome then (b.take n, b.drop n) else (b.drop (b.length - n), b.take (b.length - n))

/-- ek of an ML-KEM key in a form: computed from a seed, read from dk, or stored. -/
def mlKemEk (p form : Nat) (m : Bytes) : Bytes :=
  match mlKem p with
  | none => []
  | some (ek, dk, _) =>
    if form = 0 then Config.prim .mlKemPk [tag p, m] ek
    else if form = 1 then slice m (dk - 64 - ek) ek
    else m

/-- The OID of an XMSS or XMSS^MT set, as SP 800-208 numbers them (R163; PRESUMED, assumption log 7). -/
def xmssOid (p : Nat) : Bytes :=
  let tree := bits p 5 0
  let fam := bits p 7 6
  beBytes 4 (if bits p 15 8 = 3 then tree + (match fam with | 0 => 0 | 1 => 12 | 2 => 15 | _ => 18)
    else tree + (match fam with | 0 => 0 | 1 => 0x20 | 2 => 0x28 | _ => 0x30))

/-- The public key of a key's material in the encoding of its family. -/
def publicOf (s : State) (fam p form : Nat) (m : Bytes) : Bytes :=
  match fam with
  | 1 => mlKemEk p form m
  | 2 => if form = 2 then m else (match mlDsa p with | some d => Config.prim .mlDsaPk [tag p, tag form, m] d.1 | none => [])
  | 3 => if form = 2 then m else (match falcon p with | some d => m.drop d.2.1 | none => [])
  | 4 => if form = 2 then m else (match hybrid p with
    | none => []
    | some h => joinHybrid h (mlKemEk h.kem 0 (m.take 64))
        (groupPublic s h.group ((m.drop 64).take (groupScalarLen s h.group))))
  | 5 => if form = 2 then m else m.drop (m.length / 2)
  | 6 => if form = 2 then m else m.drop 48
  | 7 => if form = 2 then m else (match xmss p with
    | none => []
    | some d =>
      let n := famN d.2.2
      xmssOid p ++ slice m (3 * n) n ++ slice m (2 * n) n)
  | 8 => if form = 2 then m else (match mceliece p with | some d => Config.prim .mcePk [tag p, m.take 40] d.1 | none => [])
  | 9 => if form = 2 then m else (match hqc p with | some d => Config.prim .hqcPk [tag p, tag form, m] d.1 | none => [])
  | 10 => (match rsaBits p with | some l => m.take (l / 8 + 32) | none => [])
  | 11 => if form = 2 then m else (match curveOf s p with | some c => m.drop c.nb | none => [])
  | 12 => if form = 2 then m else (match eddsa p with | some n => m.drop n | none => [])
  | 13 => if form = 2 then m else (match xLen p with | some n => m.drop n | none => [])
  | _ => []

/-- The public key that an operation uses: the slot's, or the host's in the first bytes of the input. -/
def publicKeyOf (s : State) (x : Seat) (input : Bytes) (len : Nat) : Bytes :=
  match keySlot s x with
  | some y => publicOf s y.family y.paramSet y.form y.material
  | none => input.take len

/-- The input behind a host public key. -/
def afterKey (x : Seat) (input : Bytes) (len : Nat) : Bytes := if x.entry.keyHandle = 0 then input.drop len else input

/-! ### Keys placed (R132 to R134, R249, R250) -/

/-- Origins (R249). -/
def originInside := 0
def originWrapped := 1
def originClear := 2
def originDerived := 3

/-- Export-wrapped usage is asked for a key that is not exportable (R250). -/
def exportBad (usage : Nat) (exportable : Bool) : Bool := bit usage 6 && !exportable

/-- A key of the submitting function. -/
def newKey (x : Seat) (fam p form usage origin : Nat) (exportable : Bool) (m : Bytes) : NewKey :=
  { owner := x.fn, family := fam, paramSet := p, form := form, usage := usage, origin := origin, exportable := exportable,
    material := m, units := unitsFor m.length, heights := [], consts := [] }

/-- The key is placed where AUX_HANDLE says, and its handle follows the output (R133). -/
def place (x : Seat) (k : NewKey) : Change := .putKey x.entry.auxHandle.toNat k

/-- USAGE and EXPORTABLE of the keygen layout of R132. -/
def keygenUsage (e : Entry) : Nat := bits (e.arg 0) 6 0
def keygenExportable (e : Entry) : Bool := e.argBit 1 0

/-- A keygen's outcome: its public key and the placed key (R132, R133, R250). -/
def keygenOutcome (x : Seat) (fam form : Nat) (material pk : Bytes) (interval : Nat) : Outcome :=
  let e := x.entry
  if exportBad (keygenUsage e) (keygenExportable e) then ended .invalidInput interval
  else done pk interval [place x (newKey x fam e.ps form (keygenUsage e) originInside (keygenExportable e) material)]

/-- A secret returned after `out`, or deposited as a shared secret with usage derive (R134). -/
def secretOutcome (x : Seat) (out secret : Bytes) (interval : Nat) : Outcome :=
  if deposits x.entry then
    let key := newKey x 14 0x0F03 3 0x08 originDerived (depExportable x.entry) secret
    done out interval [place x { key with units := depositUnits secret.length }]
  else done (out ++ secret) interval []

end Sys2Proof.Machine
end

