-- ==== Sys2Proof/Machine/Box.lean ====
section
/-! DEFINITION. The box office: epochs, the switch of banks, meter pages and their registers (R115 to R124). -/

namespace Sys2Proof.Machine

/-- A period in nanoseconds. -/
def periodNs (p : Nat) : Nat := p * 1000000000

/-- The number of an epoch that starts at PTM time `t` after epoch `prev` (R117 to R119). -/
def nextEpoch (s : State) (t period prev : Nat) : Nat :=
  if s.pcie.ptmLost then prev + 1 else Nat.max (t / periodNs period % 2 ^ 32) (prev + 1)

/-- PTM time, or while PTM is lost the device's own estimate, which no rule gives (R121). -/
def stamp (s : State) (t : Nat) : Nat := if s.pcie.ptmLost then Config.timeEstimate s.free % 2 ^ 64 else t

/-- All ones: a counter lost to an uncorrectable error (R18). -/
def lostCounter : Nat := 2 ^ 64 - 1

/-- The counters of the epoch in progress, all ones where lost (R18). -/
def epochCounters (s : State) : Tab Nat := s.box.ue.foldl (fun t k => t.put k lostCounter) s.box.counters

/-- The counters as a page carries them: those of VFs that do not exist read zero (R121). -/
def pageCounters (s : State) : Tab Nat := (epochCounters s).filter fun x => fnExists s (x.1 / 32)

/-- BOX_STATUS (R124). -/
def boxStatus (s : State) : Nat :=
  bnat s.pcie.ptmLost + fld (bnat (s.box.frozen != [])) 1 + fld (bnat s.box.extended) 2

/-- The bank of the epoch in progress as a page; `cut` for an epoch that PERST_N ends (R121, R123). -/
def frozenPage (s : State) (t : Nat) (cut : Bool) : MeterPage :=
  { epoch := s.box.epoch,
    flags := bnat (s.box.ptmLost || s.pcie.ptmLost) + fld (bnat s.box.extended) 1 + fld (bnat cut) 2
      + fld (bnat (s.box.ue != [])) 6,
    start := s.box.start, ending := stamp s t, period := s.box.inForce, lostFrom := 0, counters := pageCounters s }

/-- The counters switch bank: the frozen one awaits write-out. -/
def freezeBank (t : Nat) (cut : Bool) (s : State) : State :=
  let p := frozenPage s t cut
  spend { s with box := { s.box with frozen := s.box.frozen ++ [p], counters := [], ue := [], extended := false } }

/-- An epoch starts, under the period that was last written (R119, R120). -/
def startEpoch (t : Nat) (s : State) : State :=
  let n := nextEpoch s t s.box.period s.box.stored
  let at_ := stamp s t
  spend { s with box := { s.box with epoch := n, stored := n, start := at_, inForce := s.box.period, running := true,
                                     ptmLost := s.pcie.ptmLost } }

/-- A boundary at PTM time `t` (R117, R118); while PTM is not lost it falls only where T mod P is 0. With a bank unwritten
it does not take place, and the epoch is extended (R122). The frozen bank goes to the twin (R418). -/
def epochBoundary (t : Nat) (s : State) : State :=
  if !s.box.running || (!s.pcie.ptmLost && t % periodNs s.box.inForce != 0) then s
  else if s.box.frozen != [] then
    if s.box.extended then s
    else
      let s := { s with box := { s.box with extended := true } }
      trouble 16 (event 0x0301 1 deviceWide (leBytes 4 s.box.epoch) s)
  else
    let e := s.box.epoch
    let s := freezeBank t false s
    let c := match s.box.frozen.getLast? with | some p => p.counters | none => []
    startEpoch t (sendCheckpoint (.frozenBank e c) s)

/-- EPOCH_BOUNDARY (R117). -/
def execEpochBoundary (time : Nat) (s : State) : Host.Outcome State Fault Refusal := run (epochBoundary time) s

/-- The oldest frozen bank is written to buffer E mod COUNT, COMMIT last; the first page after a loss carries PRIOR_LOST
(R121, R123). -/
def writePage (s : State) : State :=
  match s.box.frozen with
  | [] => s
  | p :: rest =>
    if s.pcie.ready && s.box.enable && canMaster s 0 then
      let lost := s.box.lostFrom
      let page := { p with flags := p.flags + fld (bnat lost.isSome) 3, lostFrom := lost.getD 0 }
      let s := emit (.meterPage (s.box.pageBase + pageBufferLen * (p.epoch % s.box.count)) page) s
      raise 3 { s with box := { s.box with frozen := rest, lastPage := p.epoch, lostFrom := none } }
    else s

/-- METER_PAGE_WRITE (R121). -/
def execMeterPageWrite (s : State) : Host.Outcome State Fault Refusal := run writePage s

/-- BOX_CFG as stored (R124). -/
def storedCount (v : Nat) : Nat := if v = 0 then 1 else Nat.min 64 v
def storedPeriod (v : Nat) : Nat := if v = 0 then 1 else Nat.min 3600 v

def writeBoxCfg (v : Nat) (s : State) : State :=
  { s with box := { s.box with count := storedCount (bits v 6 0), enable := bit v 8,
                               period := storedPeriod (bits v 43 32) } }

/-- BOX_CFG_WRITE (R120): a new period governs from the next boundary. -/
def execBoxCfgWrite (value : BitVec 64) (s : State) : Host.Outcome State Fault Refusal :=
  run (pfWrite 0x180008 (writeBoxCfg value.toNat)) s

/-- A charge at a commit instant (R116): the counter of a function and class, modulo 2^64. -/
def charge (f cls units : Nat) (s : State) : State :=
  let k := 32 * f + cls
  { s with box := { s.box with counters := s.box.counters.put k ((s.box.counters.getD k 0 + units) % 2 ^ 64) } }

/-- A loss of main supply loses the epoch in progress and every bank not yet written (R123). -/
def loseMeters (s : State) : State :=
  let first := match s.box.frozen with
    | p :: _ => some p.epoch
    | [] => if s.box.running then some s.box.epoch else none
  { s with box := { s.box with running := false, frozen := [], counters := [], ue := [], extended := false,
                               lostFrom := match s.box.lostFrom with | some e => some e | none => first } }

end Sys2Proof.Machine
end

