-- ==== Sys2Proof/Machine/Falcon.lean ====
section
/-! DEFINITION. Falcon's encodings and its verification, after the round-3 specification (R128, R147): the steps are that
standard's (assumption log 110). -/

namespace Sys2Proof.Machine

/-- q of Falcon. -/
def falconQ : Nat := 12289

/-- logn and the bound on the squared norm of a signature, by PARAM_SET. -/
def falconLog (p : Nat) : Nat := if p = 0x0021 then 9 else 10
def falconBound (p : Nat) : Nat := if p = 0x0021 then 34034726 else 70265242

/-- The header byte of a key or a signature: a base plus logn. -/
def falconHeader (p base : Nat) : Byte := byte (base + falconLog p)

/-- The bits of a byte string, the most significant of each byte first. -/
def bitsMsb (b : Bytes) : List Bool := b.flatMap fun c => (List.range 8).map fun i => c.getLsbD (7 - i)

/-- The number that bits spell, most significant first. -/
def natMsb (b : List Bool) : Nat := b.foldl (fun n x => 2 * n + bnat x) 0

/-- The coefficients of a public key: `n` numbers of 14 bits behind its header. -/
def falconCoeffs (p : Nat) (pk : Bytes) : List Nat :=
  let bs := bitsMsb (pk.drop 1)
  (List.range (2 ^ falconLog p)).map fun i => natMsb ((bs.drop (14 * i)).take 14)

/-- The check of a public key (R128): its header byte, and every coefficient below q. -/
def falconPkOk (p : Nat) (pk : Bytes) : Bool :=
  pk.head? = some (falconHeader p 0x00) && (falconCoeffs p pk).all fun c => c < falconQ

/-- The zeros before the next 1, and the bits behind it. -/
def unary : List Bool → Nat → Option (Nat × List Bool)
  | [], _ => none
  | true :: r, k => some (k, r)
  | false :: r, k => unary r (k + 1)

/-- One compressed coefficient: sign, 7 low bits, the rest in unary; none for minus zero, a coefficient above 2,047, or bits that
run out. -/
def falconCoeff (b : List Bool) : Option (Int × List Bool) :=
  match b with
  | [] => none
  | sign :: r =>
    if r.length < 7 then none
    else match unary (r.drop 7) 0 with
      | none => none
      | some (k, rest) =>
        let v := 128 * k + natMsb (r.take 7)
        if (sign && v = 0) || 2047 < v then none else some (if sign then -(v : Int) else v, rest)

/-- `n` compressed coefficients, provided that every bit behind them is 0. -/
def falconDecompress : Nat → List Bool → Option (List Int)
  | 0, b => if b.all fun x => !x then some [] else none
  | n + 1, b => match falconCoeff b with
    | none => none
    | some (v, r) => (falconDecompress n r).map fun l => v :: l

/-- The point of a salt and a message: 16-bit samples of SHAKE256, those from 61,445 on rejected. -/
def falconPoint (p : Nat) (salt m : Bytes) : List Nat :=
  let n := 2 ^ falconLog p
  let stream := sponge 136 0x1F (salt ++ m) (8 * n)
  let samples := (List.range (4 * n)).map fun i => beNat (slice stream (2 * i) 2)
  ((samples.filter fun v => v < 5 * falconQ).map fun v => v % falconQ).take n

/-- A number modulo q in its centred representative. -/
def falconCentre (v : Int) : Int :=
  let r := v % (falconQ : Int)
  if (falconQ / 2 : Nat) < r then r - falconQ else r

/-- Coefficient `k` of the product of two polynomials modulo x^n + 1. -/
def negacyclic (n : Nat) (a : Array Int) (b : Array Int) (k : Nat) : Int :=
  (List.range n).foldl (fun t i =>
    let x := a.getD i 0
    if i ≤ k then t + x * b.getD (k - i) 0 else t - x * b.getD (n + k - i) 0) 0

/-- A signature verifies: header, 40-byte salt, compressed s2 with zeros behind it, and a pair (s1, s2) within the bound
(R147). -/
def falconVerifies (p : Nat) (pk sig m : Bytes) : Bool :=
  let n := 2 ^ falconLog p
  sig.head? = some (falconHeader p 0x30)
    && (match falconDecompress n (bitsMsb (sig.drop 41)) with
        | none => false
        | some s2 =>
          let h := ((falconCoeffs p pk).map fun c => (c : Int)).toArray
          let s := s2.toArray
          let c := (falconPoint p (slice sig 1 40) m).toArray
          let s1 := (List.range n).map fun k => falconCentre ((c.getD k 0 : Int) - negacyclic n s h k)
          let norm : Int := (s1 ++ s2).foldl (fun (t v : Int) => t + v * v) 0
          norm ≤ (falconBound p : Int))

/-- The padded form of a signature of `len` bytes: header, salt, compressed s2 and zeros (R147). -/
def falconPadded (p len : Nat) (salt s2 : Bytes) : Bytes := padTo len ([falconHeader p 0x30] ++ salt ++ s2)

end Sys2Proof.Machine
end

