-- ==== Sys2Proof/Machine/Padding.lean ====
section
/-! DEFINITION. The paddings of PKCS #1 v2.2 (R209 to R211): EMSA-PKCS1-v1_5, EMSA-PSS, EME-OAEP and EME-PKCS1-v1_5, and the
deterministic nonce of RFC 6979 (R218). Their steps are PRESUMED from those standards (assumption log 110). -/

namespace Sys2Proof.Machine

/-- The digest algorithm of a code 0x01 to 0x09 of R143. -/
def codeAlg : Nat → Nat
  | 1 => 0x0602 | 2 => 0x0603 | 3 => 0x0604 | 4 => 0x0606 | 5 => 0x0612 | 6 => 0x0613 | 7 => 0x0614 | 8 => 0x0621
  | _ => 0x0622

/-- The last byte of the object identifier of a code. -/
def codeOid : Nat → Nat
  | 1 => 1 | 2 => 2 | 3 => 3 | 4 => 6 | 5 => 8 | 6 => 9 | 7 => 10 | 8 => 11 | _ => 12

/-- The object identifier of a hash, as DER. -/
def hashOid (code : Nat) : Bytes := [0x06, 0x09, 0x60, 0x86, 0x48, 0x01, 0x65, 0x03, 0x04, 0x02, byte (codeOid code)]

/-- MGF_HASH: 0 stands for HASH (R209). -/
def rsaMgf (e : Entry) : Nat := if e.arg 2 = 0 then e.arg 1 else e.arg 2

/-- The hash length of HASH. -/
def rsaHashLen (e : Entry) : Nat := (rsaHash e).getD 0

/-- MGF1 with the hash of a code. -/
def mgf1 (code : Nat) (seed : Bytes) (n : Nat) : Bytes :=
  let h := (phLen code).getD 32
  ((List.range (ceilDiv n h)).flatMap fun i => digestOf (codeAlg code) (seed ++ beBytes 4 i) h).take n

/-- EMSA-PKCS1-v1_5 of a digest: 0x00 0x01, 0xFF bytes, 0x00, and the DER DigestInfo. -/
def emsaPkcs1 (code n : Nat) (h : Bytes) : Bytes :=
  let oid := hashOid code
  let info := [0x30, byte (17 + h.length), 0x30, 0x0D] ++ oid ++ [0x05, 0x00, 0x04, byte h.length] ++ h
  [0x00, 0x01] ++ List.replicate (n - 3 - info.length) 0xFF ++ [0x00] ++ info

/-- Bits of the encoded message of PSS: one less than the modulus; its top bits are cleared. -/
def clearTop (bits_ : Nat) (b : Bytes) : Bytes := beBytes b.length (beNat b % 2 ^ bits_)

/-- EMSA-PSS of a digest with a salt, in the bytes of a modulus of `l` bits. -/
def emsaPss (e : Entry) (l : Nat) (salt h : Bytes) : Bytes :=
  let n := l / 8
  let hl := h.length
  let m := digestOf (codeAlg (e.arg 1)) (zeros 8 ++ h ++ salt) hl
  let db := zeros (n - salt.length - hl - 2) ++ [0x01] ++ salt
  clearTop (8 * (n - hl - 1) - 1) (xorBytes db (mgf1 (rsaMgf e) m (n - hl - 1))) ++ m ++ [0xBC]

/-- An encoded message verifies as PSS with the salt length given. -/
def pssOk (e : Entry) (l : Nat) (em h : Bytes) : Bool :=
  let n := l / 8
  let hl := h.length
  let sl := e.argN 4 2
  let masked := em.take (n - hl - 1)
  let m := slice em (n - hl - 1) hl
  let db := clearTop (8 * (n - hl - 1) - 1) (xorBytes masked (mgf1 (rsaMgf e) m (n - hl - 1)))
  hl + sl + 2 ≤ n && em.getLast? = some 0xBC && beNat masked < 2 ^ (8 * (n - hl - 1) - 1)
    && db.take (n - hl - sl - 1) = zeros (n - hl - sl - 2) ++ [0x01]
    && m = digestOf (codeAlg (e.arg 1)) (zeros 8 ++ h ++ db.drop (n - hl - sl - 1)) hl

/-- EME-OAEP of a message under a label with a seed. -/
def oaepEncode (e : Entry) (l : Nat) (seed label m : Bytes) : Bytes :=
  let n := l / 8
  let hl := rsaHashLen e
  let db := digestOf (codeAlg (e.arg 1)) label hl ++ zeros (n - m.length - 2 * hl - 2) ++ [0x01] ++ m
  let masked := xorBytes db (mgf1 (rsaMgf e) seed (n - hl - 1))
  [0x00] ++ xorBytes seed (mgf1 (rsaMgf e) masked hl) ++ masked

/-- The message of an OAEP encoding, if it decodes. -/
def oaepDecode (e : Entry) (l : Nat) (label em : Bytes) : Option Bytes :=
  let n := l / 8
  let hl := rsaHashLen e
  let masked := em.drop (hl + 1)
  let seed := xorBytes (slice em 1 hl) (mgf1 (rsaMgf e) masked hl)
  let db := xorBytes masked (mgf1 (rsaMgf e) seed (n - hl - 1))
  let rest := (db.drop hl).dropWhile fun c => c = 0
  if em.head? = some 0 && db.take hl = digestOf (codeAlg (e.arg 1)) label hl && rest.head? = some 0x01 then some (rest.drop 1)
  else none

/-- EME-PKCS1-v1_5 of a message: `pad` gives its padding bytes, none of them zero. How the DRBG's zero bytes are avoided no rule
says: DESIGN CHOICE, each is taken modulo 255 and raised by 1 (assumption log 116). -/
def pkcs1Pad (l : Nat) (pad m : Bytes) : Bytes :=
  [0x00, 0x02] ++ (padTo (l / 8 - 3 - m.length) pad).map (fun c => byte (c.toNat % 255 + 1)) ++ [0x00] ++ m

/-- The message of an EME-PKCS1-v1_5 encoding, if it decodes. -/
def pkcs1Unpad (em : Bytes) : Option Bytes :=
  let rest := em.drop 2
  let pad := rest.takeWhile fun c => c != 0
  if em.take 2 = [0x00, 0x02] && 8 ≤ pad.length && pad.length < rest.length then some (rest.drop (pad.length + 1)) else none

/-! ### The nonces of ECDSA (R218) -/

/-- The leftmost bits of a string, as many as the order has. -/
def bitsToInt (c : Curve) (h : Bytes) : Nat := beNat h / 2 ^ (8 * h.length - c.nbits)

/-- A number in [1, n) by the extra-random-bits method from NB + 8 bytes. -/
def extraBits (c : Curve) (b : Bytes) : Nat := beNat b % (c.n - 1) + 1

/-- Bytes of HMAC output until the order's length is reached, and the value behind the last. -/
def hmacStream (alg : Nat) (key : Bytes) : Nat → Bytes → Bytes × Bytes
  | 0, v => ([], v)
  | n + 1, v =>
    let v := hmac alg key v
    let r := hmacStream alg key n v
    (v ++ r.1, r.2)

/-- Candidates of RFC 6979 from a key and a value on, until one lies in [1, n). -/
def nonceFrom (c : Curve) (alg : Nat) : Nat → Bytes → Bytes → Nat
  | 0, _, _ => 1
  | fuel + 1, k, v =>
    let h := (fixedLen alg).getD 32
    let (t, v) := hmacStream alg k (ceilDiv c.nb h) v
    let x := bitsToInt c t
    if 1 ≤ x ∧ x < c.n then x
    else
      let k := hmac alg k (v ++ [0x00])
      nonceFrom c alg fuel k (hmac alg k v)

/-- The deterministic nonce of a private key and a digest under the HMAC hash of a code. -/
def rfc6979 (c : Curve) (code d : Nat) (h : Bytes) : Nat :=
  let alg := codeAlg code
  let n := (fixedLen alg).getD 32
  let x := beBytes c.nb d ++ beBytes c.nb (bitsToInt c h % c.n)
  let v := List.replicate n 0x01
  let k := hmac alg (zeros n) (v ++ [0x00] ++ x)
  let v := hmac alg k v
  let k := hmac alg k (v ++ [0x01] ++ x)
  nonceFrom c alg 256 k (hmac alg k v)

end Sys2Proof.Machine
end

