-- ==== Sys2Proof/Machine/Lattice.lean ====
section
/-! DEFINITION. The lattice operations of chapter 05: ML-KEM, ML-DSA, Falcon and the hybrid KEMs. What of the
named standards' algorithms is not written out is a free function of its inputs (assumption log 3, 110). -/

namespace Sys2Proof.Machine

/-! ### Rounds (R154, R155) -/

/-- Rounds executed and whether one succeeded: `n` rounds fail before the first that succeeds, up to the cap. -/
def roundsOf (n cap : Nat) : Nat × Bool := if n < cap then (n + 1, true) else (cap, false)

/-- Rounds drawn from the seat's fresh randomness. -/
def freshRounds (x : Seat) (cap : Nat) : Nat × Bool := roundsOf (Config.freeRounds x.drbg) cap

/-- An outcome with rounds; at the cap it is E_SCRIPT_OVERRUN (R155). -/
def withRounds (r : Nat × Bool) (o : Outcome) : Outcome :=
  if r.2 then { o with rounds := r.1 } else { ended .scriptOverrun o.interval with rounds := r.1 }

/-! ### ML-KEM (R126, R130 to R139) -/

/-- HEADER of a sealed seed (R130). -/
def sealHeader (p : Nat) : Bytes := leBytes 2 p ++ leBytes 2 1

/-- The associated data of a sealed seed: its header, the function, and its erase count (R130). DESIGN CHOICE of their widths
(assumption log 112). -/
def sealData (s : State) (f p : Nat) : Bytes := sealHeader p ++ leBytes 2 f ++ leBytes 4 (s.ten.eraseCount.getD f 0)

/-- The sealed form of a seed: header, nonce, and the encrypted seed with its tag (R130). -/
def sealSeed (s : State) (f p : Nat) (nonce seed : Bytes) : Bytes :=
  sealHeader p ++ nonce ++ gcmSeal s.keys.sealKey nonce (sealData s f p) seed

/-- The seed of a sealed blob that this device sealed under the present seal key for the function (R131). -/
def openSeed (s : State) (f p len : Nat) (b : Bytes) : Option Bytes :=
  if s.keys.sealPresent && b.take 4 = sealHeader p && b.length = 32 + len then
    gcmOpen s.keys.sealKey (slice b 4 12) (sealData s f p) (b.drop 16)
  else none

/-- Interval of an ML-KEM or hybrid keygen in its form (R158). -/
def keygenTime (e : Entry) (base : Nat) : Nat := if sealedForm e then base else base + commitAllowance

/-- SEALED with USAGE, EXPORTABLE or AUX_HANDLE set (R133). -/
def sealedKeygenBad (e : Entry) : Bool := keygenUsage e != 0 || keygenExportable e || e.auxHandle != 0

/-- The seed goes into a slot or, sealed, behind the public key. -/
def seedOutcome (s : State) (x : Seat) (fam : Nat) (seed pk : Bytes) (interval : Nat) : Outcome :=
  if sealedForm x.entry then
    if sealedKeygenBad x.entry then ended .invalidInput interval
    else done (pk ++ sealSeed s x.fn x.entry.ps (fresh x seed.length 12) seed) interval []
  else keygenOutcome x fam 0 seed pk interval

def mlKemKeygen (s : State) (x : Seat) (_ : Bytes) : Outcome :=
  let p := x.entry.ps
  let seed := fresh x 0 64
  seedOutcome s x 1 seed (mlKemEk p 0 seed) (keygenTime x.entry (mlKemTime p).1)

/-- ML_KEM_KEYGEN (R136). -/
def execMlKemKeygen (k : Nat) (s : State) : Host.Outcome State Fault Refusal := run (compute k 0x200 mlKemKeygen) s

/-- The FIPS 203 modulus check (R137): each 12-bit coefficient of an encapsulation key is below q. -/
def mlKemEkOk (ek : Bytes) : Bool :=
  (List.range ((ek.length - 32) * 2 / 3)).all fun i => bits (leAt ek (3 * (i / 2)) 3) (12 * (i % 2) + 11) (12 * (i % 2)) < 3329

/-- The FIPS 203 hash check of a decapsulation key: the hash behind its encapsulation key is that key's (R128). -/
def mlKemDkOk (p : Nat) (dk : Bytes) : Bool :=
  match mlKem p with
  | none => false
  | some (ek, len, _) => slice dk (len - 64) 32 = digestOf 0x0612 (slice dk (len - 64 - ek) ek) 32

/-- Ciphertext and shared secret for an encapsulation key and a message m drawn inside (R139). -/
def mlKemEncapsulate (p : Nat) (ek m : Bytes) : Bytes × Bytes :=
  (Config.prim .mlKemCt [tag p, ek, m] (match mlKem p with | some d => d.2.2 | none => 0),
   Config.prim .mlKemSs [tag p, ek, m] 32)

/-- Shared secret of a ciphertext under a key's material, implicit rejection included (R138). -/
def mlKemDecapsulate (p form : Nat) (m ct : Bytes) : Bytes := Config.prim .mlKemDecaps [tag p, tag form, m, ct] 32

def mlKemEncaps (s : State) (x : Seat) (input : Bytes) : Outcome :=
  let p := x.entry.ps
  let iv := (mlKemTime p).2.1 + depositTerm x.entry
  let len := match mlKem p with | some d => d.1 | none => 0
  if wrongKey s x 1 then ended .invalidKey iv
  else
    let ek := publicKeyOf s x input len
    if x.entry.keyHandle = 0 && !mlKemEkOk ek then ended .invalidKey iv
    else
      let r := mlKemEncapsulate p ek (fresh x 0 32)
      secretOutcome x r.1 r.2 iv

/-- ML_KEM_ENCAPS (R136). -/
def execMlKemEncaps (k : Nat) (s : State) : Host.Outcome State Fault Refusal := run (compute k 0x201 mlKemEncaps) s

/-- A private form and material: the slot's, or a sealed seed's. -/
def decapsKey (s : State) (x : Seat) (fam seedLen : Nat) (input : Bytes) : Option (Nat × Bytes) :=
  if sealedForm x.entry then (openSeed s x.fn x.entry.ps seedLen (input.take (seedLen + 32))).map fun b => (0, b)
  else (privateKey s x fam).map fun y => (y.form, y.material)

/-- The ciphertext behind a sealed seed. -/
def decapsInput (x : Seat) (seedLen : Nat) (input : Bytes) : Bytes :=
  if sealedForm x.entry then input.drop (seedLen + 32) else input

/-- The modifiers of a decapsulation's interval (R158). -/
def decapsTerm (e : Entry) : Nat := (if sealedForm e then 400 else 0) + depositTerm e

def mlKemDecaps (s : State) (x : Seat) (input : Bytes) : Outcome :=
  let p := x.entry.ps
  let iv := (mlKemTime p).2.2 + decapsTerm x.entry
  match decapsKey s x 1 64 input with
  | none => ended .invalidKey iv
  | some (form, m) => secretOutcome x [] (mlKemDecapsulate p form m (decapsInput x 64 input)) iv

/-- ML_KEM_DECAPS (R138). -/
def execMlKemDecaps (k : Nat) (s : State) : Host.Outcome State Fault Refusal := run (compute k 0x202 mlKemDecaps) s

/-! ### ML-DSA (R140 to R145) -/

/-- M′ of a pure or pre-hash form from ctx ‖ M, or ctx ‖ PH(M) (R142, R167). -/
def messagePrime (pre : Bool) (ctxLen ph : Nat) (b : Bytes) : Bytes :=
  [byte (bnat pre), byte ctxLen] ++ b.take ctxLen ++ (if pre then hashOid ph else []) ++ b.drop ctxLen

/-- Length of M′; with a PH_ALG not listed, as for a digest of length 0 (R143). -/
def messagePrimeLen (pre : Bool) (ctxLen ph : Nat) (b : Bytes) : Nat :=
  if pre then 2 + ctxLen + 11 + (phLen ph).getD 0 else 2 + b.length

/-- PH_ALG is not listed in R143. -/
def preHashBad (pre : Bool) (e : Entry) : Bool := pre && (phLen (e.arg 2)).isNone

def mlDsaKeygen (s : State) (x : Seat) (_ : Bytes) : Outcome :=
  let p := x.entry.ps
  let seed := fresh x 0 32
  keygenOutcome x 2 0 seed (publicOf s 2 p 0 seed) (mlDsaTime p).1

/-- ML_DSA_KEYGEN (R141). -/
def execMlDsaKeygen (k : Nat) (s : State) : Host.Outcome State Fault Refusal := run (compute k 0x210 mlDsaKeygen) s

/-- Signing, pure or pre-hash (R144, R155): hedged rounds depend on fresh randomness, deterministic ones on key and M′. -/
def mlDsaSign (pre : Bool) (s : State) (x : Seat) (input : Bytes) : Outcome :=
  let e := x.entry
  let p := e.ps
  let t := mlDsaTime p
  let det := e.argBit 1 0
  let mp := messagePrime pre (e.arg 0) (e.arg 2) input
  let key := privateKey s x 2
  let km := match key with | some y => [tag p, tag y.form, y.material, mp] | none => []
  let rnd := if det then zeros 32 else fresh x 0 32
  let r := if det then roundsOf (Config.primNat .mlDsaSig km 0) 1000 else freshRounds x 1000
  let iv (n : Nat) := t.2.1 + n * t.2.2.1 + mlDsaTerm (messagePrimeLen pre (e.arg 0) (e.arg 2) input)
  if preHashBad pre e then { ended .invalidInput (iv r.1) with rounds := r.1 }
  else if key.isNone then { ended .invalidKey (iv r.1) with rounds := r.1 }
  else withRounds r
    (done (Config.prim .mlDsaSig (km ++ [rnd]) (match mlDsa p with | some d => d.2.2 | none => 0)) (iv r.1) [])

/-- ML_DSA_SIGN (R141). -/
def execMlDsaSign (k : Nat) (s : State) : Host.Outcome State Fault Refusal := run (compute k 0x211 (mlDsaSign false)) s

/-- HASHML_DSA_SIGN (R141). -/
def execHashmlDsaSign (k : Nat) (s : State) : Host.Outcome State Fault Refusal := run (compute k 0x213 (mlDsaSign true)) s

def mlDsaVerify (pre : Bool) (s : State) (x : Seat) (input : Bytes) : Outcome :=
  let e := x.entry
  let p := e.ps
  let d := (mlDsa p).getD (0, 0, 0)
  let rest := afterKey x input d.1
  let msg := rest.drop d.2.2
  let iv := (mlDsaTime p).2.2.2 + mlDsaTerm (messagePrimeLen pre (e.arg 0) (e.arg 2) msg)
  if preHashBad pre e then ended .invalidInput iv
  else if wrongKey s x 2 then ended .invalidKey iv
  else verdict (Config.primHolds .mlDsaValid
    [tag p, publicKeyOf s x input d.1, rest.take d.2.2, messagePrime pre (e.arg 0) (e.arg 2) msg]) iv

/-- ML_DSA_VERIFY (R145). -/
def execMlDsaVerify (k : Nat) (s : State) : Host.Outcome State Fault Refusal := run (compute k 0x212 (mlDsaVerify false)) s

/-- HASHML_DSA_VERIFY (R145). -/
def execHashmlDsaVerify (k : Nat) (s : State) : Host.Outcome State Fault Refusal :=
  run (compute k 0x214 (mlDsaVerify true)) s

/-! ### Falcon (R128, R146 to R149) -/

def falconKeygen (_ : State) (x : Seat) (_ : Bytes) : Outcome :=
  let p := x.entry.ps
  let d := (falcon p).getD (0, 0, 0)
  let seed := fresh x 0 40
  let t := falconTime p
  let r := freshRounds x 256
  let pk := Config.prim .falconPk [tag p, seed] d.1
  withRounds r
    { keygenOutcome x 3 1 (Config.prim .falconKey [tag p, seed] d.2.1 ++ pk) pk (t.1 + r.1 * t.2.1) with rounds := r.1 }

/-- FALCON_KEYGEN (R146). -/
def execFalconKeygen (k : Nat) (s : State) : Host.Outcome State Fault Refusal := run (compute k 0x220 falconKeygen) s

/-- The signature of the round that succeeded, whose randomness is a fresh salt and the sampler's: the compressed s2 fits behind
the salt (R147). -/
def falconSignature (p : Nat) (material m random : Bytes) : Bytes :=
  let len := match falcon p with | some d => d.2.2 | none => 0
  let args := [tag p, material, m, random]
  falconPadded p len (random.take 40) (Config.prim .falconSig args (Config.primNat .falconSig args 0 % (len - 40)))

def falconSign (s : State) (x : Seat) (input : Bytes) : Outcome :=
  let p := x.entry.ps
  let t := falconTime p
  let r := freshRounds x 32
  let iv := t.2.2.1 + r.1 * t.2.2.2.1 + falconTerm input.length
  match privateKey s x 3 with
  | none => { ended .invalidKey iv with rounds := r.1 }
  | some y => withRounds r (done (falconSignature p y.material input (fresh x (96 * (r.1 - 1)) 96)) iv [])

/-- FALCON_SIGN (R147). -/
def execFalconSign (k : Nat) (s : State) : Host.Outcome State Fault Refusal := run (compute k 0x221 falconSign) s

def falconVerify (s : State) (x : Seat) (input : Bytes) : Outcome :=
  let p := x.entry.ps
  let d := (falcon p).getD (0, 0, 0)
  let rest := afterKey x input d.1
  let n := x.entry.argN 0 2
  let msg := rest.drop n
  let iv := (falconTime p).2.2.2.2 + falconTerm msg.length
  let pk := publicKeyOf s x input d.1
  if wrongKey s x 3 then ended .invalidKey iv
  else if x.entry.keyHandle = 0 && !falconPkOk p pk then ended .invalidKey iv
  else verdict (falconVerifies p pk (rest.take n) msg) iv

/-- FALCON_VERIFY (R147). -/
def execFalconVerify (k : Nat) (s : State) : Host.Outcome State Fault Refusal := run (compute k 0x222 falconVerify) s

/-! ### Hybrid KEMs (R150 to R153) -/

/-- KMAC of R151, and the allowance of R156. -/
def hybridKmac (e : Entry) : Bool := e.argBit 0 2
def hybridAllowance (e : Entry) : Nat := if hybridKmac e then 1200 else 200

/-- A classical scalar of a group from fresh bytes: clamped for X25519 and X448, in [1, n) for a curve. -/
def drawScalar (s : State) (group : Nat) (b : Bytes) : Bytes :=
  match xLen group with
  | some n => xClamp group (b.take n)
  | none => (match curveOf s group with | some c => beBytes c.nb (extraBits c (b.take (c.nb + 8))) | none => [])

/-- The classical secret of a scalar and a peer's public value; none for E_INVALID_POINT (R153). -/
def groupSecret (s : State) (group : Nat) (scalar peer : Bytes) : Option Bytes :=
  match xLen group with
  | some n =>
    let z := xMul group scalar peer
    if z = zeros n then none else some z
  | none => match curveOf s group with
    | none => none
    | some c =>
      if !pointOk c peer then none
      else match pointMul c (beNat scalar) (some (decodePoint c peer)) with
        | none => none
        | some (px, _) => some (beBytes c.fb px)

/-- Length of a group's public value. -/
def groupPublicLen (s : State) (group : Nat) : Nat :=
  match xLen group with
  | some n => n
  | none => (match curveOf s group with | some c => 1 + 2 * c.fb | none => 0)

/-- The combined secret: concatenation, or KMAC256 (R152). -/
def combine (e : Entry) (h : Hybrid) (pq cl ctCl pkCl ctPq : Bytes) : Bytes :=
  if hybridKmac e then kmac256 (pq ++ cl) (ctCl ++ pkCl ++ ctPq) "CHROELLE-HKEM" 32 else joinHybrid h pq cl

def hybridKeygen (s : State) (x : Seat) (_ : Bytes) : Outcome :=
  let p := x.entry.ps
  match hybrid p with
  | none => ended .paramSet 0
  | some h =>
    let seed := fresh x 0 64 ++ padTo 64 (drawScalar s h.group (fresh x 64 64))
    let iv := keygenTime x.entry ((mlKemTime h.kem).1 + groupTime h.group + 200)
    seedOutcome s x 4 seed (publicOf s 4 p 0 seed) iv

/-- HYBRID_KEM_KEYGEN (R151). -/
def execHybridKemKeygen (k : Nat) (s : State) : Host.Outcome State Fault Refusal := run (compute k 0x230 hybridKeygen) s

def hybridEncaps (s : State) (x : Seat) (input : Bytes) : Outcome :=
  let e := x.entry
  match hybrid e.ps with
  | none => ended .paramSet 0
  | some h =>
    let iv := (mlKemTime h.kem).2.1 + 2 * groupTime h.group + hybridAllowance e + depositTerm e
    let ekLen := match mlKem h.kem with | some d => d.1 | none => 0
    if wrongKey s x 4 then ended .invalidKey iv
    else
      let share := splitHybrid h ekLen (publicKeyOf s x input h.pk)
      if e.keyHandle = 0 && !mlKemEkOk share.1 then ended .invalidKey iv
      else
        let scalar := drawScalar s h.group (fresh x 32 64)
        let r := mlKemEncapsulate h.kem share.1 (fresh x 0 32)
        match groupSecret s h.group scalar share.2 with
        | none => ended .invalidPoint iv
        | some cl =>
          let eph := groupPublic s h.group scalar
          secretOutcome x (joinHybrid h r.1 eph) (combine e h r.2 cl eph share.2 r.1) iv

/-- HYBRID_KEM_ENCAPS (R152). -/
def execHybridKemEncaps (k : Nat) (s : State) : Host.Outcome State Fault Refusal := run (compute k 0x231 hybridEncaps) s

def hybridDecaps (s : State) (x : Seat) (input : Bytes) : Outcome :=
  let e := x.entry
  match hybrid e.ps with
  | none => ended .paramSet 0
  | some h =>
    let iv := (mlKemTime h.kem).2.2 + groupTime h.group + hybridAllowance e + decapsTerm e
    match decapsKey s x 4 128 input with
    | none => ended .invalidKey iv
    | some (_, m) =>
      let ctLen := match mlKem h.kem with | some d => d.2.2 | none => 0
      let ct := splitHybrid h ctLen (decapsInput x 128 input)
      let scalar := (m.drop 64).take (groupScalarLen s h.group)
      match groupSecret s h.group scalar ct.2 with
      | none => ended .invalidPoint iv
      | some cl =>
        let pq := mlKemDecapsulate h.kem 0 (m.take 64) ct.1
        secretOutcome x [] (combine e h pq cl ct.2 (groupPublic s h.group scalar) ct.1) iv

/-- HYBRID_KEM_DECAPS (R153). -/
def execHybridKemDecaps (k : Nat) (s : State) : Host.Outcome State Fault Refusal := run (compute k 0x232 hybridDecaps) s

end Sys2Proof.Machine
end

