-- ==== Sys2Proof/Machine/Classical.lean ====
section
/-! DEFINITION. The classical operations of chapter 08: RSA, ECDSA and ECDH, EdDSA, X25519 and X448, and the loading of
curves. -/

namespace Sys2Proof.Machine

/-! ### RSA (R206 to R212, R223) -/

/-- A candidate of R208: odd, in [√2 · 2^(L/2 - 1), 2^(L/2) - 1], from a free number. -/
def rsaCandidate (l free : Nat) : Nat :=
  let lo := (Nat.sqrt (2 ^ (l - 1)) + 1) / 2
  2 * (lo + free % (2 ^ (l / 2 - 1) - lo)) + 1

/-- The key of two primes and an exponent. -/
def rsaFromPrimes (e p q : Nat) : RsaKey :=
  { n := p * q, e := e, p := p, q := q, dp := invMod e (p - 1), dq := invMod e (q - 1), qinv := invMod q p }

/-- The public exponent of a keygen: 65,537, or the 32 bytes given (R207). -/
def rsaExponent (e : Entry) (input : Bytes) : Nat := if e.len = 0 then 65537 else beNat input

/-- A candidate passes the full test: prime, and e has no factor in common with its predecessor (R208). -/
def rsaPasses (e c : Nat) : Bool := Nat.gcd e (c - 1) = 1 && passesPrime c

/-- The rounds of a keygen from round `i` on, with the p found so far: p and q, and the rounds run in all (R208). A candidate that
would give |p − q| ≤ 2^(L/2 − 100) fails its round. -/
def rsaRounds (l e : Nat) (cand : Nat → Nat) : Nat → Nat → Option Nat → Option (Nat × Nat) × Nat
  | 0, i, _ => (none, i)
  | fuel + 1, i, found =>
    let c := rsaCandidate l (cand i)
    if !rsaPasses e c then rsaRounds l e cand fuel (i + 1) found
    else match found with
      | none => rsaRounds l e cand fuel (i + 1) (some c)
      | some p =>
        if (p - c) + (c - p) ≤ 2 ^ (l / 2 - 100) then rsaRounds l e cand fuel (i + 1) found else (some (p, c), i + 1)

/-- Keygen; how the reserved DRBG bytes make the candidates no rule says, so they are a free function of them. -/
def rsaKeygen (_ : State) (x : Seat) (input : Bytes) : Outcome :=
  let l := (rsaBits x.entry.ps).getD 2048
  let e := rsaExponent x.entry input
  let bad := e % 2 = 0 || e ≤ 2 ^ 16
  let r := rsaRounds l (if bad then 65537 else e) (Config.primNat .rsaKey [tag l, fresh x 0 64]) (4 * l) 0 none
  let iv := rsaKeygenTime l r.2
  if bad then { ended .invalidInput iv with rounds := r.2 }
  else match r.1 with
    | none => { ended .scriptOverrun iv with rounds := r.2 }
    | some (p, q) =>
      let key := rsaFromPrimes e p q
      { keygenOutcome x 10 1 (rsaMaterial l key) (beBytes (l / 8) key.n) iv with rounds := r.2 }

/-- RSA_KEYGEN (R208). -/
def execRsaKeygen (k : Nat) (s : State) : Host.Outcome State Fault Refusal := run (compute k 0x500 rsaKeygen) s

/-- The encoded message of a signature: PKCS1-v1_5, or PSS with a fresh salt. -/
def rsaEncode (e : Entry) (l : Nat) (salt h : Bytes) : Bytes :=
  if e.arg 0 = 1 then emsaPkcs1 (e.arg 1) (l / 8) h else emsaPss e l salt h

/-- KDK of R211: derived from the key-table key and the slot's handle and material; how they are joined, and the S string, no rule
says (assumption log 112). -/
def rsaKdk (s : State) (x : Seat) (m : Bytes) : Bytes :=
  kmacWith (ktk s) (leBytes 4 x.entry.keyHandle.toNat ++ m) (Config.keyLabel ++ [byte 2]) 32

/-- The synthetic message of implicit rejection (R211). -/
def rsaSynthetic (s : State) (x : Seat) (l : Nat) (m c : Bytes) : Bytes :=
  let t := kmac256 (rsaKdk s x m) c "CHROELLE-RSA-IR" (l / 8 + 2)
  (t.drop 2).take (beNat (t.take 2) % (l / 8 - 10))

/-- The outcome of a decryption from its encoded message. -/
def rsaDecoded (s : State) (x : Seat) (l : Nat) (m label c : Bytes) (em iv : Nat) : Outcome :=
  if x.entry.arg 0 = 3 then
    match pkcs1Unpad (beBytes (l / 8) em) with
    | some msg => done msg iv []
    | none => done (rsaSynthetic s x l m c) iv []
  else match oaepDecode x.entry l label (beBytes (l / 8) em) with
    | some msg => done msg iv []
    | none => ended .invalidInput iv

/-- x^d mod n by the CRT parts, checked with the public exponent inside the interval (R210). Which status and output a result
that fails the check gives no rule says: DESIGN CHOICE, S_OK with a free value (assumption log 119). -/
def rsaChecked (l : Nat) (k : RsaKey) (v : Nat) : Nat :=
  let r := rsaCrt k v
  if powMod r k.e k.n = v % k.n then r else beNat (Config.prim .rsaFault [rsaMaterial l k, beBytes (l / 8) v] (l / 8))

def rsaPrivate (s : State) (x : Seat) (input : Bytes) : Outcome :=
  let e := x.entry
  let l := (rsaBits e.ps).getD 2048
  let iv := rsaP (rsaWords l) + rsaAllowance e
  if rsaArgsBad e l then ended .invalidInput iv
  else match privateKey s x 10 with
    | none => ended .invalidKey iv
    | some y =>
      let key := rsaKeyOf l y.material
      if e.arg 0 = 1 ∨ e.arg 0 = 2 then 
        done (beBytes (l / 8) (rsaChecked l key (beNat (rsaEncode e l (fresh x 0 (e.argN 4 2)) input)))) iv []
      else
        let label := if e.arg 0 = 4 then input.take (e.argN 6 2) else []
        let c := if e.arg 0 = 4 then input.drop (e.argN 6 2) else input
        let v := beNat c
        if v ≤ 1 ∨ key.n ≤ v then ended .invalidInput iv
        else if e.arg 0 = 0 then done (beBytes (l / 8) (rsaChecked l key v)) iv []
        else rsaDecoded s x l y.material label c (rsaChecked l key v) iv

/-- RSA_PRIVATE (R210). -/
def execRsaPrivate (k : Nat) (s : State) : Host.Outcome State Fault Refusal := run (compute k 0x501 rsaPrivate) s

/-- A signature verifies under a mode: by its PKCS1-v1_5 encoding, or as PSS decides. -/
def rsaSignatureOk (e : Entry) (l em : Nat) (h : Bytes) : Bool :=
  if e.arg 0 = 1 then beBytes (l / 8) em = emsaPkcs1 (e.arg 1) (l / 8) h else pssOk e l (beBytes (l / 8) em) h

/-- n and e of the key that a public operation names; of a slot of another kind no rule gives an exponent, which the
interval needs. -/
def rsaPublicPart (s : State) (x : Seat) (l : Nat) (input : Bytes) : Nat × Nat :=
  if wrongKey s x 10 then (0, Config.primNat .rsaKey [tag l] 2 % 2 ^ 256)
  else
    let pk := publicKeyOf s x input (l / 8 + 32)
    (beNat (pk.take (l / 8)), beNat (slice pk (l / 8) 32))

def rsaPublic (s : State) (x : Seat) (input : Bytes) : Outcome :=
  let e := x.entry
  let l := (rsaBits e.ps).getD 2048
  let (n, exp) := rsaPublicPart s x l input
  let rest := afterKey x input (l / 8 + 32)
  let iv := rsaPublicTime l exp + rsaAllowance e
  let v := beNat (rest.take (l / 8))
  if rsaArgsBad e l then ended .invalidInput iv
  else if wrongKey s x 10 then ended .invalidKey iv
  else if e.keyHandle = 0 && !rsaPublicOk l n exp then ended .invalidKey iv
  else match e.arg 0 with
    | 0 => if n ≤ v then ended .invalidInput iv else done (beBytes (l / 8) (powMod v exp n)) iv []
    | 3 => done (beBytes (l / 8) (powMod (beNat (pkcs1Pad l (fresh x 0 (l / 8)) rest)) exp n)) iv []
    | 4 =>
      let em := oaepEncode e l (fresh x 0 (rsaHashLen e)) (rest.take (e.argN 6 2)) (rest.drop (e.argN 6 2))
      done (beBytes (l / 8) (powMod (beNat em) exp n)) iv []
    | _ =>
      if v = 0 ∨ n ≤ v then ended .verifyFail iv
      else verdict (rsaSignatureOk e l (powMod v exp n) (rest.drop (l / 8))) iv

/-- RSA_PUBLIC (R210). -/
def execRsaPublic (k : Nat) (s : State) : Host.Outcome State Fault Refusal := run (compute k 0x502 rsaPublic) s

/-! ### ECDSA and ECDH (R205, R217 to R219, R222, R223) -/

/-- The curve of the entry's PARAM_SET. -/
def seatCurve (s : State) (x : Seat) : Curve := (curveOf s x.entry.ps).getD emptyCurve

/-- An operation on a curve: an empty loaded slot ends it with E_PARAM_SET (R205). -/
def onCurveSlot (s : State) (x : Seat) (iv : Nat) (f : Curve → Outcome) : Outcome :=
  if curveEmpty s x.entry.ps then ended .paramSet iv else f (seatCurve s x)

def ecdsaKeygen (s : State) (x : Seat) (_ : Bytes) : Outcome :=
  let p := x.entry.ps
  let iv := (curveTimes s p).1
  onCurveSlot s x iv fun c =>
    let d := extraBits c (fresh x 0 (c.nb + 8))
    let pk := encodePoint c (baseMul c d)
    keygenOutcome x 11 1 (beBytes c.nb d ++ pk) pk iv

/-- ECDSA_KEYGEN (R218). -/
def execEcdsaKeygen (k : Nat) (s : State) : Host.Outcome State Fault Refusal := run (compute k 0x510 ecdsaKeygen) s

/-- r and s of a digest under a nonce. -/
def ecdsaPair (c : Curve) (d nonce z : Nat) : Nat × Nat :=
  let r := match baseMul c nonce with | some q => q.1 % c.n | none => 0
  (r, invMod nonce c.n * (z + r * d) % c.n)

def ecdsaSign (s : State) (x : Seat) (input : Bytes) : Outcome :=
  let e := x.entry
  let iv := (curveTimes s e.ps).2.1
  let det := e.argBit 0 0
  onCurveSlot s x iv fun c =>
    if det && (e.arg 1 = 0 || 3 < e.arg 1) then ended .invalidInput iv
    else match privateKey s x 11 with
      | none => ended .invalidKey iv
      | some y =>
        let d := beNat (y.material.take c.nb)
        let nonce := if det then rfc6979 c (e.arg 1) d input else extraBits c (fresh x 0 (c.nb + 8))
        let r := ecdsaPair c d nonce (bitsToInt c input)
        if r.1 = 0 ∨ r.2 = 0 then ended .scriptOverrun iv
        else done (beBytes c.nb r.1 ++ beBytes c.nb r.2) iv []

/-- ECDSA_SIGN (R218). -/
def execEcdsaSign (k : Nat) (s : State) : Host.Outcome State Fault Refusal := run (compute k 0x511 ecdsaSign) s

/-- r ‖ s verifies for a digest under a public point. -/
def ecdsaOk (c : Curve) (q : Nat × Nat) (r t z : Nat) : Bool :=
  let w := invMod t c.n
  r != 0 && r < c.n && t != 0 && t < c.n
    && (match pointAdd c (baseMul c (z * w % c.n)) (pointMul c (r * w % c.n) (some q)) with
        | none => false
        | some v => v.1 % c.n = r)

def ecdsaVerify (s : State) (x : Seat) (input : Bytes) : Outcome :=
  let iv := (curveTimes s x.entry.ps).2.2.1
  onCurveSlot s x iv fun c =>
    let pk := publicKeyOf s x input (1 + 2 * c.fb)
    let rest := afterKey x input (1 + 2 * c.fb)
    if wrongKey s x 11 then ended .invalidKey iv
    else if x.entry.keyHandle = 0 && !pointOk c pk then ended .invalidPoint iv
    else verdict (ecdsaOk c (decodePoint c pk) (beNat (rest.take c.nb)) (beNat (slice rest c.nb c.nb))
      (bitsToInt c (rest.drop (2 * c.nb)))) iv

/-- ECDSA_VERIFY (R219). -/
def execEcdsaVerify (k : Nat) (s : State) : Host.Outcome State Fault Refusal := run (compute k 0x512 ecdsaVerify) s

def ecdhAgree (s : State) (x : Seat) (input : Bytes) : Outcome :=
  let iv := (curveTimes s x.entry.ps).2.2.2 + depositTerm x.entry
  onCurveSlot s x iv fun c =>
    match privateKey s x 11 with
    | none => ended .invalidKey iv
    | some y =>
      if !pointOk c input then ended .invalidPoint iv
      else match pointMul c (c.h * beNat (y.material.take c.nb)) (some (decodePoint c input)) with
        | none => ended .invalidPoint iv
        | some q => secretOutcome x [] (beBytes c.fb q.1) iv

/-- ECDH (R219). -/
def execEcdh (k : Nat) (s : State) : Host.Outcome State Fault Refusal := run (compute k 0x513 ecdhAgree) s

/-! ### EdDSA (R217, R220, R222, R223) -/

def eddsaKeygen (_ : State) (x : Seat) (_ : Bytes) : Outcome :=
  let p := x.entry.ps
  let n := (eddsa p).getD 32
  let seed := fresh x 0 n
  let a := edPublic (edwardsOf p) seed
  keygenOutcome x 12 1 (seed ++ a) a (eddsaTime p).1

/-- EDDSA_KEYGEN (R220). -/
def execEddsaKeygen (k : Nat) (s : State) : Host.Outcome State Fault Refusal := run (compute k 0x520 eddsaKeygen) s

/-- A VARIANT that the curve does not define, or a context that the pure form of Ed25519 does not take (R220). -/
def eddsaFormBad (e : Entry) : Bool :=
  (e.ps = 0x0511 && e.arg 1 = 0 && e.arg 0 != 0) || (e.ps = 0x0512 && e.arg 1 = 1) || 2 < e.arg 1

def eddsaSign (s : State) (x : Seat) (input : Bytes) : Outcome :=
  let e := x.entry
  let iv := (eddsaTime e.ps).2.1 + eddsaTerm e.ps (input.length - e.arg 0) true
  if eddsaFormBad e then ended .invalidInput iv
  else match privateKey s x 12 with
    | none => ended .invalidKey iv
    | some y =>
      let n := (eddsa e.ps).getD 32
      done (edSign (edwardsOf e.ps) (e.arg 1) (y.material.take n) (y.material.drop n) (input.take (e.arg 0))
        (input.drop (e.arg 0))) iv []

/-- EDDSA_SIGN (R220). -/
def execEddsaSign (k : Nat) (s : State) : Host.Outcome State Fault Refusal := run (compute k 0x521 eddsaSign) s

def eddsaVerify (s : State) (x : Seat) (input : Bytes) : Outcome :=
  let e := x.entry
  let n := (eddsa e.ps).getD 32
  let pk := publicKeyOf s x input n
  let rest := afterKey x input n
  let sig := rest.take (2 * n)
  let tail := rest.drop (2 * n)
  let iv := (eddsaTime e.ps).2.2 + eddsaTerm e.ps (tail.length - e.arg 0) false
  if eddsaFormBad e then ended .invalidInput iv
  else if wrongKey s x 12 then ended .invalidKey iv
  else if e.keyHandle = 0 && !edPublicOk (edwardsOf e.ps) pk then ended .invalidPoint iv
  else verdict (edVerify (edwardsOf e.ps) (e.arg 1) pk sig (tail.take (e.arg 0)) (tail.drop (e.arg 0))) iv

/-- EDDSA_VERIFY (R220). -/
def execEddsaVerify (k : Nat) (s : State) : Host.Outcome State Fault Refusal := run (compute k 0x522 eddsaVerify) s

/-! ### X25519 and X448 (R221 to R223) -/

def xAgree (s : State) (x : Seat) (input : Bytes) : Outcome :=
  let e := x.entry
  let p := e.ps
  let n := (xLen p).getD 32
  if e.arg 0 = 0 then
    let iv := (xTime p).1
    let scalar := xClamp p (fresh x 0 n)
    if e.argBit 1 1 then ended .invalidInput iv
    else done (xPublic p scalar) iv [place x (newKey x 13 p 1 0x08 originInside (e.argBit 1 0) (scalar ++ xPublic p scalar))]
  else
    let iv := (xTime p).2 + depositTerm e
    if 1 < e.arg 0 then ended .invalidInput iv
    else match privateKey s x 13 with
      | none => ended .invalidKey iv
      | some y =>
        let z := xMul p (y.material.take n) input
        if z = zeros n then ended .invalidPoint iv else secretOutcome x [] z iv

/-- X25519 (R221). -/
def execX25519 (k : Nat) (s : State) : Host.Outcome State Fault Refusal := run (compute k 0x528 xAgree) s

/-- X448 (R221). -/
def execX448 (k : Nat) (s : State) : Host.Outcome State Fault Refusal := run (compute k 0x529 xAgree) s

/-! ### OP_CURVE_LOAD (R213 to R216, R410) -/

/-- The entry names the curve of a PARAM_SET: an opcode on short-Weierstrass curves, or a key of their family placed in the
clear. -/
def namesCurve (e : Entry) (p : Nat) : Bool :=
  e.ps = p && ([0x510, 0x511, 0x512, 0x513, 0x788].contains e.opc || (e.opc = 0x020 && bits (e.arg 2) 3 0 = 11))

/-- A key slot or a seat references a loaded curve slot (R216). -/
def curveReferenced (s : State) (i : Nat) : Bool :=
  let p := 0x05C0 + i
  (s.keys.slots.any fun y => y.2.occupied && y.2.family = 11 && y.2.paramSet = p)
    || s.seats.any fun y => namesCurve y.2.entry p

/-- A load or an unload; its time is not fixed, so the outcome carries none (R216). -/
def curveLoad (s : State) (x : Seat) (input : Bytes) : Outcome :=
  let i := x.entry.arg 0
  if 63 < i then ended .invalidInput 0
  else if paired s && twinAbsentLive s then ended .busy 0
  else if x.entry.argBit 1 0 then
    if curveReferenced s i then ended .busy 0
    else done [] 0 (if (s.keys.curves.get? i).isSome then [.curve i none] else [])
  else if (s.keys.curves.get? i).isSome then ended .busy 0
  else match curveCheck (curveOfRecord input) with
    | some n => { ended .curveRejected 0 with changes := [.curveRejected i n] }
    | none => done (digestOf 0x0612 input 32) 0 [.curve i (some input)]

/-- OP_CURVE_LOAD (R215). -/
def execOpCurveLoad (k : Nat) (s : State) : Host.Outcome State Fault Refusal := run (compute k 0x040 curveLoad) s

end Sys2Proof.Machine
end

