-- ==== Sys2Proof/Machine/CodeBased.lean ====
section
/-! DEFINITION. The code-based KEMs of chapter 07: Classic McEliece, its pinning, and HQC. -/

namespace Sys2Proof.Machine

/-! ### Padding of public keys (R191) -/

/-- The bytes at the ends of the rows of mceliece6960119: 1,547 rows of 677 bytes. -/
def rowEnds (pk : Bytes) : List Nat := (List.range (pk.length / 677)).map fun i => ((pk[677 * i + 676]?).getD 0).toNat

/-- The padding bits of a public key are zero. -/
def codePaddingOk (p : Nat) (pk : Bytes) : Bool :=
  let last := ((pk[pk.length - 1]?).getD 0).toNat
  if p = 0x0404 ∨ p = 0x0414 then (rowEnds pk).all fun b => b < 32
  else if p = 0x0421 ∨ p = 0x0423 then last < 32
  else if p = 0x0422 then last < 8
  else true

/-! ### Classic McEliece (R188 to R201) -/

/-- The bytes of a vector of n bits (R188). -/
def mceVectorLen (p : Nat) : Nat :=
  match p % 16 with
  | 1 => 436
  | 2 => 576
  | 3 => 836
  | 4 => 870
  | _ => 1024

/-- The session key of a vector and a ciphertext: H(1, e, C), or H(0, s, C) for a rejected one (R200). -/
def mceHash (b : Byte) (v ct : Bytes) : Bytes := sponge 136 0x1F ([b] ++ v ++ ct) 32

/-- s of a private key: from δ in seed form, at the end of the standard encoding otherwise (R190). -/
def mceRejector (p form : Nat) (m : Bytes) : Bytes :=
  if form = 0 then sponge 136 0x1F ([64] ++ m.take 32) (mceVectorLen p) else m.drop (m.length - mceVectorLen p)

/-- A padding bit of a ciphertext is set: the top 5 of the last byte for mceliece6960119. -/
def mcePaddingBad (p : Nat) (ct : Bytes) : Bool := p % 16 = 4 && 8 ≤ ((ct[ct.length - 1]?).getD 0).toNat

/-- The key of a ciphertext (R200): rejected implicitly where decoding yields no error vector of weight t, or a padding bit is
set. -/
def mceDecapsulate (p form : Nat) (m ct : Bytes) : Bytes :=
  let args := [tag p, tag form, m, ct]
  if mcePaddingBad p ct || !Config.primHolds .mceDecodes args then mceHash 0 (mceRejector p form m) ct
  else mceHash 1 (Config.prim .mceError args (mceVectorLen p)) ct

def mceKeygen (s : State) (x : Seat) (_ : Bytes) : Outcome :=
  let p := x.entry.ps
  let t := mceTime p
  let r := freshRounds x 64
  let seed := Config.prim .mceKey [tag p, fresh x 0 32, tag r.1] 32
  let pivots := if p < 0x0411 then List.replicate 8 0xFF else Config.prim .mceKey [tag p, seed] 8
  let m := seed ++ pivots
  withRounds r { keygenOutcome x 8 0 m (publicOf s 8 p 0 m) (t.1 + r.1 * t.2.1) with rounds := r.1 }

/-- MCELIECE_KEYGEN (R193). -/
def execMcelieceKeygen (k : Nat) (s : State) : Host.Outcome State Fault Refusal := run (compute k 0x400 mceKeygen) s

def mceEncaps (s : State) (x : Seat) (input : Bytes) : Outcome :=
  let p := x.entry.ps
  let d := (mceliece p).getD (0, 0, 0, 0)
  let iv := (if x.entry.keyHandle = 0 then 36800 else (mceTime p).2.2.1) + depositTerm x.entry
  let pk := publicKeyOf s x input d.1
  if wrongKey s x 8 then ended .invalidKey iv
  else if x.entry.keyHandle = 0 && !codePaddingOk p pk then ended .invalidKey iv
  else
    let e := Config.prim .mceError [tag p, fresh x 0 64] (mceVectorLen p)
    let ct := Config.prim .mceCt [tag p, pk, e] d.2.2.2
    secretOutcome x ct (mceHash 1 e ct) iv

/-- MCELIECE_ENCAPS (R198). -/
def execMcelieceEncaps (k : Nat) (s : State) : Host.Outcome State Fault Refusal := run (compute k 0x401 mceEncaps) s

def mceDecaps (s : State) (x : Seat) (input : Bytes) : Outcome :=
  let p := x.entry.ps
  let iv := (mceTime p).2.2.2.1 + depositTerm x.entry
  match privateKey s x 8 with
  | none => ended .invalidKey iv
  | some y => secretOutcome x [] (mceDecapsulate p y.form y.material input) iv

/-- MCELIECE_DECAPS (R200). -/
def execMcelieceDecaps (k : Nat) (s : State) : Host.Outcome State Fault Refusal := run (compute k 0x402 mceDecaps) s

/-- A pin or an unpin takes effect at the commit instant; its output is filled in there (R195, R196). -/
def mcePin (s : State) (x : Seat) (_ : Bytes) : Outcome :=
  let unpin := x.entry.argBit 0 0
  let iv := if unpin then 1600 else (mceTime x.entry.ps).2.2.2.2
  match pinTarget s x with
  | none => ended .invalidKey iv
  | some (i, _) => done [] iv [.pin i unpin]

/-- OP_MCE_PIN (R196). -/
def execOpMcePin (k : Nat) (s : State) : Host.Outcome State Fault Refusal := run (compute k 0x403 mcePin) s

/-! ### HQC (R189, R199, R200, R202) -/

def hqcKeygen (s : State) (x : Seat) (_ : Bytes) : Outcome :=
  let p := x.entry.ps
  let m := fresh x 0 96
  keygenOutcome x 9 0 m (publicOf s 9 p 0 m) (hqcTime p).1

/-- HQC_KEYGEN (R192). -/
def execHqcKeygen (k : Nat) (s : State) : Host.Outcome State Fault Refusal := run (compute k 0x410 hqcKeygen) s

def hqcEncaps (s : State) (x : Seat) (input : Bytes) : Outcome :=
  let p := x.entry.ps
  let d := (hqc p).getD (0, 0, 0)
  let iv := (hqcTime p).2.1 + depositTerm x.entry
  let pk := publicKeyOf s x input d.1
  if wrongKey s x 9 then ended .invalidKey iv
  else if x.entry.keyHandle = 0 && !codePaddingOk p pk then ended .invalidKey iv
  else
    let m := fresh x 0 48
    secretOutcome x (Config.prim .hqcCt [tag p, pk, m] d.2.2) (Config.prim .hqcSs [tag p, pk, m] 64) iv

/-- HQC_ENCAPS (R199). -/
def execHqcEncaps (k : Nat) (s : State) : Host.Outcome State Fault Refusal := run (compute k 0x411 hqcEncaps) s

/-- A padding bit of u is set: the top 3, 5 or 3 of its last byte (R189, R200). -/
def hqcPaddingBad (p : Nat) (ct : Bytes) : Bool :=
  let last (i : Nat) : Nat := ((ct[i]?).getD 0).toNat
  if p = 0x0421 then 32 ≤ last 2208 else if p = 0x0422 then 8 ≤ last 4481 else 32 ≤ last 7204

/-- The key of a ciphertext: the σ-derived one where re-encryption does not match or a padding bit is set (R200). -/
def hqcDecapsulate (p form : Nat) (m ct : Bytes) : Bytes :=
  let args := [tag p, tag form, m, ct]
  if hqcPaddingBad p ct || !Config.primHolds .hqcMatches args then Config.prim .hqcReject args 64
  else Config.prim .hqcDecaps args 64

def hqcDecaps (s : State) (x : Seat) (input : Bytes) : Outcome :=
  let p := x.entry.ps
  let iv := (hqcTime p).2.2 + depositTerm x.entry
  match privateKey s x 9 with
  | none => ended .invalidKey iv
  | some y => secretOutcome x [] (hqcDecapsulate p y.form y.material input) iv

/-- HQC_DECAPS (R200). -/
def execHqcDecaps (k : Nat) (s : State) : Host.Outcome State Fault Refusal := run (compute k 0x412 hqcDecaps) s

end Sys2Proof.Machine
end

