-- ==== Sys2Proof/Machine/Digest.lean ====
section
/-! DEFINITION. The digest operations of chapter 09: streams opened, absorbed into, finished, read, suspended, resumed and
closed, and digests of one shot. -/

namespace Sys2Proof.Machine

/-! ### Streams -/

/-- Bytes absorbed into a stream (R236); `keyed` when a key fragment is among them. -/
def Stream.absorb (t : Stream) (b : Bytes) (keyed : Bool) : Stream :=
  let all := t.buffer ++ b
  let r := digestBlocks t.alg (all.length / digestBlock t.alg) t.chain all
  { t with chain := r.1, buffer := r.2, count := t.count + b.length, keyed := t.keyed || keyed }

/-- A stream before its first byte, bound to the seat's ring (R231). -/
def Stream.start (x : Seat) (alg : Nat) : Stream :=
  { state := .opened, fn := x.fn, ringId := x.ringId, alg := alg, chain := digestStart alg, buffer := [], count := 0,
    keyed := false, serial := 0, dlen := 0, pos := 0 }

/-- Core time per block (R245). -/
def coreTime (a : Nat) (keyed : Bool) : Nat := if digestSha2 a then 2 else if keyed then 6 else 4

/-- The terms of an interval: K for `blocks` blocks, and 800 for each key fragment. -/
def digestTime (x : Seat) (a : Nat) (keyed : Bool) (base blocks : Nat) : Nat :=
  let frags := (x.frags.filter Fragment.isKey).length
  base + coreTime a (keyed || frags != 0) * blocks + 800 * frags

/-- A key fragment is refused (R242): its slot holds no secret byte string, an AES-256 key being none, or it is too long. -/
def fragmentRefused (s : State) (x : Seat) : Bool :=
  (x.frags.filter Fragment.isKey).any fun f =>
    256 < f.length.toNat || (match slotOf s f.handle with
      | some y => y.2.family != 14 || y.2.paramSet = 0x0F02
      | none => true)

/-- The entry carries a key fragment. -/
def keyedNow (x : Seat) : Bool := x.frags.any Fragment.isKey

/-! ### OPEN, ABSORB, FINISH, ONESHOT -/

def streamOpen (s : State) (x : Seat) (input : Bytes) : Outcome :=
  let a := x.entry.ps
  let iv := digestTime x a false 600 (x.entry.len / digestBlock a + 1)
  if fragmentRefused s x then ended .invalidKey iv
  else done [] iv [.openStream ((Stream.start x a).absorb input (keyedNow x))]

/-- OP_STREAM_OPEN (R235). -/
def execOpStreamOpen (k : Nat) (s : State) : Host.Outcome State Fault Refusal := run (compute k 0x600 streamOpen) s

/-- An operation on the stream in AUX_HANDLE; the checks at admission and dispatch found it open. AUX_HANDLE 0 names no stream
(R231, R532), and what then comes of the operation the spec does not say: DESIGN CHOICE, it ends with E_KEY_HANDLE at its commit
instant, with an interval of 0 (assumption log 114). -/
def onStream (s : State) (x : Seat) (f : Nat → Stream → Outcome) : Outcome :=
  match streamOf s x.entry.auxHandle.toNat with
  | none => ended .keyHandle 0
  | some (i, t) => f i t

def streamAbsorb (s : State) (x : Seat) (input : Bytes) : Outcome :=
  onStream s x fun i t =>
    let iv := digestTime x t.alg t.keyed 400 (Nat.min x.entry.len 65536 / digestBlock t.alg + 1)
    if t.state != .opened then ended .invalidInput iv
    else if fragmentRefused s x then ended .invalidKey iv
    else done [] iv [.setStream i (t.absorb input (keyedNow x))]

/-- OP_STREAM_ABSORB (R237). -/
def execOpStreamAbsorb (k : Nat) (s : State) : Host.Outcome State Fault Refusal := run (compute k 0x601 streamAbsorb) s

def streamFinish (s : State) (x : Seat) (input : Bytes) : Outcome :=
  onStream s x fun i t =>
    let n := x.entry.argN 0 4
    let iv := digestTime x t.alg t.keyed 400 (x.entry.len / digestBlock t.alg + 2)
    if t.state != .opened then ended .invalidInput iv
    else if !dlenOk t.alg n (2 ^ 32 - 1) then ended .invalidInput iv
    else if fragmentRefused s x then ended .invalidKey iv
    else
      let t := t.absorb input (keyedNow x)
      done [] iv [.setStream i { t with state := .finished, dlen := (fixedLen t.alg).getD n, pos := 0 }]

/-- OP_STREAM_FINISH (R236). -/
def execOpStreamFinish (k : Nat) (s : State) : Host.Outcome State Fault Refusal := run (compute k 0x602 streamFinish) s

def digestOneshot (s : State) (x : Seat) (input : Bytes) : Outcome :=
  let a := x.entry.ps
  let b := digestBlock a
  let n := x.entry.argN 0 4
  let iv := digestTime x a false 600 (x.entry.len / b + 2 + n / b)
  if !dlenOk a n 65536 then ended .invalidInput iv
  else if fragmentRefused s x then ended .invalidKey iv
  else done (digestOf a input ((fixedLen a).getD n)) iv []

/-- OP_DIGEST_ONESHOT (R235). -/
def execOpDigestOneshot (k : Nat) (s : State) : Host.Outcome State Fault Refusal := run (compute k 0x610 digestOneshot) s

/-! ### READ (R240, R241) -/

def digestRead (s : State) (x : Seat) (_ : Bytes) : Outcome :=
  onStream s x fun i t =>
    let e := x.entry
    let want := e.argN 0 4
    let iv := match fixedLen t.alg with
      | some _ => 240
      | none => digestTime x t.alg t.keyed 240 (want / digestBlock t.alg + 1)
    let n := (fixedLen t.alg).getD want
    let from_ := if (fixedLen t.alg).isSome || e.argBit 4 0 then 0 else t.pos
    if readArgsBad e t.alg then ended .invalidInput iv
    else if t.state = .opened then { ended .notFinished iv with out := zeros n }
    else if t.dlen < from_ + n then ended .invalidInput iv
    else
      let moved := if (fixedLen t.alg).isSome then [] else [Change.setStream i { t with pos := from_ + n }]
      done (digestOut t.alg t.chain t.buffer t.count from_ n) iv moved

/-- OP_DIGEST_READ (R241). -/
def execOpDigestRead (k : Nat) (s : State) : Host.Outcome State Fault Refusal := run (compute k 0x603 digestRead) s

/-! ### SUSPEND, RESUME, CLOSE (R243, R244) -/

/-- ERASE_COUNT of a function; 0 for the PF. -/
def eraseCountOf (s : State) (f : Nat) : Nat := if f = 0 then 0 else s.ten.eraseCount.getD f 0

/-- Bytes 0 to 39 of a stream's blob. -/
def blobHead (s : State) (t : Stream) (nonce : Bytes) : Bytes :=
  leBytes 4 (t.alg + fld 1 16 + fld (bnat t.keyed) 24) ++ leBytes 2 t.fn ++ [byte t.ringId, 0] ++ leBytes 8 t.serial
    ++ leBytes 8 t.count ++ nonce ++ leBytes 4 (eraseCountOf s t.fn)

/-- TAG of a plain blob, under a key derived from the context key; its derivation is not printed (assumption log 112). -/
def plainTag (key text : Bytes) : Bytes := kmac256 (kmacWith key [] (Config.keyLabel ++ [byte 3]) 32) text "CHROELLE-STREAM" 16

/-- Bytes 40 to 423 under a context key: encrypted with the GCM tag when keyed, else in the clear with the KMAC tag. -/
def sealBody (key head body : Bytes) (keyed : Bool) : Bytes :=
  if keyed then gcmSeal key (slice head 24 12) head body else body ++ plainTag key (head ++ body)

/-- The blob of a stream. -/
def blobOf (s : State) (t : Stream) (nonce : Bytes) : Bytes :=
  let head := blobHead s t nonce
  head ++ sealBody (contextKey s) head (padTo 200 t.chain ++ padTo 168 t.buffer) t.keyed

/-- STATE and BUFFER of a blob that a context key verifies. -/
def openBody (key b : Bytes) : Option Bytes :=
  if blobKeyed b then gcmOpen key (slice b 24 12) (b.take 40) (b.drop 40)
  else if b.drop 408 = plainTag key (b.take 408) then some (slice b 40 368) else none

def streamSuspend (s : State) (x : Seat) (_ : Bytes) : Outcome :=
  onStream s x fun i t =>
    if t.state != .opened then ended .invalidInput 1200
    else done (blobOf s t (if t.keyed then fresh x 0 12 else zeros 12)) 1200 [.closeStream i]

/-- OP_STREAM_SUSPEND (R243). -/
def execOpStreamSuspend (k : Nat) (s : State) : Host.Outcome State Fault Refusal := run (compute k 0x604 streamSuspend) s

/-- The fields of R243 hold in a blob, and a tag verifies: this device's, or the twin's for a blob whose SERIAL and TAG it
holds while both devices share their streams (R419). -/
def blobBody (s : State) (b : Bytes) : Option Bytes :=
  let fieldsOk := leAt b 2 1 = 1 && bits (leAt b 3 1) 7 1 = 0 && leAt b 7 1 = 0 && (digestAlg (leAt b 0 2)).isSome
  let shared := s.twn.streamCkpt && s.twn.peerStreamCkpt && s.twn.held.contains (leAt b 8 8, b.drop 408)
  if !fieldsOk then none
  else match openBody (contextKey s) b with
    | some m => some m
    | none => if shared then openBody s.twn.peerContext b else none

/-- The stream of a blob; always OPEN (R234). -/
def streamOfBlob (b body : Bytes) : Stream :=
  let a := leAt b 0 2
  let count := leAt b 16 8
  { state := .opened, fn := leAt b 4 2, ringId := leAt b 6 1, alg := a, chain := body.take 200,
    buffer := (body.drop 200).take (count % digestBlock a), count := count, keyed := blobKeyed b, serial := leAt b 8 8,
    dlen := 0, pos := 0 }

def streamResume (s : State) (x : Seat) (input : Bytes) : Outcome :=
  match blobBody s input with
  | none => ended .auth 1600
  | some body =>
    let t := streamOfBlob input body
    if leAt input 36 4 != eraseCountOf s t.fn % 2 ^ 32 then ended .auth 1600
    else if t.fn != x.fn || t.ringId != x.ringId then ended .keyOwner 1600
    else if s.dig.streams.any fun y => y.2.serial = t.serial then ended .busy 1600
    else done [] 1600 [.openStream t]

/-- OP_STREAM_RESUME (R244). -/
def execOpStreamResume (k : Nat) (s : State) : Host.Outcome State Fault Refusal := run (compute k 0x605 streamResume) s

def streamClose (s : State) (x : Seat) (_ : Bytes) : Outcome := onStream s x fun i _ => done [] 200 [.closeStream i]

/-- OP_STREAM_CLOSE (R234). -/
def execOpStreamClose (k : Nat) (s : State) : Host.Outcome State Fault Refusal := run (compute k 0x606 streamClose) s

end Sys2Proof.Machine
end

