-- ==== Sys2Proof/Machine/KeyTable.lean ====
section
/-! DEFINITION. The key-table operations of chapter 10, OP_CHALLENGE, and the random-number opcodes of chapter 11. -/

namespace Sys2Proof.Machine

/-! ### Keys placed by import or in the clear (R128, R165, R173, R191, R206, R217, R262, R263) -/

/-- The placement checks of a key's encoding. -/
def placementOk (s : State) (fam p form : Nat) (m : Bytes) : Bool :=
  let c := (curveOf s p).getD emptyCurve
  let l := (rsaBits p).getD 2048
  match fam, form with
  | 1, 1 => mlKemDkOk p m
  | 1, 2 => mlKemEkOk m
  | 3, 1 => m.head? = some (falconHeader p 0x50) && Config.primHolds .falconSkOk [tag p, m]
      && (match falcon p with | some d => falconPkOk p (m.drop d.2.1) | none => false)
  | 3, 2 => falconPkOk p m
  | 6, 2 => true
  | 7, 2 => true
  | 6, _ => false
  | 7, _ => false
  | 8, 2 => codePaddingOk p m
  | 9, 2 => codePaddingOk p m
  | 10, 1 => rsaPrivateOk l (rsaKeyOf l m)
  | 10, 2 => rsaPublicOk l (beNat (m.take (l / 8))) (beNat (m.drop (l / 8)))
  | 11, 1 => ecPrivateOk c m
  | 11, 2 => pointOk c m
  | 12, 1 => (match eddsa p with | some n => m.drop n = edPublic (edwardsOf p) (m.take n) | none => false)
  | 12, 2 => edPublicOk (edwardsOf p) m
  | 13, 1 => (match xLen p with | some n => m.drop n = xPublic p (m.take n) | none => false)
  | _, _ => true

/-- The function is set up: the PF, or a VF with a tenant-table entry. -/
def ownerSetUp (s : State) (f : Nat) : Bool := f = 0 || (s.ten.table.get? f).isSome

def keyWriteClear (s : State) (x : Seat) (input : Bytes) : Outcome :=
  let e := x.entry
  let fam := bits (e.arg 2) 3 0
  let form := bits (e.arg 1) 2 1
  let owner := keyOwner x
  let iv := 5600 + 2 * ceilDiv e.len 64 + placementTime s fam e.ps form
  if !familyDefinesForm s fam e.ps form || !ownerSetUp s owner then ended .invalidInput iv
  else if (homeOf s owner).twin then ended .keyOwner iv
  else if exportBad (keygenUsage e) (keygenExportable e) then ended .invalidInput iv
  else if !placementOk s fam e.ps form input then ended .invalidKey iv
  else done [] iv
    [place x { newKey x fam e.ps form (keygenUsage e) originClear (keygenExportable e) input with owner := owner }]

/-- OP_KEY_WRITE_CLEAR (R262). -/
def execOpKeyWriteClear (k : Nat) (s : State) : Host.Outcome State Fault Refusal := run (compute k 0x020 keyWriteClear) s

/-- An AES-256 key in a handle. -/
def aesKey (s : State) (h : Nat) : Option Slot :=
  match slotOf s h with
  | none => none
  | some (_, y) => if y.family = 14 ∧ y.paramSet = 0x0F02 then some y else none

/-- The plaintext header of R263. -/
def wrapHeader (fam p form usage : Nat) (exportable : Bool) (len : Nat) : Bytes :=
  [byte 1, byte fam] ++ leBytes 2 p ++ [byte form, byte usage, byte (bnat exportable), 0] ++ leBytes 4 len ++ zeros 4

/-- A header of R263 that its rules allow. -/
def wrapHeaderOk (s : State) (pt : Bytes) : Bool :=
  let fam := leAt pt 1 1
  let p := leAt pt 2 2
  16 ≤ pt.length && leAt pt 0 1 = 1 && familyParam fam p && familyDefinesForm s fam p (leAt pt 4 1) && leAt pt 5 1 < 128
    && leAt pt 6 1 ≤ 1 && leAt pt 7 1 = 0 && leAt pt 12 4 = 0

/-- The material has the length of its form; a secret's length is that of its PARAM_SET (R262). -/
def materialLenOk (s : State) (fam p form n : Nat) : Bool :=
  if fam = 14 then
    match p with
    | 0x0F01 => 16 ≤ n && n ≤ 256
    | 0x0F02 => n = 32
    | _ => [32, 64, 80, 88].contains n
  else match formLen s fam p form with
    | some m => n = m
    | none => true

/-- The usage bits of `a` all stand in `b`. -/
def usageWithin (a b : Nat) : Bool := a &&& b = a

def keyImport (s : State) (x : Seat) (input : Bytes) : Outcome :=
  let e := x.entry
  let base := 5600 + 24 * ceilDiv e.len 8
  match aesKey s e.keyHandle.toNat with
  | none => ended .invalidKey base
  | some key =>
    match kwpUnwrap key.material input with
    | none => ended .auth base
    | some pt =>
      let fam := leAt pt 1 1
      let p := leAt pt 2 2
      let form := leAt pt 4 1
      let m := pt.drop 16
      if !wrapHeaderOk s pt || leAt pt 8 4 != m.length then ended .auth base
      else
        let iv := base + placementTime s fam p form
        if !usageWithin (keygenUsage e) (leAt pt 5 1) || (keygenExportable e && leAt pt 6 1 = 0)
            || exportBad (keygenUsage e) (keygenExportable e) then ended .invalidInput iv
        else if !materialLenOk s fam p form m.length || !placementOk s fam p form m then ended .invalidKey iv
        else done [] iv [place x (newKey x fam p form (keygenUsage e) originWrapped (keygenExportable e) m)]

/-- OP_KEY_IMPORT_WRAPPED (R263). -/
def execOpKeyImportWrapped (k : Nat) (s : State) : Host.Outcome State Fault Refusal := run (compute k 0x101 keyImport) s

def keyExport (s : State) (x : Seat) (_ : Bytes) : Outcome :=
  match keySlot s x with
  | none => ended .invalidKey 2400
  | some y =>
    let iv := 2400 + 24 * ceilDiv (16 + y.material.length) 8
    match aesKey s x.entry.auxHandle.toNat with
    | none => ended .invalidKey iv
    | some w =>
      done (kwpWrap w.material (wrapHeader y.family y.paramSet y.form y.usage y.exportable y.material.length ++ y.material))
        iv []

/-- OP_KEY_EXPORT_WRAPPED (R264). -/
def execOpKeyExportWrapped (k : Nat) (s : State) : Host.Outcome State Fault Refusal := run (compute k 0x102 keyExport) s

/-! ### Secrets generated and derived (R261) -/

/-- USAGE or LENGTH outside the list of the PARAM_SET. -/
def secretArgsBad (e : Entry) : Bool :=
  let n := e.argN 2 2
  if e.ps = 0x0F01 then !usageWithin (keygenUsage e) 0x48 || n < 16 || 256 < n
  else !usageWithin (keygenUsage e) 0x70 || n != 32

def keyGenerate (_ : State) (x : Seat) (_ : Bytes) : Outcome :=
  let e := x.entry
  if secretArgsBad e || exportBad (keygenUsage e) (keygenExportable e) then ended .invalidInput 7200
  else done [] 7200
    [place x (newKey x 14 e.ps 3 (keygenUsage e) originInside (keygenExportable e) (fresh x 0 (e.argN 2 2)))]

/-- OP_KEY_GENERATE (R261). -/
def execOpKeyGenerate (k : Nat) (s : State) : Host.Outcome State Fault Refusal := run (compute k 0x100 keyGenerate) s

def keyDerive (s : State) (x : Seat) (input : Bytes) : Outcome :=
  let e := x.entry
  let n := e.argN 2 2
  let iv := 9200 + 8 * ceilDiv e.len 136
  if secretArgsBad e || exportBad (keygenUsage e) (keygenExportable e) then ended .invalidInput iv
  else match keySlot s x with
    | none => ended .invalidKey iv
    | some y =>
      if y.family != 14 || (y.paramSet != 0x0F01 && y.paramSet != 0x0F03) then ended .invalidKey iv
      else if keygenExportable e && !y.exportable then ended .invalidInput iv
      else
        let head := leftEncode e.ps ++ leftEncode n ++ leftEncode (keygenUsage e)
        let m := kmac256 y.material (head ++ input) "CHROELLE-KDF" n
        done [] iv [place x (newKey x 14 e.ps 3 (keygenUsage e) originDerived (keygenExportable e) m)]

/-- OP_KEY_DERIVE (R261). -/
def execOpKeyDerive (k : Nat) (s : State) : Host.Outcome State Fault Refusal := run (compute k 0x103 keyDerive) s

def keyDestroy (s : State) (x : Seat) (_ : Bytes) : Outcome :=
  match slotOf s x.entry.keyHandle.toNat with
  | none => ended .invalidKey 4800
  | some (i, _) => done [] 4800 [.destroyKey i]

/-- OP_KEY_DESTROY (R265). -/
def execOpKeyDestroy (k : Nat) (s : State) : Host.Outcome State Fault Refusal := run (compute k 0x104 keyDestroy) s

/-! ### OP_KEY_PUBLIC and OP_KEY_INFO (R266, R267) -/

/-- The interval of OP_KEY_PUBLIC (R273). -/
def publicTime (fam p : Nat) : Nat :=
  match fam with
  | 1 => (mlKemTime p).1
  | 4 => (match hybrid p with | some h => (mlKemTime h.kem).1 + groupTime h.group + 200 | none => 0)
  | 2 => (mlDsaTime p).1 - commitAllowance
  | 9 => (hqcTime p).1 - commitAllowance
  | _ => 1600

def keyPublic (s : State) (x : Seat) (_ : Bytes) : Outcome :=
  match keySlot s x with
  | none => ended .invalidKey 1600
  | some y =>
    let iv := publicTime y.family y.paramSet
    if y.family = 14 then ended .invalidKey iv else done (publicOf s y.family y.paramSet y.form y.material) iv []

/-- OP_KEY_PUBLIC (R266). -/
def execOpKeyPublic (k : Nat) (s : State) : Host.Outcome State Fault Refusal := run (compute k 0x106 keyPublic) s

/-- The 16 bytes of OP_KEY_INFO for a slot. -/
def slotInfo (y : Slot) : Bytes := leBytes 12 (directory y 0) ++ leBytes 4 y.commitSeq

def keyInfo (s : State) (x : Seat) (_ : Bytes) : Outcome :=
  let e := x.entry
  match e.arg 0 with
  | 0 => (match keySlot s x with | none => ended .invalidKey 800 | some y => done (slotInfo y) 800 [])
  | 1 =>
    let y := slotAt s (e.argN 2 2)
    if x.fn != 0 && y.owner != x.fn then ended .keyOwner 800 else done (slotInfo y) 800 []
  | 2 =>
    let f := if x.fn = 0 then e.argN 6 2 else x.fn
    let hs := ((slotsOf s f).filter fun y => e.argN 4 2 ≤ y.1).take ((e.cap - 4) / 4)
    done (leBytes 4 hs.length ++ hs.flatMap fun y => leBytes 4 (handleFrom y.1 y.2.gen)) 8000 []
  | _ => ended .invalidInput 800

/-- OP_KEY_INFO (R267). -/
def execOpKeyInfo (k : Nat) (s : State) : Host.Outcome State Fault Refusal := run (compute k 0x107 keyInfo) s

/-! ### OP_KEY_ATTEST and OP_CHALLENGE (R269 to R271) -/

/-- SHA-384 of the active stage plan; zeros without a plan. -/
def stageDigest (s : State) : Bytes := padTo 48 (match activePlan s with | some p => p.digest | none => [])

/-- The 256-byte statement body (R269). -/
def attestBody (s : State) (h : Nat) (y : Slot) (nonce : Bytes) : Bytes :=
  let flags := bnat s.tmp.curtainDown + fld (bnat y.mirror) 1 + fld (bnat (paired s)) 2
  let pk := if y.family = 14 then zeros 48 else digestOf 0x0603 (publicOf s y.family y.paramSet y.form y.material) 48
  leBytes 2 1 ++ [byte (lc s).code, byte flags] ++ leBytes 4 h ++ leBytes 8 s.otp.serial.toNat ++ stageDigest s
    ++ leBytes 2 y.owner ++ [byte y.family, byte y.form] ++ leBytes 2 y.paramSet
    ++ [byte y.usage, byte y.origin, byte (bnat y.exportable), byte nonce.length] ++ zeros 6 ++ leBytes 8 y.commitSeq
    ++ zeros 40 ++ pk ++ zeros 16 ++ padTo 64 nonce

/-- The two certificate chains, each behind its length; at most 16,384 bytes together (R270). -/
def chains : Bytes :=
  let n := Config.primNat .certChain [] 0 % 8189
  let m := Config.primNat .certChain [] 1 % 8189
  leBytes 4 n ++ Config.prim .certChain [tag 0] n ++ leBytes 4 m ++ Config.prim .certChain [tag 1] m

def keyAttest (s : State) (x : Seat) (input : Bytes) : Outcome :=
  if x.entry.argBit 0 0 then done chains 1600 []
  else
    let r := freshRounds x 1000
    let iv := 133616 + 11200 * r.1
    match keySlot s x with
    | none => { ended .invalidKey iv with rounds := r.1 }
    | some y =>
      let body := attestBody s x.entry.keyHandle.toNat y input
      let who := [tag s.otp.serial.toNat, body]
      withRounds r (done (body ++ Config.prim .attestSig (who ++ [tag 0, fresh x 0 32]) 4627
        ++ Config.prim .attestSig (who ++ [tag 1, fresh x 32 56]) 96) iv [])

/-- OP_KEY_ATTEST (R269). -/
def execOpKeyAttest (k : Nat) (s : State) : Host.Outcome State Fault Refusal := run (compute k 0x105 keyAttest) s

/-- Bytes 0 to 63 of the answer layout (R271). -/
def answerHead (s : State) : Bytes :=
  [byte (lc s).code, byte (bnat s.tmp.curtainDown), byte (bnat s.stg.active)] ++ zeros 5
    ++ leBytes 8 s.otp.serial.toNat ++ stageDigest s

def challengeOutcome (s : State) (x : Seat) (input : Bytes) : Outcome :=
  match x.entry.arg 0 with
  | 0 => (match s.keys.liveness with
    | none => ended .auth 2400
    | some l => done (answerHead s ++ kmac256 l (input ++ answerHead s) "CHROELLE-LIVE" 32) 2400 [])
  | 1 =>
    let new := input.take 32
    let want := match s.keys.liveness with | some l => kmac256 l new "CHROELLE-LIVE-SET" 32 | none => zeros 32
    if input.drop 32 = want then done [] 2400 [.liveness new] else ended .auth 2400
  | _ => ended .invalidInput 2400

/-- OP_CHALLENGE (R271). -/
def execOpChallenge (k : Nat) (s : State) : Host.Outcome State Fault Refusal := run (compute k 0x070 challengeOutcome) s

/-! ### OP_RNG_KAT and OP_RANDOM (R297, R298) -/

/-- 1,024 decimated bits, first bit in bit 0 of byte 0. -/
def bitsOf (b : Bytes) : List Bool := b.flatMap fun c => (List.range 8).map fun i => c.getLsbD i

/-- The health tests on a string of bits: longest run, count of the first bit, and what fails. -/
def healthOutput (b : Bytes) : Bytes :=
  let bs := bitsOf b
  let run := (runsOf (bs.headD false) 0 0 bs).2.2
  let n := firstBitCount bs
  leBytes 2 run ++ leBytes 2 n ++ [byte (bnat (decide (rctCutoff ≤ run)) + fld (bnat (decide (aptCutoff ≤ n))) 1)] ++ zeros 3

/-- The expander's second output: the test instance instantiates, reseeds, and generates `r` bytes twice. The fields that a FLAG
names as absent are empty (R297). -/
def expandOutput (e : Entry) (b : Bytes) (r : Nat) : Bytes :=
  let opt (on : Bool) (off : Nat) := if on then slice b off 48 else []
  let add (off : Nat) := opt (e.argBit 1 1) off
  let d := CtrDrbg.instantiate (slice b 0 48) (slice b 48 16) (opt (e.argBit 1 0) 64)
  let d := (d.reseed (slice b 112 48) (add 160)).ready (add 208)
  let d := (d.after r (add 208)).ready (add 256)
  d.output 0 r

/-- The result of built-in vector `i`: 0 pass, 1 fail. -/
def builtinKat (i : Nat) : Byte := byte (bnat (!Config.primHolds .builtinKatOk [tag i]))

def rngKat (_ : State) (x : Seat) (input : Bytes) : Outcome :=
  let e := x.entry
  let r := e.argN 4 2
  match e.arg 0 with
  | 0 => done (digestOf 0x0612 input 32) (1600 + 8 * ceilDiv e.len 136) []
  | 1 =>
    if r < 16 ∨ 512 < r ∨ r % 16 ≠ 0 then ended .invalidInput 4064
    else done (expandOutput e input r) (4000 + 64 * ceilDiv r 16) []
  | 2 => done (healthOutput input) 2400 []
  | 3 => done ([builtinKat 0, builtinKat 1, builtinKat 2] ++ zeros 5) 40000 []
  | _ => ended .invalidInput 1600

/-- OP_RNG_KAT (R297). -/
def execOpRngKat (k : Nat) (s : State) : Host.Outcome State Fault Refusal := run (compute k 0x078 rngKat) s

def random (_ : State) (x : Seat) (_ : Bytes) : Outcome :=
  let n := x.entry.argN 0 4
  if n = 0 ∨ 65536 < n then ended .invalidInput 432 else done (fresh x 0 n) (400 + 32 * ceilDiv n 16) []

/-- OP_RANDOM (R298). -/
def execOpRandom (k : Nat) (s : State) : Host.Outcome State Fault Refusal := run (compute k 0x700 random) s

end Sys2Proof.Machine
end

