-- ==== Sys2Proof/Machine/Recorder.lean ====
section
/-! DEFINITION. The event recorder: flushes, token buckets, operating time, and the log opcodes (R476 to R490). -/

namespace Sys2Proof.Machine

/-! ### Flushes (R479, R483) -/

/-- A record reaches MRAM: the opening area, or once that is full the running area, over its oldest (R483). -/
def storeRecord (s : State) (e : Evt) : State :=
  if s.evr.opening.length < Config.openingSize then { s with evr := { s.evr with opening := s.evr.opening ++ [e] } }
  else if s.evr.running.length < Config.runningSize then { s with evr := { s.evr with running := s.evr.running ++ [e] } }
  else bump Ctr.evrOverwritten 1 { s with evr := { s.evr with running := s.evr.running.drop 1 ++ [e] } }

/-- Records that wait for a place enter in order (R479). -/
def enterWaiting (s : State) : State :=
  s.evr.waiting.foldl (fun t e => recordEvt e t) { s with evr := { s.evr with waiting := [] } }

/-- The next flush, when the records that came meanwhile ask for one. -/
def flushAgain (s : State) : State :=
  if 256 ≤ s.evr.buffer.length || s.evr.buffer.any (fun e => 2 ≤ e.severity) then startFlush s else s

/-- A flush ends: its records are in MRAM and their places free (R479). -/
def flushDone (s : State) : State :=
  if s.evr.flushing = 0 then s
  else
    let out := s.evr.buffer.take s.evr.flushing
    let s := { s with evr := { s.evr with buffer := s.evr.buffer.drop s.evr.flushing, flushing := 0 } }
    flushAgain (enterWaiting (out.foldl storeRecord s))

/-- EVR_FLUSH_COMPLETE (R479). -/
def execEvrFlushComplete (s : State) : Host.Outcome State Fault Refusal := run flushDone s

/-! ### Token buckets and operating time (R478, R481) -/

/-- A bucket that is not full gains a token. -/
def refill (code : Nat) (s : State) : State :=
  match s.evr.buckets.get? code with
  | none => s
  | some b =>
    if b.tokens < s.evr.burst then
      { s with evr := { s.evr with buckets := s.evr.buckets.put code { tokens := b.tokens + 1, since := s.now } } }
    else s

/-- TOKEN_REFILL (R481). -/
def execTokenRefill (code : Nat) (s : State) : Host.Outcome State Fault Refusal := run (refill code) s

/-- HOURS_SAVE (R478). -/
def execHoursSave (s : State) : Host.Outcome State Fault Refusal :=
  run (fun s => { s with evr := { s.evr with saved := s.evr.time } }) s

/-- EVR_RATE as stored (R490). -/
def storedRate (v : Nat) : Nat := Nat.max 1 (v % 256)

/-! ### OP_LOG_READ (R484, R485) -/

/-- The log as it stood at dispatch. -/
def logReadOutcome (_s : State) (x : Seat) (_ : Bytes) : Outcome :=
  let f := x.entry.argN 4 2
  if 4097 ≤ f ∧ f ≠ 0xFFFF then ended .invalidInput 0 else done x.chunks 0 []

/-- OP_LOG_READ (R484). -/
def execOpLogRead (k : Nat) (s : State) : Host.Outcome State Fault Refusal := run (compute k 0x060 logReadOutcome) s

/-! ### Maker responses and OP_LOG_CLEAR (R469, R486, R487) -/

/-- RESPONSE of the maker to the challenge, for a PURPOSE and a TARGET (R469, R486). -/
def makerResponse (s : State) (purpose target : Nat) : Bytes :=
  kmac256 s.otp.makerSecret (s.lcs.nonce ++ s.lcs.answer ++ [byte purpose, byte target]) "CHROELLE-MAKER" 32

/-- The checks of R486. A challenge serves one attempt. -/
def logClearOutcome (s : State) (x : Seat) (input : Bytes) : Outcome :=
  let maker := x.entry.argBit 0 0
  if Config.historySize ≤ s.evr.history.length then ended .quota 0
  else if !maker then (if x.approval then done [] 0 [.logClear false] else ended .auth 0)
  else if !s.lcs.challenge then ended .auth 0
  else if input = makerResponse s 2 0 then done [] 0 [.challengeUsed, .logClear true]
  else { ended .auth 0 with changes := [.challengeUsed] }

/-- OP_LOG_CLEAR (R486). -/
def execOpLogClear (k : Nat) (s : State) : Host.Outcome State Fault Refusal := run (compute k 0x061 logClearOutcome) s

/-- Tokens counted for the approval that an operation reserved. -/
def reservedMask (s : State) : Nat := match s.tkb.approval with | .reserved c _ => countedMask c | _ => 0

/-- The log is cleared in one commit (R486): the LOG_CLEAR record is opening record 0, and a copy enters the history. -/
def applyLogClear (maker : Bool) (s : State) : Status × Bytes × State :=
  if Config.historySize ≤ s.evr.history.length then (.quota, [], s)
  else
    let all := logRecords s
    let low := match all.head? with | some e => e.sequence | none => s.evr.next
    let detail := [byte (bnat maker)] ++ leBytes 2 (if maker then 0 else reservedMask s) ++ [0] ++ leBytes 4 low
      ++ leBytes 4 all.length
    let e := { mkEvt s 0x0B01 2 deviceWide detail with sequence := s.evr.next }
    let s := { s with evr := { s.evr with
      opening := [e], running := [], buffer := [], flushing := 0, history := s.evr.history ++ [e],
      next := (s.evr.next + 1) % 2 ^ 32 } }
    (.ok, leBytes 4 e.sequence ++ leBytes 4 all.length, enterWaiting (bump Ctr.evrRecords 1 s))

end Sys2Proof.Machine
end

