-- ==== Sys2Proof/Machine/Binary64.lean ====
section
/-! DEFINITION. Binary64 arithmetic of the vector instruction set (R366): exact values, one rounding to nearest with ties to
even, infinities and NaNs. -/

namespace Sys2Proof.Machine

/-- What 64 bits stand for: a finite value is `m * 2 ^ (e - 1074)`. -/
inductive Bin64 where
  | nan
  | inf (neg : Bool)
  | fin (neg : Bool) (m e : Nat)
  deriving DecidableEq, Repr

def Bin64.ofBits (v : Nat) : Bin64 :=
  let e := bits v 62 52
  let f := bits v 51 0
  if e = 2047 then (if f = 0 then .inf (bit v 63) else .nan)
  else if e = 0 then .fin (bit v 63) f 0
  else .fin (bit v 63) (2 ^ 52 + f) (e - 1)

def signBit (neg : Bool) : Nat := fld (bnat neg) 63
def infBits (neg : Bool) : Nat := signBit neg + fld 2047 52

/-- `m / 2 ^ n` to the nearest, ties to even. -/
def roundShift (m n : Nat) : Nat :=
  if n = 0 then m
  else
    let q := m / 2 ^ n
    let r := m % 2 ^ n
    if 2 ^ (n - 1) < r ∨ (r = 2 ^ (n - 1) ∧ q % 2 = 1) then q + 1 else q

/-- Number of bits of a value. -/
def width (n : Nat) : Nat := if n = 0 then 0 else Nat.log2 n + 1

/-- The bits of `m * 2 ^ (e - 1074) / 2 ^ s`, rounded once. -/
def roundBits (neg : Bool) (m e s : Nat) : Nat :=
  if m = 0 then signBit neg
  else
    -- the value is M * 2 ^ -(1074 + s) with M = m * 2 ^ e; `top` bits of it lie above the least subnormal
    let v := m * 2 ^ e
    let top := width v - s
    let b := if top ≤ 53 then roundShift v s else (top - 53) * 2 ^ 52 + roundShift v (s + top - 53)
    if fld 2047 52 ≤ b then infBits neg else signBit neg + b

/-- A NaN: its payload and sign are not stated. -/
def nanBits (op : Nat) (args : List Nat) : Nat :=
  let p := Config.nanPayload op args
  signBit (p % 2 = 1) + fld 2047 52 + (1 + p / 2 % (2 ^ 52 - 1))

/-- The sum of two exact values, each `m * 2 ^ (e - 1074 - s)`. -/
def addExact (n1 : Bool) (m1 e1 : Nat) (n2 : Bool) (m2 e2 s : Nat) : Nat :=
  let a := m1 * 2 ^ e1
  let b := m2 * 2 ^ e2
  if n1 = n2 then roundBits n1 (a + b) 0 s
  else if a = b then signBit false
  else if b < a then roundBits n1 (a - b) 0 s
  else roundBits n2 (b - a) 0 s

def Bin64.flip : Bin64 → Bin64
  | .nan => .nan
  | .inf n => .inf !n
  | .fin n m e => .fin (!n) m e

def addBin (op : Nat) (args : List Nat) (x y : Bin64) : Nat :=
  match x, y with
  | .nan, _ => nanBits op args
  | _, .nan => nanBits op args
  | .inf n, .inf k => if n = k then infBits n else nanBits op args
  | .inf n, .fin _ _ _ => infBits n
  | .fin _ _ _, .inf k => infBits k
  | .fin n m e, .fin k l f => addExact n m e k l f 0

/-- The product of finite values is `m * l * 2 ^ (e + f - 2148)`. -/
def mulBin (op : Nat) (args : List Nat) (x y : Bin64) : Nat :=
  match x, y with
  | .nan, _ => nanBits op args
  | _, .nan => nanBits op args
  | .inf n, .inf k => infBits (n != k)
  | .inf n, .fin k m _ => if m = 0 then nanBits op args else infBits (n != k)
  | .fin k m _, .inf n => if m = 0 then nanBits op args else infBits (n != k)
  | .fin n m e, .fin k l f => roundBits (n != k) (m * l) (e + f) 1074

def fmaBin (args : List Nat) (x y z : Bin64) : Nat :=
  let addInf (n : Bool) : Nat := match z with
    | .nan => nanBits 0x73 args
    | .inf k => if n = k then infBits n else nanBits 0x73 args
    | .fin _ _ _ => infBits n
  match x, y with
  | .nan, _ => nanBits 0x73 args
  | _, .nan => nanBits 0x73 args
  | .inf n, .inf k => addInf (n != k)
  | .inf n, .fin k m _ => if m = 0 then nanBits 0x73 args else addInf (n != k)
  | .fin k m _, .inf n => if m = 0 then nanBits 0x73 args else addInf (n != k)
  | .fin n m e, .fin k l f => (match z with
    | .nan => nanBits 0x73 args
    | .inf j => infBits j
    | .fin j p g => addExact (n != k) (m * l) (e + f) j p (g + 1074) 1074)

/-- A signed 64-bit integer as binary64 (vfcvti). -/
def fromInt (v : Nat) : Nat :=
  if bit v 63 then roundBits true (2 ^ 64 - v) 1074 0 else roundBits false v 1074 0

/-- The nearest signed 64-bit integer, saturating, NaN to 0 (vfrnd). -/
def toInt (x : Bin64) : Nat :=
  let put (n : Bool) (a : Nat) : Nat :=
    if n then (if a = 0 then 0 else 2 ^ 64 - Nat.min a (2 ^ 63)) else Nat.min a (2 ^ 63 - 1)
  match x with
  | .nan => 0
  | .inf n => put n (2 ^ 63)
  | .fin n m e => if 2000 ≤ e then put n (if m = 0 then 0 else 2 ^ 63) else put n (roundShift (m * 2 ^ e) 1074)

/-- The five operations of the unit by VOP, on 64-bit patterns. -/
def binOp (op a b c : Nat) : Nat :=
  match op with
  | 0x70 => addBin op [a, b] (.ofBits a) (.ofBits b)
  | 0x71 => addBin op [a, b] (.ofBits a) (Bin64.ofBits b).flip
  | 0x72 => mulBin op [a, b] (.ofBits a) (.ofBits b)
  | 0x73 => fmaBin [a, b, c] (.ofBits a) (.ofBits b) (.ofBits c)
  | 0x74 => fromInt a
  | _ => toInt (.ofBits a)

end Sys2Proof.Machine
end

