-- ==== Sys2Proof/Machine/Vector.lean ====
section
/-! DEFINITION. The vector instruction set of chapter 14: registers and groups, the VA and VM slots, masked mode, and the
memory windows. A slot reads the side as it stood before the word (`x`) and writes into the side as it stands after it
(`y`). -/

namespace Sys2Proof.Machine

/-- What a side runs on: its seat, header and row, its windows, and the free values of this word. -/
structure Ctx where
  seat : Seat
  hdr : Header
  row : Bytes
  rowIndex : Nat
  half : Bool
  /-- staged input bytes, one a buffer for a streamed input -/
  operand : Bytes
  bufferB : Bytes
  keyFragLines : List Nat
  keyMat : Option Bytes
  auxMat : Option Bytes
  /-- the staging buffer of the next chunk is full -/
  chunkStaged : Bool
  word : Nat → Option (BitVec 192)
  /-- the free counter of this word -/
  free : Nat
  /-- values that the partner has offered to PCMP -/
  partner : List Nat

/-- Header flags (R346). -/
def Header.masked (h : Header) : Bool := bit h.flags 0
def Header.hasRounds (h : Header) : Bool := bit h.flags 3
def Header.streamed (h : Header) : Bool := bit h.flags 4
def Header.shuffle (h : Header) : Bool := bit h.flags 7

/-- The header's footprint holds a word address (R331). -/
def Header.holds (h : Header) (pc : Nat) : Bool := h.footprint.any fun r => r.1 ≤ pc && pc < r.1 + r.2
def Header.words (h : Header) : Nat := sumOf (h.footprint.map Prod.snd)

/-- Width of a vector register in bits. -/
def Ctx.w (c : Ctx) : Nat := if c.half then 256 else 512

/-- A free number below `2 ^ (8 n)`, the `i`-th of this word. -/
def Ctx.freeNat (c : Ctx) (i n : Nat) : Nat := leNat ((List.range n).map fun j => Config.freeByte c.free (64 * i + j))

/-! ### Registers -/

def SideState.vreg (x : SideState) (r : Nat) : VReg := x.v.getD r { val := 0, masked := false }
def SideState.sreg (x : SideState) (r : Nat) : SReg := x.s.getD r { val := 0, masked := false }
def SideState.sval (x : SideState) (r : Nat) : Nat := (x.sreg r).val.toNat
def SideState.areg (x : SideState) (r : Nat) : Nat := x.a.getD r 0
def SideState.qreg (x : SideState) (r : Nat) : Nat := x.q.getD r 0

def SideState.setS (r v : Nat) (masked : Bool) (y : SideState) : SideState :=
  { y with s := y.s.put r { val := BitVec.ofNat 64 v, masked := masked } }
def SideState.setA (r v : Nat) (y : SideState) : SideState := { y with a := y.a.put r (v % 2 ^ 32) }
def SideState.setV (r v : Nat) (masked : Bool) (y : SideState) : SideState :=
  { y with v := y.v.put r { val := BitVec.ofNat 512 v, masked := masked } }

/-! ### vshape (R357, R358) -/

def ewOf (shape : Nat) : Nat := 16 * 2 ^ bits shape 1 0
def groupOf (shape : Nat) : Nat := 2 ^ bits shape 4 2
def SideState.ew (x : SideState) : Nat := ewOf x.vshape
def SideState.group (x : SideState) : Nat := groupOf x.vshape
def SideState.mm (x : SideState) : Bool := bit x.vshape 5
def SideState.pl (x : SideState) : Bool := bit x.vshape 6
def shapeReserved (shape : Nat) : Bool := bits shape 1 0 = 3 || 5 ≤ bits shape 4 2
def vcap (w shape : Nat) : Nat := w * groupOf shape / ewOf shape

/-- A register group as one number, element 0 lowest. -/
def groupVal (c : Ctx) (x : SideState) (r g : Nat) : Nat :=
  sumOf ((List.range g).map fun j => (x.vreg (r + j)).val.toNat % 2 ^ c.w * 2 ^ (c.w * j))

def groupMasked (x : SideState) (r g : Nat) : Bool := (List.range g).any fun j => (x.vreg (r + j)).masked

/-- Elements 0 to vl - 1 of a group. -/
def elements (c : Ctx) (x : SideState) (r : Nat) : List Nat :=
  let v := groupVal c x r x.group
  (List.range x.vl).map fun i => v / 2 ^ (i * x.ew) % 2 ^ x.ew

/-- Elements packed into one number. -/
def packEls (ew : Nat) (l : List Nat) : Nat := l.foldr (fun e n => e % 2 ^ ew + 2 ^ ew * n) 0

/-- The low `n` bits of a group become those of `v`, tagged `masked`; the rest keeps its value. Where a register's tag
changes, what its other elements then hold is not stated (R358, R373): a free value. -/
def writeGroup (c : Ctx) (r n v : Nat) (masked : Bool) (y : SideState) : SideState :=
  (List.range 16).foldl (fun y j =>
    let lo := Nat.min c.w (n - c.w * j)
    if lo = 0 then y
    else
      let old := y.vreg (r + j)
      let tail := if old.masked = masked then old.val.toNat % 2 ^ c.w / 2 ^ lo else c.freeNat (r + j) 64 % 2 ^ (c.w - lo)
      y.setV (r + j) (v / 2 ^ (c.w * j) % 2 ^ lo + 2 ^ lo * tail) masked) y

def writeEls (c : Ctx) (x : SideState) (r : Nat) (l : List Nat) (y : SideState) : SideState :=
  writeGroup c r (x.vl * x.ew) (packEls x.ew l) x.mm y

/-! ### Use of units and registers, for the timing of R378 to R380 -/

/-- Register numbers for the timing: v 0 to 31, s from 32, a from 64, q from 80. -/
def sNum (r : Nat) : Nat := 32 + r
def aNum (r : Nat) : Nat := 64 + r
def qNum (r : Nat) : Nat := 80 + r

/-- The registers of a group. -/
def regsOf (r g : Nat) : List Nat := (List.range g).map fun j => r + j

/-- What one vector instruction occupies; unit 9 is the move path, which never waits. -/
structure Use where
  unit : Nat
  occupied : Nat
  latency : Nat
  srcs : List Nat
  dests : List Nat
  /-- share-buffer bytes drawn (R375) -/
  draw : Nat
  partialLoad : Bool
  /-- the hash core that a sampler reads, of its family -/
  core : Option Nat
  deriving DecidableEq, Repr

/-! ### The VA table (R363, R378) -/

/-- Masked classes: linear, refreshing, converting, not allowed. -/
inductive MaskClass where
  | lin | refresh | conv | never
  deriving DecidableEq, Repr

/-- One row: unit, L, O, element widths, masked class, and the fields that it names; `s3v` a vector group in VS3, `s3s` a
scalar. -/
structure VaOp where
  unit : Nat
  lat : Nat
  occ : Nat
  ews : List Nat
  cls : MaskClass
  s1 : Bool
  s2 : Bool
  s3v : Bool
  s3s : Bool
  q : Bool
  imm : Nat
  /-- the destination is read too -/
  acc : Bool
  deriving DecidableEq, Repr

def vaRow (unit lat occ : Nat) (ews : List Nat) (cls : MaskClass) (s1 s2 q : Bool) (imm : Nat) : VaOp :=
  { unit := unit, lat := lat, occ := occ, ews := ews, cls := cls, s1 := s1, s2 := s2, s3v := false, s3s := false, q := q,
    imm := imm, acc := false }

/-- The row of a VOP. -/
def vaOp (op : Nat) : Option VaOp :=
  let m := [16, 32]
  let all := [16, 32, 64]
  match op with
  | 0x01 => some (vaRow 0 4 1 m .lin true true true 0)
  | 0x02 => some (vaRow 0 4 1 m .lin true true true 0)
  | 0x03 => some (vaRow 0 4 1 m .refresh true true true 0)
  | 0x04 => some (vaRow 0 4 1 m .refresh true true true 0)
  | 0x05 => some { vaRow 0 4 1 m .refresh true true true 0 with acc := true }
  | 0x06 => some { vaRow 0 4 1 m .refresh true true true 0 with acc := true }
  | 0x07 => some (vaRow 0 4 1 m .lin true false true 0)
  | 0x08 => some (vaRow 0 4 1 m .lin true false true 0)
  | 0x10 => some { vaRow 1 5 2 m .lin true true true 0 with acc := true }
  | 0x11 => some { vaRow 1 5 2 m .lin true true true 0 with acc := true }
  | 0x20 => some (vaRow 2 3 2 m .conv true false true 0x000F)
  | 0x21 => some (vaRow 2 2 1 m .lin true false true 0x000F)
  | 0x22 => some (vaRow 2 2 1 all .lin true false false 0x003F)
  | 0x23 => some (vaRow 2 2 1 all .lin true false false 0x003F)
  | 0x24 => some (vaRow 2 2 1 all .lin true true false 0)
  | 0x25 => some (vaRow 2 2 1 all .lin true true false 0x000F)
  | 0x26 => some (vaRow 2 2 1 all .lin true true false 0x001F)
  | 0x27 => some (vaRow 2 2 1 all .lin true false false 0x03FF)
  | 0x28 => some (vaRow 2 2 1 m .never false false false 0)
  | 0x30 => some (vaRow 3 2 1 all .lin true true false 0)
  | 0x31 => some (vaRow 3 2 1 all .lin true true false 0)
  | 0x32 => some (vaRow 3 2 1 all .refresh true true false 0)
  | 0x33 => some (vaRow 3 2 1 all .refresh true true false 0)
  | 0x34 => some (vaRow 3 2 1 all .lin true true false 0)
  | 0x35 => some (vaRow 3 2 1 all .lin true false false 0x003F)
  | 0x36 => some (vaRow 3 2 1 all .lin true false false 0x003F)
  | 0x37 => some (vaRow 3 2 1 all .lin true false false 0x003F)
  | 0x38 => some (vaRow 3 2 1 all .conv true true false 0x0003)
  | 0x39 => some { vaRow 3 2 1 all .refresh true true false 0 with s3v := true }
  | 0x3A => some (vaRow 3 2 1 all .refresh true false false 0)
  | 0x3C => some (vaRow 3 2 1 m .conv true false true 0)
  | 0x3D => some (vaRow 3 2 1 m .conv true false true 0)
  | 0x40 => some (vaRow 4 2 1 m .lin false false true 0x0037)
  | 0x41 => some { vaRow 4 2 1 m .lin false false true 0xFFF0 with s3s := true }
  | 0x50 => some (vaRow 5 6 1 [64] .refresh true true false 0)
  | 0x51 => some (vaRow 5 6 1 [64] .refresh true true false 0)
  | 0x52 => some { vaRow 5 6 1 [64] .refresh true true false 0 with s3s := true, acc := true }
  | 0x53 => some { vaRow 5 6 1 [64] .lin false true false 0 with s3s := true, acc := true }
  | 0x54 => some { vaRow 5 6 1 [64] .lin false true false 0 with s3s := true, acc := true }
  | 0x60 => some (vaRow 6 4 1 [64] .refresh true true false 0)
  | 0x61 => some (vaRow 6 4 1 [64] .refresh true true false 0)
  | 0x62 => some (vaRow 6 4 4 [16] .refresh true true true 0x001F)
  | 0x70 => some (vaRow 7 4 1 [64] .never true true false 0)
  | 0x71 => some (vaRow 7 4 1 [64] .never true true false 0)
  | 0x72 => some (vaRow 7 4 1 [64] .never true true false 0)
  | 0x73 => some { vaRow 7 6 1 [64] .never true true false 0 with s3v := true }
  | 0x74 => some (vaRow 7 4 1 [64] .never true false false 0)
  | 0x75 => some (vaRow 7 4 1 [64] .never true false false 0)
  | _ => none

/-- The fields of a VA slot. -/
structure Va where
  op : Nat
  vd : Nat
  vs1 : Nat
  vs2 : Nat
  vs3 : Nat
  q : Nat
  ss : Bool
  imm : Nat
  deriving DecidableEq, Repr

def Va.of (v : Nat) : Va :=
  { op := bits v 47 40, vd := bits v 39 35, vs1 := bits v 34 30, vs2 := bits v 29 25, vs3 := bits v 24 20,
    q := bits v 19 17, ss := bit v 16, imm := bits v 15 0 }

/-- A field that the instruction does not name is not zero (R363). -/
def Va.stray (i : Va) (r : VaOp) : Bool :=
  (!r.s1 && i.vs1 != 0) || (!r.s2 && (i.vs2 != 0 || i.ss)) || (!r.s3v && !r.s3s && i.vs3 != 0) || (!r.q && i.q != 0)
    || i.imm &&& r.imm != i.imm

/-- VS2 is a scalar: broadcast, or the multiplier of vwmac. -/
def Va.scalar2 (i : Va) : Bool := i.ss || i.op = 0x52

/-- The vector source groups. -/
def Va.groups (i : Va) (r : VaOp) : List Nat :=
  (if r.s1 then [i.vs1] else []) ++ (if r.s2 && !i.scalar2 then [i.vs2] else []) ++ (if r.s3v then [i.vs3] else [])
    ++ (if r.acc then [i.vd] else [])

/-- The scalar sources. -/
def Va.scalars (i : Va) (r : VaOp) : List Nat :=
  (if r.s2 && i.scalar2 then [i.vs2] else []) ++ (if r.s3s && i.op != 0x41 then [i.vs3] else [])

/-- The destination groups. -/
def Va.dests (i : Va) : List Nat := if i.op = 0x10 ∨ i.op = 0x11 then [i.vd, i.vs1] else [i.vd]

/-- A group is misplaced: not a multiple of G, past v31, or partly over a destination (R360). -/
def groupsBad (g : Nat) (srcs dests : List Nat) : Bool :=
  (srcs ++ dests).any (fun r => r % g != 0 || 32 < r + g)
    || dests.any fun d => srcs.any fun r => r != d && r < d + g && d < r + g

/-- A modulus register that fails R361, for the instructions that need one: modular, butterfly, compress, decompress; the
reduction polynomial of vgfmul fails R363. -/
def modulusBad (x : SideState) (i : Va) : Bool :=
  let q := x.qreg i.q % 2 ^ 32
  if i.op < 0x20 ∨ i.op = 0x20 ∨ i.op = 0x21 then q % 2 = 0 || q < 3 || 2 ^ (x.ew - 1) ≤ q
  else if i.op = 0x62 then
    let m := i.imm
    m < 2 || 16 < m || !bit q m || q % 2 ^ 17 / 2 ^ (m + 1) != 0
  else false

/-- An immediate outside the range its row gives. -/
def immBad (x : SideState) (i : Va) : Bool :=
  match i.op with
  | 0x20 => i.imm = 0 || 12 < i.imm
  | 0x21 => i.imm = 0 || 12 < i.imm
  | 0x22 => i.imm = 0 || x.ew < i.imm
  | 0x23 => i.imm = 0 || x.ew < i.imm
  | 0x25 => x.vl % (2 * 2 ^ bits i.imm 3 0) != 0
  | 0x26 => x.vl % (2 * 2 ^ bits i.imm 3 0) != 0
  | 0x40 => bits i.imm 2 0 = 0 || 4 < bits i.imm 2 0
  | 0x41 => bits i.imm 7 6 = 3
  | _ => false

/-- The Keccak core that a sampler reads is outside the lease. -/
def coreBad (c : Ctx) (i : Va) : Bool := (i.op = 0x40 || i.op = 0x41) && c.hdr.keccak ≤ bits i.imm 5 4

/-- Masked operands among the sources. -/
def maskedSources (x : SideState) (i : Va) (r : VaOp) : Nat :=
  ((i.groups r).filter fun g => groupMasked x g x.group).length + ((i.scalars r).filter fun g => (x.sreg g).masked).length

/-- VS2 is masked. -/
def Va.masked2 (x : SideState) (i : Va) : Bool := if i.ss then (x.sreg i.vs2).masked else groupMasked x i.vs2 x.group

/-- The instruction refreshes: class N with two masked operands, and a butterfly by the same rule where its VS2 is masked
(R363, R375, R378). -/
def refreshes (x : SideState) (i : Va) (r : VaOp) : Bool :=
  x.mm && 2 ≤ maskedSources x i r && (r.cls = .refresh || (r.unit = 1 && i.masked2 x))

/-- What R372 and R373 refuse: a masked source in unmasked mode, an instruction not allowed in masked mode, a masked VS2 of
vperm, share conversion outside masked mode, vrperm without SHUFFLE. -/
def maskBad (c : Ctx) (x : SideState) (i : Va) (r : VaOp) : Bool :=
  (!x.mm && 0 < maskedSources x i r) || (x.mm && r.cls = .never)
    || (i.op = 0x24 && i.masked2 x)
    || ((i.op = 0x3C || i.op = 0x3D) && !x.mm) || (i.op = 0x28 && !c.hdr.shuffle)
    || ((i.op = 0x40 || i.op = 0x41) && !x.mm
        && (match x.cores.get? (bits i.imm 5 4) with | some k => k.maskedMode | none => false))

/-! ### Hash cores of the lease (R309, R339) -/

/-- Keccak cores are numbered 0 to 2, SHA-2 cores 3 to 5. -/
def coreNum (family core : Nat) : Nat := 3 * family + core

def HashCore.idle : HashCore :=
  { started := false, rate := 0, domain := 0, sha512 := false, maskedMode := false, absorbed := [], padded := false,
    out := 0, readyAt := 0 }

def SideState.core (x : SideState) (n : Nat) : HashCore := x.cores.getD n HashCore.idle

/-- The first `n` output bytes of a padded core: the digest of SHA-2, or the sponge of any rate that leaves a state (R339);
none where no rule gives them. -/
def HashCore.output (k : HashCore) (sha2 : Bool) (n : Nat) : Option Bytes :=
  if !k.padded then none
  else if sha2 then (if n ≤ (if k.sha512 then 64 else 32) then some (digestOf (if k.sha512 then 0x0604 else 0x0602) k.absorbed n) else none)
  else if 1 ≤ k.rate && k.rate ≤ 25 then some (sponge (8 * k.rate) (byte k.domain) k.absorbed n)
  else none

/-- Block of a core in bytes, and CCLK of one permutation or compression. -/
def HashCore.block (k : HashCore) (sha2 : Bool) : Nat :=
  if sha2 then (if k.sha512 then 128 else 64) else Nat.max 1 (8 * k.rate)
def HashCore.step (k : HashCore) (sha2 : Bool) : Nat := if sha2 then 2 else if k.maskedMode then 6 else 4

/-- Output bytes of a core from its present output position. -/
def HashCore.read (k : HashCore) (sha2 : Bool) (n : Nat) : Bytes :=
  match k.output sha2 (k.out + n) with
  | some b => b.drop k.out
  | none =>
    (Config.prim .hash [tag (bnat sha2), tag k.rate, tag k.domain, tag (bnat k.sha512), tag (bnat k.padded), k.absorbed]
      (k.out + n)).drop k.out
where tag (n : Nat) : Bytes := leBytes 8 n

/-- Permutations that reading `n` more bytes takes: one for each block boundary passed (R339). -/
def HashCore.readPerms (k : HashCore) (sha2 : Bool) (n : Nat) : Nat :=
  if sha2 then 0 else (k.out + n - 1) / k.block sha2 - (k.out - 1) / k.block sha2

/-- The core after `n` bytes of output, ready again at `t`. -/
def SideState.advanceCore (num n t : Nat) (y : SideState) : SideState :=
  let k := y.core num
  let p := k.readPerms (3 ≤ num) n
  { y with cores := y.cores.put num { k with out := k.out + n, readyAt := t + k.step (3 ≤ num) * p } }

/-! ### Elementwise arithmetic -/

/-- The inverse of an odd q modulo 2^32, by Newton steps. -/
def oddInverse (q : Nat) : Nat :=
  (List.range 5).foldl (fun v _ => v * (2 ^ 33 + 2 - q * v % 2 ^ 32) % 2 ^ 32) q

/-- 2 ^ (-EW) mod q for an odd q. -/
def montFactor (q ew : Nat) : Nat :=
  -- (q + 1) / 2 is the inverse of 2
  (List.range ew).foldl (fun v _ => v * ((q + 1) / 2) % q) (1 % q)

/-- A modular result: reduced when every input is below q, and otherwise an unspecified function of the inputs (R362). -/
def modular (op q ew : Nat) (ins : List Nat) (v : Nat) : Nat :=
  if ins.all fun e => e < q then v % q else Config.outOfRange op (q :: ew :: ins) % 2 ^ ew

/-- Two's complement of `ew` bits as an integer. -/
def signedEl (ew v : Nat) : Int := if bit v (ew - 1) then (v : Int) - (2 ^ ew : Nat) else v
/-- An integer cut to `ew` bits. -/
def cutInt (ew : Nat) (v : Int) : Nat := (v % (2 ^ ew : Nat)).toNat

/-- Carry-less product. -/
def clmul (n a b : Nat) : Nat :=
  (List.range n).foldl (fun v i => if bit b i then v ^^^ (a * 2 ^ i) else v) 0

/-- Remainder modulo a polynomial of degree `m`. -/
def polyMod (p m v : Nat) : Nat :=
  (List.range 33).foldl (fun v j => let i := 32 - j; if m ≤ i ∧ bit v i then v ^^^ (p * 2 ^ (i - m)) else v) v

/-- The elementwise instructions, on elements a of VS1, b of VS2, d of VS3 and o of VD. -/
def lane (op q ew imm a b d o : Nat) : Nat :=
  let f := montFactor q ew
  match op with
  | 0x01 => modular op q ew [a, b] (a + b)
  | 0x02 => modular op q ew [a, b] (a + q - b)
  | 0x03 => modular op q ew [a, b] (a * b % q * f)
  | 0x04 => modular op q ew [a, b] (a * b)
  | 0x05 => modular op q ew [a, b, o] (o + a * b % q * f)
  | 0x06 => modular op q ew [a, b, o] (o + a * b)
  | 0x07 => a % q
  | 0x08 => modular op q ew [a] (q - a)
  | 0x20 => (2 ^ (imm + 1) * a + q) / (2 * q) % 2 ^ imm
  | 0x21 => (2 * q * a + 2 ^ imm) / 2 ^ (imm + 1)
  | 0x30 => a + b
  | 0x31 => a + 2 ^ ew - b
  | 0x32 => a &&& b
  | 0x33 => a ||| b
  | 0x34 => a ^^^ b
  | 0x35 => a * 2 ^ imm
  | 0x36 => a / 2 ^ imm
  | 0x37 => cutInt ew (signedEl ew a / (2 ^ imm : Nat))
  | 0x38 =>
    let t := match imm with
      | 0 => decide (a = b)
      | 1 => decide (a ≠ b)
      | 2 => decide (a < b)
      | _ => decide (signedEl ew a < signedEl ew b)
    if t then 2 ^ ew - 1 else 0
  | 0x39 => (d &&& a) ||| ((2 ^ ew - 1 - d) &&& b)
  | 0x3C => a
  | 0x3D => a
  | 0x50 => a * b
  | 0x51 => a * b / 2 ^ 64
  | 0x60 => clmul 64 a b
  | 0x61 => clmul 64 a b / 2 ^ 64
  | 0x62 => polyMod (q % 2 ^ 17) imm (clmul 16 a b)
  | _ => binOp op a b d

/-! ### Permutes and samplers -/

def nth (l : List Nat) (i : Nat) : Nat := l.getD i 0

/-- Signed value of a 10-bit displacement. -/
def dispOf (imm : Nat) : Int := signedEl 10 (imm % 1024)

/-- The permutes that move whole elements, as the source of element `i`. -/
def moved (op imm : Nat) (a b : List Nat) (i : Nat) : Nat :=
  let n := a.length
  let blk := 2 ^ bits imm 3 0
  match op with
  | 0x24 => nth a (nth b i % n)
  | 0x25 =>
    let j := i / (2 * blk)
    let t := i % blk
    if i / blk % 2 = 0 then nth a (j * blk + t) else nth b (j * blk + t)
  | 0x26 =>
    let e := (2 * (i / blk) + bits imm 4 4) * blk + i % blk
    nth (a ++ b) e
  | _ =>
    let e := (i : Int) + dispOf imm
    if 0 ≤ e ∧ e < n then nth a e.toNat else 0

/-- A permutation of 0 to n - 1 from free numbers. -/
def shuffled (c : Ctx) (n : Nat) : List Nat :=
  (List.range n).foldl (fun l i => l.insertIdx (c.freeNat (4096 + i) 8 % (i + 1)) i) []

/-- CBD: the sum of η bits minus the next η, mod q; the range of a q of 0 is not stated. -/
def cbd (q ew eta bitsOf i : Nat) : Nat :=
  let pop (lo : Nat) : Nat := ((List.range eta).filter fun j => bit bitsOf (lo + j)).length
  let d : Int := (pop (2 * eta * i) : Int) - pop (2 * eta * i + eta)
  if q = 0 then Config.outOfRange 0x40 [ew, eta, bitsOf, i] else (d % (q : Int)).toNat

/-- The candidates of vsamp.rej in its bytes (R364). -/
def rejCandidates (mode : Nat) (b : Bytes) : List Nat :=
  let v := leNat b
  match mode with
  | 0 => (List.range (b.length / 3 * 2)).map fun i => v / 2 ^ (12 * i) % 2 ^ 12
  | 1 => (List.range (b.length / 3)).map fun i => v / 2 ^ (24 * i) % 2 ^ 23
  | _ => (List.range (2 * b.length)).map fun i => v / 2 ^ (4 * i) % 16

/-! ### Executing a VA instruction -/

/-- Destination bits of vpack: whole bytes. -/
def packedBits (x : SideState) (b : Nat) : Nat := 8 * ceilDiv (x.vl * b) 8

/-- What the instruction writes, its checks passed. `t` is the CCLK of its issue. -/
def vaEffect (c : Ctx) (x : SideState) (i : Va) (t : Nat) (y : SideState) : SideState :=
  let ew := x.ew
  let q := x.qreg i.q % 2 ^ 32
  let sc := x.sval i.vs2 % 2 ^ ew
  let a := elements c x i.vs1
  let b := if i.ss then List.replicate x.vl sc else elements c x i.vs2
  let d := elements c x i.vs3
  let o := elements c x i.vd
  let idx := List.range x.vl
  let wide (l : List Nat) := packEls 64 l
  if x.vl = 0 then y
  else match i.op with
  | 0x10 =>
    let f := montFactor q ew
    let tt (j : Nat) := nth b j * nth a j % q * f % q
    let ins (j : Nat) := [nth o j, nth a j, nth b j]
    let lo := idx.map fun j => modular (if i.vd = i.vs1 then 0x1FF else 0x110) q ew (ins j) (nth o j + q - tt j)
    writeEls c x i.vs1 lo (writeEls c x i.vd (idx.map fun j => modular 0x10 q ew (ins j) (nth o j + tt j)) y)
  | 0x11 =>
    let f := montFactor q ew
    let ins (j : Nat) := [nth o j, nth a j, nth b j]
    let lo := idx.map fun j => modular 0x111 q ew (ins j) ((nth o j + q - nth a j) % q * nth b j % q * f)
    writeEls c x i.vs1 lo (writeEls c x i.vd (idx.map fun j => modular 0x11 q ew (ins j) (nth o j + nth a j)) y)
  | 0x22 => writeGroup c i.vd (packedBits x i.imm) (packEls i.imm a) x.mm y
  | 0x23 =>
    let v := groupVal c x i.vs1 x.group
    writeEls c x i.vd (idx.map fun j => v / 2 ^ (i.imm * j) % 2 ^ i.imm) y
  | 0x28 => writeEls c x i.vd (shuffled c x.vl) y
  | 0x3A => writeGroup c i.vd ew (a.foldl (fun v e => v ||| e) 0) x.mm y
  | 0x40 =>
    let eta := bits i.imm 2 0
    let n := ceilDiv (x.vl * 2 * eta) 8
    let k := bits i.imm 5 4
    let v := leNat ((x.core k).read false n)
    (writeEls c x i.vd (idx.map fun j => cbd q ew eta v j) y).advanceCore k n t
  | 0x41 =>
    let n := 8 * bits i.imm 15 8
    let k := bits i.imm 5 4
    let ok := ((rejCandidates (bits i.imm 7 6) ((x.core k).read false n)).filter fun e => e < q).take x.vl
    ((writeEls c x i.vd (idx.map fun j => nth ok j) y).setS i.vs3 ok.length x.mm).advanceCore k n t
  | 0x52 =>
    let v := wide o + wide a * x.sval i.vs2 + x.sval i.vs3
    (writeGroup c i.vd (64 * x.vl) v x.mm y).setS i.vs3 (v / 2 ^ (64 * x.vl)) x.mm
  | 0x53 =>
    let v := wide o + wide b + x.sval i.vs3 % 2
    (writeGroup c i.vd (64 * x.vl) v x.mm y).setS i.vs3 (v / 2 ^ (64 * x.vl)) x.mm
  | 0x54 =>
    let m := 2 ^ (64 * x.vl)
    let take := wide b + x.sval i.vs3 % 2
    let v := (wide o + 2 * m - take) % m
    (writeGroup c i.vd (64 * x.vl) v x.mm y).setS i.vs3 (bnat (decide (wide o < take))) x.mm
  | op =>
    if [0x24, 0x25, 0x26, 0x27].contains op then writeEls c x i.vd (idx.map (moved op i.imm a b)) y
    else writeEls c x i.vd (idx.map fun j => lane op q ew i.imm (nth a j) (nth b j) (nth d j) (nth o j)) y

/-- Bytes that a sampler reads from its core. -/
def samplerBytes (x : SideState) (i : Va) : Nat :=
  if i.op = 0x40 then ceilDiv (x.vl * 2 * bits i.imm 2 0) 8 else 8 * bits i.imm 15 8

/-- The masked factor of R378. -/
def maskFactor (x : SideState) (i : Va) (r : VaOp) : Nat :=
  if !x.mm then 1
  else match r.cls with
    | .lin => if refreshes x i r then 9 else 3
    | .refresh => if refreshes x i r then 9 else 3
    | .conv => 12
    | .never => 1

/-- Share-buffer bytes drawn, halved on a half-tile (R375). -/
def vaDraw (c : Ctx) (x : SideState) (i : Va) (r : VaOp) : Nat :=
  let h := if c.half then 2 else 1
  if i.op = 0x28 then 2 * x.vl / h
  else if !x.mm then 0
  else match r.cls with
    | .conv => 384 * x.group / h
    | _ => if refreshes x i r then 192 * x.group / h else 0

/-- The instruction's checks at issue, and what it occupies. -/
def vaUse (c : Ctx) (x : SideState) (i : Va) : Except Status Use :=
  match vaOp i.op with
  | none => .error .scriptFault
  | some r =>
    if i.stray r || !r.ews.contains x.ew || groupsBad x.group (i.groups r) i.dests || modulusBad x i || immBad x i
        || coreBad c i || maskBad c x i r then .error .scriptFault
    else
      let sampler := i.op = 0x40 || i.op = 0x41
      let occ := if sampler then ceilDiv (samplerBytes x i) 64 else r.occ * x.group
      .ok { unit := r.unit, occupied := occ * maskFactor x i r, latency := r.lat,
            srcs := (i.groups r).flatMap (fun g => regsOf g x.group) ++ (i.scalars r).map sNum
              ++ (if r.q then [qNum i.q] else []),
            dests := i.dests.flatMap (fun g => regsOf g x.group) ++ (if r.s3s then [sNum i.vs3] else []),
            draw := vaDraw c x i r, partialLoad := false,
            core := if sampler then some (bits i.imm 5 4) else none }

/-! ### Memory windows (R368, R369) -/

def scratchBase : Nat := 0x00400000
def operandBase : Nat := 0x01000000
def keyBase : Nat := 0x02000000
def auxBase : Nat := 0x03000000

def upTo64 (n : Nat) : Nat := 64 * ceilDiv n 64

/-- Where an access falls. -/
inductive Window where
  | scratch | operand | key | aux
  deriving DecidableEq, Repr

/-- `n` bytes from address `a` lie in a window. -/
def windowOf (c : Ctx) (a n : Nat) : Option Window :=
  let inside (base len : Nat) : Bool := base ≤ a && a + n ≤ base + len
  if inside scratchBase c.hdr.scratch then some .scratch
  else if inside operandBase (if c.hdr.streamed then 131072 else upTo64 c.seat.entry.len) then some .operand
  else match c.keyMat, c.auxMat with
    | some k, m => if inside keyBase (upTo64 k.length) then some .key
      else (match m with
        | some v => if inside auxBase (upTo64 v.length) then some .aux else none
        | none => none)
    | none, some v => if inside auxBase (upTo64 v.length) then some .aux else none
    | none, none => none

/-- A byte of a string, a free one beyond its end: what the rest of a window's last line holds is not stated. -/
def byteOr (c : Ctx) (m : Bytes) (i : Nat) : Nat :=
  match m[i]? with
  | some b => b.toNat
  | none => (Config.freeByte c.free (2 ^ 20 + i)).toNat

/-- A byte of the operand, key or aux window. -/
def windowByte (c : Ctx) (w : Window) (a : Nat) : Nat :=
  match w with
  | .operand =>
    let o := a - operandBase
    if c.hdr.streamed && 65536 ≤ o then byteOr c c.bufferB (o - 65536) else byteOr c c.operand o
  | .key => byteOr c (c.keyMat.getD []) (a - keyBase)
  | .aux => byteOr c (c.auxMat.getD []) (a - auxBase)
  | .scratch => 0

/-- The physical address of logical byte `o` of share `j` of a masked scratch access at base `b` (R369). -/
def shareAddr (b : Nat) (o : Int) (j : Nat) : Int := (b : Int) + 192 * (o / 64) + 64 * j + o % 64

/-- One element: base, logical offset and length in bytes. A plain access is at base + offset. -/
structure Element where
  base : Nat
  off : Int
  len : Nat

def Element.addr (e : Element) : Int := (e.base : Int) + e.off

/-- The physical address of the first byte of each share, where the element may be reached in scratch; shares are
contiguous inside a line, and an aligned element lies in one line when its base is aligned to it. -/
def Element.shares (c : Ctx) (e : Element) : Option (List (List Nat)) :=
  let byteAt (i j : Nat) : Int := shareAddr e.base (e.off + i) j
  let all := (List.range 3).map fun j => (List.range e.len).map fun i => byteAt i j
  if all.all (fun l => l.all fun p => 0 ≤ p && windowOf c p.toNat 1 = some .scratch)
      && (List.range 3).all (fun j => byteAt 0 j % (e.len : Int) = 0) then
    some (all.map fun l => l.map Int.toNat)
  else none

/-- The base of the access lies in the scratch window: a masked access then reaches shares. -/
def Element.inScratch (c : Ctx) (e : Element) : Bool :=
  scratchBase ≤ e.base && e.base < scratchBase + c.hdr.scratch

/-- A plain access: the address and its window, in range and aligned. -/
def Element.plain (c : Ctx) (e : Element) : Option (Nat × Window) :=
  if e.addr < 0 ∨ e.addr % (e.len : Int) ≠ 0 then none
  else (windowOf c e.addr.toNat e.len).map fun w => (e.addr.toNat, w)

/-- The value that a load of an element gives; none where it faults (R368, R369). -/
def loadElement (c : Ctx) (x : SideState) (e : Element) : Option Nat :=
  if x.mm && e.inScratch c then
    (e.shares c).map fun ls =>
      leNat ((List.range e.len).map fun i =>
        ls.foldl (fun v l => v ^^^ Memory.read x.scratch (nth l i - scratchBase)) 0)
  else match e.plain c with
    | none => none
    | some (a, .scratch) =>
      if x.mm || x.tags.contains (a / 64) then none
      else some (leNat (Memory.readN x.scratch (a - scratchBase) e.len))
    | some (a, .operand) =>
      if !x.mm && c.keyFragLines.contains ((a - operandBase) / 64) then none
      else some (leNat ((List.range e.len).map fun i => byte (windowByte c .operand (a + i))))
    | some (a, w) => if x.mm then some (leNat ((List.range e.len).map fun i => byte (windowByte c w (a + i)))) else none

/-- An element may be stored: scratch only. -/
def storeOk (c : Ctx) (x : SideState) (e : Element) : Bool :=
  if x.mm then e.inScratch c && (e.shares c).isSome
  else match e.plain c with
    | some (_, .scratch) => true
    | _ => false

/-- A store of one element; a masked one leaves three shares whose XOR is the value, two of them free (R369). -/
def storeElement (c : Ctx) (x : SideState) (e : Element) (n v : Nat) (y : SideState) : SideState :=
  if x.mm then
    match e.shares c with
    | none => y
    | some ls =>
      let s1 (i : Nat) := Config.freeByte c.free (2 ^ 22 + 64 * n + 2 * i)
      let s2 (i : Nat) := Config.freeByte c.free (2 ^ 22 + 64 * n + 2 * i + 1)
      let put (l : List Nat) (f : Nat → Byte) (m : List Host.Cell) : List Host.Cell :=
        (List.range e.len).foldl (fun m i => Memory.write m (nth l i - scratchBase) (f i)) m
      let m := match ls with
        | [l0, l1, l2] =>
          put l2 s2 (put l1 s1 (put l0 (fun i => byte (v / 256 ^ i) ^^^ s1 i ^^^ s2 i) y.scratch))
        | _ => y.scratch
      { y with scratch := m, tags := ls.flatten.foldl (fun t a => insertSorted (a / 64) t) y.tags }
  else
    let a := e.addr.toNat
    { y with scratch := Memory.writeN y.scratch (a - scratchBase) (leBytes e.len v),
             tags := y.tags.filter fun l => l != a / 64 }

/-! ### The VM slot (R367) -/

/-- The fields of a VM slot. -/
structure Vm where
  op : Nat
  vd : Nat
  a : Nat
  x : Nat
  inc : Bool
  imm : Nat
  deriving DecidableEq, Repr

def Vm.of (v : Nat) : Vm :=
  { op := bits v 47 42, vd := bits v 41 37, a := bits v 36 33, x := bits v 32 28, inc := bit v 27, imm := bits v 26 0 }

/-- The fields and immediate bits that an operation names: VD, A, X, INC, IMM. -/
def vmNames : Nat → Option (Bool × Bool × Bool × Bool × Nat)
  | 0x01 => some (true, false, true, false, 0x7F)
  | 0x02 => some (false, false, false, false, 0x7FF007F)
  | 0x03 => some (false, false, true, false, 7)
  | 0x08 => some (true, true, false, true, 0xFFFF)
  | 0x09 => some (true, true, true, true, 0xFFFF)
  | 0x0A => some (true, true, true, false, 0xFFFF)
  | 0x0C => some (true, true, false, true, 0xFFFF)
  | 0x0D => some (true, true, true, true, 0xFFFF)
  | 0x0E => some (true, true, true, false, 0xFFFF)
  | 0x10 => some (true, false, true, false, 0x7FF)
  | 0x11 => some (true, false, true, false, 0)
  | 0x12 => some (true, false, true, false, 0)
  | 0x13 => some (true, false, false, false, 0)
  | _ => none

def Vm.stray (i : Vm) : Bool :=
  match vmNames i.op with
  | none => true
  | some (d, a, x, inc, imm) =>
    (!d && i.vd != 0) || (!a && i.a != 0) || (!x && i.x != 0) || (!inc && i.inc) || i.imm &&& imm != i.imm

def Vm.isLoad (i : Vm) : Bool := [0x08, 0x09, 0x0A].contains i.op
def Vm.isStore (i : Vm) : Bool := [0x0C, 0x0D, 0x0E].contains i.op
def Vm.strided (i : Vm) : Bool := i.op = 0x09 || i.op = 0x0D
def Vm.indexed (i : Vm) : Bool := i.op = 0x0A || i.op = 0x0E

/-- The elements that an access names (R367, R370). -/
def Vm.elements (c : Ctx) (x : SideState) (i : Vm) : List Element :=
  let base := cutInt 32 ((x.areg i.a : Int) + signedEl 16 (i.imm % 65536))
  let ix := if i.indexed then Machine.elements c x i.x else []
  (List.range x.vl).map fun j =>
    let unit : Nat := j * x.ew / 8
    let gathered : Nat := nth ix j
    let off : Int := if i.strided then Int.ofNat j * signedEl 64 (x.sval i.x)
      else if i.indexed then Int.ofNat gathered else Int.ofNat unit
    { base := base, off := off, len := x.ew / 8 }

/-- a[A] after an access with INC. -/
def Vm.increment (x : SideState) (i : Vm) (y : SideState) : SideState :=
  if !i.inc then y
  else
    let step : Int := if i.strided then (x.vl : Int) * signedEl 64 (x.sval i.x) else (x.vl * x.ew / 8 : Nat)
    y.setA i.a (cutInt 32 ((x.areg i.a : Int) + step))

/-- A new shape (R359). -/
def setShape (c : Ctx) (shape count : Nat) (y : SideState) : SideState :=
  { y with vshape := shape, vl := Nat.min count (vcap c.w shape), vpart := false }

/-- What R360 and R372 refuse of a VM instruction. -/
def vmBad (c : Ctx) (x : SideState) (i : Vm) : Bool :=
  let g := x.group
  let groups := (if i.isLoad || i.isStore || [0x11, 0x12, 0x13].contains i.op then [i.vd] else [])
  let srcs := (if i.indexed || i.op = 0x10 || i.op = 0x12 then [i.x] else [])
  i.stray || (if i.isStore then groupsBad g (groups ++ srcs) [] else groupsBad g srcs groups)
    || (i.op = 0x01 && (shapeReserved (i.imm % 128) || (x.sreg i.x).masked))
    || (i.op = 0x02 && shapeReserved (i.imm % 128))
    || (i.op = 0x03 && (x.sreg i.x).masked)
    || (i.strided && (x.sreg i.x).masked) || (i.indexed && groupMasked x i.x g)
    || (!x.mm && ((i.isStore && groupMasked x i.vd g) || ((i.op = 0x10 || i.op = 0x12) && groupMasked x i.x g)
        || (i.op = 0x11 && (x.sreg i.x).masked)))
    || (i.op = 0x10 && vcap c.w x.vshape ≤ i.imm)

/-- How a load ends: refused, or with that many elements (R370). -/
def loadCount (x : SideState) (i : Vm) (vals : List (Option Nat)) : Except Status Nat :=
  let ok := (vals.takeWhile Option.isSome).length
  if ok = x.vl then .ok ok
  else if ok = 0 || !x.pl then .error (if i.op = 0x0A then .gatherFault else .scriptFault)
  else .ok ok

/-- The value of vsetq: −q⁻¹ mod 2^32 above q; of an even q no rule gives it. -/
def modulusWord (v : Nat) : Nat :=
  let q := v % 2 ^ 32
  q + 2 ^ 32 * (if q % 2 = 1 then (2 ^ 32 - oddInverse q) % 2 ^ 32 else Config.outOfRange 3 [q] % 2 ^ 32)

/-- What a VM instruction writes, its checks passed (R359, R361, R367, R370, R371). -/
def vmEffect (c : Ctx) (x : SideState) (i : Vm) (y : SideState) : Except Status SideState :=
  if i.isLoad then
    if x.vl = 0 then .ok (i.increment x y)
    else
      let vals := (i.elements c x).map (loadElement c x)
      match loadCount x i vals with
      | .error e => .error e
      | .ok n =>
        let v := packEls x.ew ((vals.take n).map fun o => o.getD 0)
        let y := writeGroup c i.vd (n * x.ew) v x.mm y
        let y := if n = x.vl then y else { y with vl := n, vpart := true }
        .ok (i.increment x y)
  else if i.isStore then
    let es := i.elements c x
    if es.all (storeOk c x) then
      let vs := Machine.elements c x i.vd
      let y := ((List.range es.length).zip (es.zip vs)).foldl (fun y p => storeElement c x p.2.1 p.1 p.2.2 y) y
      .ok (i.increment x y)
    else .error .scriptFault
  else match i.op with
    | 0x01 =>
      let y := setShape c (i.imm % 128) (x.sval i.x % 2 ^ 32) y
      .ok (y.setS i.vd y.vl false)
    | 0x02 => .ok (setShape c (i.imm % 128) (bits i.imm 26 16) y)
    | 0x03 => .ok { y with q := y.q.put i.imm (modulusWord (x.sval i.x)) }
    | 0x10 =>
      let v := groupVal c x i.x x.group / 2 ^ (i.imm * x.ew) % 2 ^ x.ew
      .ok (if x.vl = 0 then y else y.setS i.vd v (groupMasked x i.x x.group))
    | 0x11 => .ok (writeEls c x i.vd (List.replicate x.vl (x.sval i.x)) y)
    | 0x12 => .ok (writeGroup c i.vd (x.vl * x.ew) (groupVal c x i.x x.group) (groupMasked x i.x x.group) y)
    | _ => .ok (writeEls c x i.vd (List.range x.vl) y)

/-- The checks of a VM instruction and what it occupies (R378). -/
def vmUse (c : Ctx) (x : SideState) (i : Vm) : Except Status Use :=
  if vmBad c x i then .error .scriptFault
  else
    let g := x.group
    let mem := i.isLoad || i.isStore
    let occ := if !mem then 1 else (if i.indexed then ceilDiv (vcap c.w x.vshape / g) 8 else 1) * g * (if x.mm then 3 else 1)
    let vecSrc := (if i.isStore then regsOf i.vd g else [])
      ++ (if i.indexed || i.op = 0x10 || i.op = 0x12 then regsOf i.x g else [])
    let scSrc := if i.strided || [0x01, 0x03, 0x11].contains i.op then [sNum i.x] else []
    .ok { unit := if mem then 8 else 9, occupied := occ, latency := if mem then 3 else if i.op = 0x03 then 3 else 1,
          srcs := vecSrc ++ scSrc ++ (if mem then [aNum i.a] else []),
          dests := (if i.isLoad || [0x11, 0x12, 0x13].contains i.op then regsOf i.vd g else [])
            ++ (if i.op = 0x10 || i.op = 0x01 then [sNum i.vd] else []) ++ (if i.op = 0x03 then [qNum i.imm] else []),
          draw := if i.isLoad && x.mm then 128 * g / (if c.half then 2 else 1) else 0,
          partialLoad := i.isLoad && x.pl, core := none }

end Sys2Proof.Machine
end

