-- ==== Sys2Proof/Machine/Script.lean ====
section
/-! DEFINITION. The script machine of chapter 13: microwords, the sequencer, the scalar and HX slots, cues, timing, and one
side of a run. -/

namespace Sys2Proof.Machine

/-! ### Microwords (R334, R335) -/

def wordSeq (w : BitVec 192) : Nat := bits w.toNat 191 160
def wordVa (w : BitVec 192) : Nat := bits w.toNat 159 112
def wordVm (w : BitVec 192) : Nat := bits w.toNat 111 64
def wordSc (w : BitVec 192) : Nat := bits w.toNat 63 32
def wordHx (w : BitVec 192) : Nat := bits w.toNat 31 0

/-- The fields of SEQ. -/
structure Seq where
  mode : Nat
  cond : Nat
  neg : Bool
  spare : Bool
  cue : Nat
  target : Nat
  deriving DecidableEq, Repr

def Seq.of (v : Nat) : Seq :=
  { mode := bits v 31 29, cond := bits v 28 24, neg := bit v 23, spare := bit v 22, cue := bits v 21 16,
    target := bits v 15 0 }

/-- The condition of a word on the flags before it (R335). -/
def condHolds (x : SideState) (q : Seq) : Bool :=
  let v := match q.cond with
    | 0 => true
    | 1 => x.z
    | 2 => x.c
    | 3 => x.lc0 != 0
    | 4 => x.lc1 != 0
    | 5 => x.vpart
    | 6 => x.vl = 0
    | 7 => x.reject
    | _ => false
  v != q.neg

/-- LC0 and LC1 count 32 bits. -/
def countDown (n : Nat) : Nat := (n + 2 ^ 32 - 1) % 2 ^ 32

/-- Sequencing (R335, R345). -/
def seqEffect (c : Ctx) (x : SideState) (q : Seq) (y : SideState) : Except Status SideState :=
  let next := (x.pc + 1) % 65536
  let cond := condHolds x q
  let go (pc : Nat) : Except Status SideState := .ok { y with pc := pc }
  match q.mode with
  | 0 => go next
  | 1 => go (if cond then q.target else next)
  | 2 =>
    if !cond then go next
    else if 8 ≤ x.stack.length then .error .scriptFault
    else .ok { y with pc := q.target, stack := next :: x.stack }
  | 3 =>
    if !cond then go next
    else match x.stack with
      | [] => .error .scriptFault
      | a :: r => if c.hdr.holds a then .ok { y with pc := a, stack := r } else .error .scriptFault
  | 4 =>
    let n := countDown x.lc0
    .ok { y with lc0 := n, pc := if n = 0 then next else q.target }
  | 5 =>
    let n := countDown x.lc1
    .ok { y with lc1 := n, pc := if n = 0 then next else q.target }
  | 6 =>
    let a := (q.target + x.sval 31 % 16) % 65536
    if c.hdr.holds a then go a else .error .scriptFault
  | _ => .error .scriptFault

/-! ### The scalar slot (R338, R377) -/

structure Sc where
  op : Nat
  rd : Nat
  rs1 : Nat
  rs2 : Nat
  imm : Nat
  deriving DecidableEq, Repr

def Sc.of (v : Nat) : Sc :=
  { op := bits v 31 26, rd := bits v 25 21, rs1 := bits v 20 16, rs2 := bits v 15 11, imm := bits v 15 0 }

/-- Scalar sources and destinations by timing number. -/
def Sc.srcs (i : Sc) : List Nat :=
  if [0x01, 0x02, 0x03, 0x04, 0x05, 0x0F, 0x10].contains i.op then [sNum i.rs1, sNum i.rs2]
  else if [0x06, 0x07, 0x08, 0x0B, 0x0D].contains i.op then [sNum i.rs1]
  else if i.op = 0x0A then [sNum i.rd]
  else if i.op = 0x0C then [sNum i.rs1, aNum 0] else []
def Sc.dests (i : Sc) : List Nat :=
  if i.op = 0 ∨ i.op = 0x0D ∨ i.op = 0x0E ∨ i.op = 0x0F then []
  else if i.op = 0x0B then [aNum (i.rd % 16)] else [sNum i.rd]

/-- A source of the instruction is masked. -/
def Sc.anyMasked (x : SideState) (i : Sc) : Bool :=
  i.srcs.any fun r => 32 ≤ r && r < 64 && (x.sreg (r - 32)).masked

/-- The result of an operation on unmasked scalars, with its carry or borrow. -/
def scValue (op a b : Nat) : Nat × Bool :=
  let m := 2 ^ 64
  match op with
  | 0x01 => ((a + b) % m, decide (m ≤ a + b))
  | 0x02 => ((a + m - b) % m, decide (a < b))
  | 0x0F => ((a + m - b) % m, decide (a < b))
  | 0x03 => (a &&& b, false)
  | 0x04 => (a ||| b, false)
  | 0x05 => (a ^^^ b, false)
  | 0x06 => ((a + b) % m, decide (m ≤ a + b))
  | 0x07 => (a * 2 ^ b % m, false)
  | 0x08 => (a / 2 ^ b, false)
  | _ => (a * b % m, false)

/-- Z, and C for the additions and subtractions. -/
def setFlags (op : Nat) (v : Nat × Bool) (y : SideState) : SideState :=
  let y := { y with z := decide (v.1 = 0) }
  if [0x01, 0x02, 0x06, 0x0F].contains op then { y with c := v.2 } else y

/-- The second operand: a register, or the immediate in the form of the operation. -/
def Sc.second (x : SideState) (i : Sc) : Nat :=
  match i.op with
  | 0x06 => cutInt 64 (signedEl 16 i.imm)
  | 0x07 => i.imm % 64
  | 0x08 => i.imm % 64
  | _ => x.sval i.rs2

/-- The scalar slot. -/
def scEffect (c : Ctx) (x : SideState) (i : Sc) (y : SideState) : Except Status SideState :=
  let masked := i.anyMasked x
  let v := scValue i.op (x.sval i.rs1) (i.second x)
  match i.op with
  | 0x00 => .ok y
  | 0x09 => .ok (y.setS i.rd i.imm false)
  | 0x0A =>
    -- the upper bits of a masked register do not come out (R376): a free value
    let up := if masked then c.freeNat 8192 6 else x.sval i.rd
    .ok (y.setS i.rd ((up * 2 ^ 16 % 2 ^ 64) ||| i.imm) false)
  | 0x0B => if masked then .error .scriptFault else .ok (y.setA (i.rd % 16) (x.sval i.rs1))
  | 0x0C => .ok (y.setS i.rd (x.areg (i.rs1 % 16)) false)
  | 0x0D =>
    if masked then .error .scriptFault
    else
      let n := x.sval i.rs1 % 2 ^ 32
      .ok (if i.rd % 2 = 0 then { y with lc0 := n } else { y with lc1 := n })
  | 0x0E => .ok (if i.rd % 2 = 0 then { y with lc0 := i.imm } else { y with lc1 := i.imm })
  | 0x0F => if masked then .error .scriptFault else .ok (setFlags 0x0F v y)
  | op =>
    if 0x10 < op then .error .scriptFault
    else if masked then
      if [0x03, 0x04, 0x05, 0x07, 0x08].contains op then .ok (y.setS i.rd v.1 true) else .error .scriptFault
    else .ok (setFlags op v (y.setS i.rd v.1 false))

/-- Share-buffer bytes of a masked AND or OR (R375). -/
def scDraw (c : Ctx) (x : SideState) (i : Sc) : Nat :=
  if (i.op = 0x03 || i.op = 0x04) && i.anyMasked x then (if c.half then 12 else 24) else 0

/-! ### The HX slot (R339) -/

structure Hx where
  op : Nat
  a : Nat
  core : Nat
  family : Nat
  spare : Bool
  maskCore : Bool
  imm : Nat
  deriving DecidableEq, Repr

def Hx.of (v : Nat) : Hx :=
  { op := bits v 31 27, a := bits v 26 22, core := bits v 21 20, family := bits v 19 18, spare := bit v 17,
    maskCore := bit v 16, imm := bits v 15 0 }

/-- Operations on a hash core. -/
def Hx.onCore (i : Hx) : Bool := 1 ≤ i.op && i.op ≤ 5
/-- Operations that move bytes of a vector register. -/
def Hx.moves (i : Hx) : Bool := [0x02, 0x04, 0x07, 0x0C].contains i.op
def Hx.bytes (i : Hx) : Nat := i.imm % 128

def Hx.srcs (i : Hx) : List Nat :=
  if i.op = 0x02 ∨ i.op = 0x09 ∨ i.op = 0x0C then [i.a]
  else if i.op = 0x0B then [sNum i.a] else if i.op = 0x0D then [aNum (i.a % 16)] else []
def Hx.dests (i : Hx) : List Nat := if i.op = 0x04 ∨ i.op = 0x07 then [i.a] else []

/-- The first `n` bytes of a vector register. -/
def vecBytes (x : SideState) (r n : Nat) : Bytes := leBytes n (x.vreg r).val.toNat

/-- The low `n` bytes of a register become `b`. -/
def putBytes (c : Ctx) (r : Nat) (b : Bytes) (masked : Bool) (y : SideState) : SideState :=
  writeGroup { c with half := false } r (8 * b.length) (leNat b) masked y

/-- A core outside the header's lease. -/
def leaseBad (h : Header) (i : Hx) : Bool :=
  1 < i.family || (if i.family = 0 then h.keccak else h.sha2) ≤ i.core

/-- Permutations of an absorb and of the padding. -/
def absorbPerms (k : HashCore) (sha2 : Bool) (n : Nat) : Nat :=
  (k.absorbed.length + n) / k.block sha2 - k.absorbed.length / k.block sha2
def padPerms (k : HashCore) (sha2 : Bool) : Nat :=
  if sha2 then ceilDiv (k.absorbed.length % k.block sha2 + (if k.sha512 then 17 else 9)) (k.block sha2) else 1

def setCore (n : Nat) (k : HashCore) (y : SideState) : SideState := { y with cores := y.cores.put n k }

/-- The status that a code names (R509). -/
def Status.ofCode (n : Nat) : Status :=
  let named : List Status :=
    [.ok, .verifyFail, .length, .paramSet, .invalidPoint, .invalidInput, .invalidKey, .outCapacity, .curveRejected,
     .notFinished, .keyHandle, .keyOwner, .keyUsage, .keyExhausted, .tableFull, .quota, .streamLimit, .busy, .hostRead,
     .streamBroken, .entropy, .curtain, .hold, .lifecycle, .auth, .faultRepeat, .scriptFault, .scriptOverrun,
     .gatherFault]
  (named.find? fun s => s.code = n).getD (.other n)

/-- A status that discards the output (R343). -/
def Status.discards (s : Status) : Bool := 1 < s.code && s != .notFinished

/-- CAP and OUT_MAX of the row. -/
def Ctx.cap (c : Ctx) : Nat := leAt c.row 2 2
def Ctx.outMax (c : Ctx) : Nat := leAt c.row 44 4

/-- The HX slot, at CCLK `t`. -/
def hxEffect (c : Ctx) (x : SideState) (i : Hx) (t : Nat) (y : SideState) : Except Status SideState :=
  let n := i.bytes
  let num := coreNum i.family i.core
  let sha2 := i.family = 1
  let k := x.core num
  let after (p : Nat) (k' : HashCore) : Except Status SideState :=
    .ok (setCore num { k' with readyAt := t + k.step sha2 * p } y)
  if i.onCore && leaseBad c.hdr i then .error .scriptFault
  else if i.moves && (n = 0 || (if c.half then 32 else 64) < n) then .error .scriptFault
  else match i.op with
  | 0x00 => .ok y
  | 0x01 =>
    let fresh := { HashCore.idle with started := true, maskedMode := i.maskCore, readyAt := t }
    .ok (setCore num (if sha2 then { fresh with sha512 := bit i.imm 0 }
      else { fresh with rate := bits i.imm 7 0, domain := bits i.imm 15 8 }) y)
  | 0x02 =>
    if (x.vreg i.a).masked && !k.maskedMode then .error .scriptFault
    else after (absorbPerms k sha2 n) { k with absorbed := k.absorbed ++ vecBytes x i.a n }
  | 0x03 => after (padPerms k sha2) { k with padded := true }
  | 0x04 => .ok ((putBytes c i.a (k.read sha2 n) (k.maskedMode || x.mm) y).advanceCore num n t)
  | 0x05 =>
    .ok (setCore num { HashCore.idle with started := k.started, rate := k.rate, domain := k.domain, sha512 := k.sha512,
                                          maskedMode := k.maskedMode, readyAt := t } y)
  | 0x06 => .ok { y with released := y.released ++ [i.imm % 2] }
  | 0x07 =>
    if c.seat.drbgLen < x.drbgUsed + n then .error .scriptFault
    else .ok { putBytes c i.a (fresh c.seat x.drbgUsed n) x.mm y with drbgUsed := x.drbgUsed + n }
  | 0x08 => .ok { y with refillAt := t + (if c.half then 128 else 256) }
  | 0x09 =>
    let v := (x.vreg i.a).val.toNat % 2 ^ c.w
    let other := c.partner[x.offers.length]?
    .ok { y with offers := x.offers ++ [v], differs := x.differs || (match other with | some u => u != v | none => false) }
  | 0x0A =>
    if x.r = c.cap then .error .scriptOverrun else .ok { y with r := x.r + 1 }
  | 0x0B => .ok { y with reject := bit (x.sval i.a) 0 }
  | 0x0C =>
    if c.outMax < x.out.length + n then .error .scriptFault
    else .ok { y with out := x.out ++ vecBytes x i.a n }
  | 0x0D => .ok { y with ktw := some (x.areg (i.a % 16)) }
  | 0x0E => .ok { y with status := some (Status.ofCode i.imm) }
  | 0x1F =>
    let st := x.status.getD .ok
    .ok { y with ended := .ended, status := some st, out := if st.discards then [] else x.out }
  | _ => .error .scriptFault

/-! ### Timing (R336, R340, R378 to R380) -/

def Flight.complete (f : Flight) : Nat := f.issue + f.occupied + f.latency

/-- The CCLK from which a cue holds; none while it does not (R340). -/
def cueTime (c : Ctx) (x : SideState) (cue t : Nat) : Option Nat :=
  match cue with
  | 0 => some t
  | 7 => if [0x300, 0x301, 0x302, 0x303, 0x304, 0x310, 0x311, 0x312, 0x320, 0x321, 0x322].contains c.seat.entry.opc then
      -- the length of the alternating slots of R164 is not stated
      some (t + Config.choice c.free) else none
  | 8 => some x.samplerAt
  | 9 => some x.refillAt
  | 10 => if x.offers.length ≤ c.partner.length then some t else none
  | 11 => if c.chunkStaged then some t else none
  | 12 => some (maxOf ((x.flights.filter fun f => f.unit = 8).map Flight.complete))
  | 13 => some (maxOf ((x.flights.filter fun f => 1 < f.chain).map Flight.complete))
  | n => if n ≤ 6 then some (x.core (n - 1)).readyAt else none

/-- A flight may be the producer of a chain to `u` (R380). -/
def chainable (x : SideState) (f : Flight) (u : Use) : Bool :=
  f.unit != u.unit && f.vl = x.vl && f.vshape = x.vshape && !f.partialLoad && f.chain < 4

/-- When `u` may take its sources from flight `f`. -/
def sourceTime (x : SideState) (u : Use) (f : Flight) : Nat :=
  if chainable x f u then
    Nat.min f.complete (Nat.max (f.issue + f.latency) (f.issue + f.latency + f.occupied - u.occupied))
  else f.complete

/-- When vector instruction `u` may issue, but for its cue and its draw. -/
def useTime (x : SideState) (u : Use) : Nat :=
  let units := (x.flights.filter fun f => u.unit != 9 && f.unit = u.unit).map fun f => f.issue + f.occupied
  let srcs := (x.flights.filter fun f => f.dests.any u.srcs.contains).map (sourceTime x u)
  let dests := (x.flights.filter fun f => f.srcs.any u.dests.contains).map fun f => f.issue + f.occupied
  let core := match u.core with | some k => (x.core k).readyAt | none => 0
  maxOf (core :: units ++ srcs ++ dests)

/-- When scalar and HX slots may read and write their registers. -/
def plainTime (x : SideState) (srcs dests : List Nat) : Nat :=
  maxOf ((x.flights.filter fun f => f.dests.any srcs.contains).map Flight.complete
    ++ (x.flights.filter fun f => f.srcs.any dests.contains).map fun f => f.issue + f.occupied)

/-- The flight of an instruction that issues at `t`. -/
def Use.flight (x : SideState) (u : Use) (t : Nat) : Flight :=
  let producers := x.flights.filter fun f => f.dests.any u.srcs.contains && t < f.complete
  { unit := u.unit, issue := t, occupied := u.occupied, latency := u.latency, dests := u.dests, srcs := u.srcs, vl := x.vl,
    vshape := x.vshape, partialLoad := u.partialLoad, chain := 1 + maxOf (producers.map Flight.chain) }

/-- Capacity of the share buffer (R375). -/
def Ctx.shareFull (c : Ctx) : Nat := if c.half then 4096 else 8192

/-- The share buffer after a draw of `n` bytes that asks for CCLK `t`: when it is served, and what is left with the refill
still to come; none when it cannot be met. -/
def drawShare (c : Ctx) (x : SideState) (n t : Nat) : Option (Nat × Nat × Nat) :=
  if x.refillAt ≤ t then
    let have_ := if x.refillAt = 0 then x.share else c.shareFull
    if n ≤ have_ then some (t, have_ - n, 0) else none
  else if n ≤ x.share then some (t, x.share - n, x.refillAt)
  else if n ≤ c.shareFull then some (x.refillAt, c.shareFull - n, 0) else none

/-! ### One microword of one side -/

/-- A side that is stopped (R344, R345). -/
def stopped (st : Status) (x : SideState) : SideState := { x with ended := .faulted st, out := [], ktw := none }

/-- What a word does at CCLK `t`, its units and sources ready: every slot reads `x`. -/
def wordEffect (c : Ctx) (x : SideState) (w : BitVec 192) (va vm : Option Use) (t : Nat) (y : SideState) :
    Except Status SideState := do
  let y := match va with | some _ => vaEffect c x (Va.of (wordVa w)) t y | none => y
  let y ← (match vm with | some _ => vmEffect c x (Vm.of (wordVm w)) y | none => .ok y)
  let y ← scEffect c x (Sc.of (wordSc w)) y
  let y ← hxEffect c x (Hx.of (wordHx w)) t y
  seqEffect c x (Seq.of (wordSeq w)) y

/-- A slot of all zeros is a no-operation (R334). -/
def slotUse (v : Nat) (use : Except Status Use) : Except Status (Option Use) :=
  if v = 0 then .ok none else use.map some

/-- What a word does that has its cue: it waits for units, registers and shares, and issues (R336). -/
def issueWord (c : Ctx) (x : SideState) (w : BitVec 192) (t : Nat) : SideState :=
  let uses := do
    let va ← slotUse (wordVa w) (vaUse c x (Va.of (wordVa w)))
    let vm ← slotUse (wordVm w) (vmUse c x (Vm.of (wordVm w)))
    pure (va, vm)
  match uses with
  | .error e => stopped e x
  | .ok (va, vm) =>
    let us := va.toList ++ vm.toList
    let hx := Hx.of (wordHx w)
    let sc := Sc.of (wordSc w)
    let core := if hx.onCore then (x.core (coreNum hx.family hx.core)).readyAt else 0
    let t := maxOf (t :: core :: plainTime x (sc.srcs ++ hx.srcs) (sc.dests ++ hx.dests) :: us.map (useTime x))
    match drawShare c x (sumOf (us.map Use.draw) + scDraw c x sc) t with
    | none => stopped .scriptFault x
    | some (t, left, refill) =>
      let flights := (x.flights ++ us.map fun u => u.flight x t).filter fun f => t < f.complete
      let sampled := match va with | some u => if u.core.isSome then t + u.occupied else x.samplerAt | none => x.samplerAt
      let y := { x with share := left, refillAt := refill, flights := flights, clock := t + 1, samplerAt := sampled }
      match wordEffect c x w va vm t y with
      | .ok y => y
      | .error e => { stopped e x with r := x.r }

/-- One word of a side, when its cue holds: the side after it, and the CCLK it waited on the cue. A word outside the
footprint stops the side. -/
def stepSide (c : Ctx) (x : SideState) : Option (SideState × Nat) :=
  if x.ended != .running then none
  else if !c.hdr.holds x.pc then some (stopped .scriptFault x, 0)
  else match c.word x.pc with
    | none => some (stopped .scriptFault x, 0)
    | some w =>
      match cueTime c x (Seq.of (wordSeq w)).cue x.clock with
      | none => none
      | some t =>
        let t := Nat.max t x.clock
        some (issueWord c x w t, t - x.clock)

/-! ### Images (R348) and the state at entry (R342) -/

/-- Where the words of an image begin: behind its headers and its padded export list. -/
def wordsAt (img : Bytes) : Nat :=
  let hs := sumOf ((imageHeaders img).map fun h => 64 + 64 * h.rows.length)
  64 + hs + 8 * ceilDiv (2 * leAt img 18 2) 8

/-- Word `i` of an image. -/
def imageWord (img : Bytes) (i : Nat) : Option (BitVec 192) :=
  if i < leAt img 12 4 then some (BitVec.ofNat 192 (leAt img (wordsAt img + 24 * i) 24)) else none

/-- A word of the control store as a seat's run fetches it (R24, R330). -/
def fetchWord (p : Plan) (addr : Nat) : Option (BitVec 192) :=
  if addr < 0xC000 then
    (if p.maker.bytes = [] then some (Config.makerWord addr) else imageWord p.maker.bytes addr)
  else match p.customer with
    | none => none
    | some i => imageWord i.bytes (addr - 0xC000)

/-- The header that a seat runs, at the width of its pair. -/
def runHeader (s : State) (x : Seat) : Option Header := headerOf s x x.half

/-- The 64-byte lines of the operand window that hold key-fragment bytes (R369). -/
def keyLines (fs : List Fragment) : List Nat :=
  (fs.foldl (fun (r : Nat × List Nat) f =>
    let n := f.length.toNat
    let ls := if f.isKey then (List.range (ceilDiv (r.1 % 64 + n) 64)).map fun j => r.1 / 64 + j else []
    (r.1 + n, r.2 ++ ls)) (0, [])).2

/-- The material of a handle that the seat names. -/
def materialOf (s : State) (named : List Nat) : Option Bytes :=
  match named with
  | [i] => (s.keys.slots.get? i).map Slot.material
  | _ => none

/-- Buffer `b` of a streamed input as a side that released it `n` times sees it. -/
def bufferOf (x : Seat) (b n : Nat) : Bytes := slice x.chunks (65536 * (2 * n + b)) 65536

/-- What a side runs on; `y` is the side, `partner` the other's offers. -/
def ctxOf (s : State) (x : Seat) (h : Header) (y : SideState) (partner : List Nat) : Option Ctx :=
  match bankOf s x.bank, headerRow h x.entry.ps with
  | some p, some (i, row) =>
    let rel (b : Nat) := (y.released.filter fun r => r = b).length
    some { seat := x, hdr := h, row := row, rowIndex := i, half := x.half,
           operand := if h.streamed then bufferOf x 0 (rel 0) else fullInput s x,
           bufferB := bufferOf x 1 (rel 1), keyFragLines := keyLines x.frags,
           keyMat := materialOf s (slotNamed (keyUse x.header x.entry) x.entry.keyHandle.toNat),
           auxMat := materialOf s (slotNamed (auxUse x.header x.entry) x.entry.auxHandle.toNat),
           chunkStaged := x.input.isSome || decide (y.released.length < x.staged),
           word := fetchWord p, free := s.free, partner := partner }
  | _, _ => none

/-- A side at its first word (R342). -/
def entrySide (x : Seat) (h : Header) (rowIndex : Nat) (key aux : Bool) : SideState :=
  let sc (v : Nat) : SReg := { val := BitVec.ofNat 64 v, masked := false }
  { pc := h.entry, stack := [], v := [],
    s := [(0, sc x.entry.len), (1, sc x.entry.ps), (2, sc x.entry.cap), (3, sc (x.entry.argN 0 8)),
          (4, sc (x.entry.argN 8 8)), (5, sc rowIndex)],
    a := [(0, operandBase), (1, scratchBase), (2, if key then keyBase else 0), (3, if aux then auxBase else 0)],
    q := [], vl := 0, vshape := 0, vpart := false, z := false, c := false, reject := false, lc0 := 0, lc1 := 0, r := 0,
    scratch := [], tags := [], cores := [], share := if x.half then 4096 else 8192, refillAt := 0, drbgUsed := 0,
    offers := [], differs := false, out := [], status := none, ktw := none, ended := .running,
    clock := 17 * ceilDiv h.words 16, base := 0, flights := [], samplerAt := 0, released := [] }

/-- The sides of a seat's run: those in progress, or fresh ones. -/
def sidesOf (s : State) (k : Nat) (x : Seat) (h : Header) : SideState × SideState :=
  match s.scr.sides.get? k with
  | some p => p
  | none =>
    let row := match headerRow h x.entry.ps with | some (i, _) => i | none => 0
    let y := entrySide x h row (slotNamed (keyUse x.header x.entry) x.entry.keyHandle.toNat != [])
      (slotNamed (auxUse x.header x.entry) x.entry.auxHandle.toNat != [])
    (y, y)

/-- A run whose scripts execute: dispatched on a pair, staged unless it streams, caught up, and not ended. -/
def scripting (x : Seat) (h : Header) : Bool :=
  x.phase = .executing && x.tileA.isSome && (x.input.isSome || h.streamed) && !x.noEntropy
    && (x.catchUp = .none || x.catchUp = .done)

/-! ### MICROWORD_ISSUE (R336) -/

/-- Both sides released the chunks that are processed (R198, R237). -/
def countReleased (k : Nat) (p : SideState × SideState) (h : Header) (s : State) : State :=
  if h.streamed then
    let n := Nat.min p.1.released.length p.2.released.length
    updSeat k (fun y => { y with processed := Nat.max y.processed n }) s
  else s

/-- One side of a run issues one microword, if its cue holds. -/
def issueMicroword (k : Nat) (side : Side) (s : State) : State :=
  match s.seats.get? k with
  | none => s
  | some x =>
    match runHeader s x with
    | none => s
    | some h =>
      if !scripting x h then s
      else
        let p := sidesOf s k x h
        let (me, other) := match side with | .a => (p.1, p.2) | .b => (p.2, p.1)
        match (ctxOf s x h me other.offers).bind fun c => stepSide c me with
        | none => s
        | some (y, waited) =>
          let y := if x.input.isSome then y else { y with base := y.clock }
          let p := match side with | .a => (y, p.2) | .b => (p.1, y)
          let s := spend (bump Ctr.scrCueWaits waited s)
          countReleased k p h { s with scr := { s.scr with sides := s.scr.sides.put k p } }

/-- MICROWORD_ISSUE (R336). -/
def execMicrowordIssue (k : Nat) (side : Side) (s : State) : Host.Outcome State Fault Refusal :=
  run (issueMicroword k side) s

/-! ### Customer opcodes (R344, R347, R353) -/

/-- The declared interval of a run with `r` rounds (R347); L1 and L2 are sources of length. -/
def lengthSource (e : Entry) (sel : Nat) : Nat :=
  if sel = 0 then e.len else if 1 ≤ sel ∧ sel ≤ 4 then e.argN (4 * (sel - 1)) 4 else 0

def lengthTerm (row : Bytes) (at_ sel l : Nat) : Nat :=
  let b := leAt row (at_ + 4) 4
  if sel = 15 ∨ b = 0 then 0 else leAt row at_ 4 * ceilDiv (l - leAt row (at_ + 8) 4) b

def scriptInterval (h : Header) (row : Bytes) (e : Entry) (r : Nat) : Nat :=
  let s1 := bits h.lenSel 3 0
  let s2 := bits h.lenSel 7 4
  leAt row 4 4 + r * leAt row 8 4 + lengthTerm row 12 s1 (lengthSource e s1) + lengthTerm row 24 s2 (lengthSource e s2)

/-- A side that has not executed END by its deadline is stopped with E_SCRIPT_OVERRUN (R344): its last word issued in
the CCLK before `clock`. -/
def deadline (h : Header) (row : Bytes) (e : Entry) (x : SideState) : SideState :=
  let late := x.base + scriptInterval h row e x.r < x.clock + 47
  match x.ended with
  | .faulted _ => x
  | _ => if late then stopped .scriptOverrun x else x

/-- Both sides run to their ends: each turn issues a word of either side, and a turn in which neither can issue leaves
them to their deadline. -/
def runSides (s : State) (x : Seat) (h : Header) (row : Bytes) : Nat → Nat → SideState × SideState →
    Nat × Nat × (SideState × SideState)
  | 0, w, p => (s.free, w, p)
  | n + 1, w, p =>
    match (ctxOf s x h p.1 p.2.offers).bind fun c => stepSide c p.1 with
    | some (a, d) => runSides (spend s) x h row n (w + d) (deadline h row x.entry a, p.2)
    | none => match (ctxOf s x h p.2 p.1.offers).bind fun c => stepSide c p.2 with
      | some (b, d) => runSides (spend s) x h row n (w + d) (p.1, deadline h row x.entry b)
      | none => (s.free, w, p)

/-- A side that still runs never ends: its cue does not hold (R341). -/
def overrunIfOpen (x : SideState) : SideState := if x.ended = .running then stopped .scriptOverrun x else x

/-- The status of a side that ended. -/
def SideState.result (x : SideState) : Status :=
  match x.ended with
  | .faulted st => st
  | _ => x.status.getD .ok

/-- The outcome that a side offers to the comparator. -/
def sideOutcome (h : Header) (row : Bytes) (e : Entry) (x : SideState) : Outcome :=
  { status := x.result, out := x.out, rounds := x.r, interval := scriptInterval h row e x.r, changes := [] }

/-- The operation of a customer opcode computes its outcome by running both sides' scripts. -/
def customerRun (k : Nat) (s : State) : State :=
  match s.seats.get? k with
  | none => s
  | some x =>
    if !(isCustomer x.entry.opc && computing x x.entry.opc) then s
    else match runHeader s x with
      | none => s
      | some h =>
        match headerRow h x.entry.ps with
        | none => s
        | some (_, row) =>
          if x.noEntropy || strayHandle x then
            updSeat k (fun y => { y with outcome := some (settleOutcome x (ended .ok (scriptInterval h row x.entry 0))) }) s
          else
            -- every word takes a CCLK, so a side issues fewer words than its interval has CCLK
            let fuel := 2 * scriptInterval h row x.entry (leAt row 2 2) + 2
            let (free, waited, p) := runSides s x h row fuel 0 (sidesOf s k x h)
            let p := (overrunIfOpen p.1, overrunIfOpen p.2)
            let s := bump Ctr.scrCueWaits waited { s with free := free + 1, scr := { s.scr with sides := s.scr.sides.put k p } }
            countReleased k p h (updSeat k (fun y => { y with outcome := some (sideOutcome h row x.entry p.1) }) s)

/-- CUSTOMER_OPCODE (R353). -/
def execCustomerOpcode (k : Nat) (s : State) : Host.Outcome State Fault Refusal := run (customerRun k) s

/-- The sides of a script run agree, where they ran to their ends: status, output, ROUNDS and key change, and every value
offered to PCMP (R315, R339). -/
def sidesAgree (s : State) (k : Nat) : Bool :=
  match s.scr.sides.get? k with
  | none => true
  | some (a, b) =>
    if a.ended = .running ∨ b.ended = .running then true
    else a.result = b.result && a.out = b.out && a.r = b.r && a.ktw = b.ktw && !a.differs && !b.differs

end Sys2Proof.Machine
end

