-- ==== Sys2Proof/Machine/Tamper.lean ====
section
/-! DEFINITION. Monitor channels, policies and floors, the curtain's raise and third stage, and the backup domain
(R444 to R463). -/

namespace Sys2Proof.Machine

/-- The monitors run: the vault die is powered, and the device is not SCRAPPED (R445). -/
def monitorsRun (s : State) : Bool := (s.pwr.vault || s.pwr.vhold) && lc s != .scrapped

/-- Channels of kind E (R444); the others follow levels. -/
def eventChannel (n : Nat) : Bool :=
  (8 ≤ n && n ≤ 11) || (20 ≤ n && n ≤ 27) || n = 40 || n = 41 || (44 ≤ n && n ≤ 47)
def levelChannel (n : Nat) : Bool := n < 48 && !eventChannel n

/-- The CTL offsets of the registers that hold a WG field (R10). -/
def guardedOffsets : List Nat :=
  [0x20000, 0x40020, 0x280018, 0x300008, 0x380108, 0x3801A0] ++ (List.range 64).map (fun n => 0x380200 + 8 * n)
    ++ [0x400000, 0x480008, 0x480018] ++ (List.range 48).map (fun n => 0x480100 + 8 * n)
    ++ (List.range 48).map (fun n => 0x480300 + 8 * n) ++ [0x500018, 0x580008, 0x600018]

/-! ### Detection (R446 to R449) -/

/-- Which shadow differs when channel 39 asserts, no rule says: the bank pointer's or a guarded register's (R453). -/
def shadowDiffers (s : State) : State :=
  match pick s (0 :: guardedOffsets) with
  | none => s
  | some 0 => spend { s with tmp := { s.tmp with pointerBad := true } }
  | some off => spend { s with tmp := { s.tmp with shadowBad := insertSorted off s.tmp.shadowBad } }

/-- A level condition asserts: one event (R446). -/
def assertLevel (n : Nat) (s : State) : State :=
  if !monitorsRun s || !levelChannel n || (monAt s n).asserted then s
  else
    let s := updMon n (fun m => { m with asserted := true, raw := true, heldRaised := false }) s
    countEvent n (if n = 39 then shadowDiffers s else s)

/-- LEVEL_ASSERT (R446). -/
def execLevelAssert (ch : Nat) (s : State) : Host.Outcome State Fault Refusal := run (assertLevel ch) s

/-- A level condition releases; channel 39 only when no shadow difference persists (R453). -/
def releaseLevel (n : Nat) (s : State) : State :=
  if !monitorsRun s || (n = 39 && (s.tmp.pointerBad || s.tmp.shadowBad != [])) then s
  else updMon n (fun m => { m with asserted := false, raw := false, heldRaised := false }) s

/-- LEVEL_RELEASE (R446). -/
def execLevelRelease (ch : Nat) (s : State) : Host.Outcome State Fault Refusal := run (releaseLevel ch) s

/-- CHANNEL_EVENT (R449): channel 45 has no event but the manager's. -/
def execChannelEvent (ch : Nat) (s : State) : Host.Outcome State Fault Refusal :=
  run (fun s => if monitorsRun s && eventChannel ch && ch != 45 then countEvent ch s else s) s

/-- The chatter counter reaches 32: one chatter event (R447). -/
def chatterReaches (n : Nat) (s : State) : State :=
  if !monitorsRun s || !levelChannel n then s
  else
    let s := event 0x0A02 1 deviceWide [byte n] (updMon n (fun m => { m with chatter := 0 }) s)
    countEvent n (bump (Ctr.tmpChatter n) 1 s)

/-- CHATTER_EVENT (R447). -/
def execChatterEvent (ch : Nat) (s : State) : Host.Outcome State Fault Refusal := run (chatterReaches ch) s

/-- CHATTER_CLEAR (R447). -/
def execChatterClear (ch : Nat) (s : State) : Host.Outcome State Fault Refusal :=
  run (updMon ch fun m => { m with chatter := 0 }) s

/-- A condition stays asserted for HELD_MS (R448). -/
def heldOn (n : Nat) (s : State) : State :=
  let m := monAt s n
  if !monitorsRun s || !m.asserted || m.heldRaised then s
  else
    let s := event 0x0A03 1 deviceWide [byte n] (updMon n (fun m => { m with heldRaised := true }) s)
    if 1 ≤ m.policy then raise 10 s else s

/-- HELD_EVENT (R448). -/
def execHeldEvent (ch : Nat) (s : State) : Host.Outcome State Fault Refusal := run (heldOn ch) s

/-! ### HOLD (R452) -/

/-- HOLD_MIN ticks have not passed since the last firing with HOLD or CURTAIN (R452). -/
def holdYoung (s : State) : Bool := match s.tmp.lastHold with | none => false | some t => s.now < t + s.tmp.holdMin

/-- A channel that is still asserted and whose last firing had HOLD or CURTAIN keeps the HOLD live (R452). -/
def keepsHold (m : Mon) : Bool := m.asserted && match m.lastFire with | none => false | some (_, p) => 2 ≤ p

/-- The HOLD may not end yet. -/
def holdStands (s : State) : Bool := holdYoung s || s.tmp.mons.any keepsHold

/-- HOLD_END (R452). -/
def execHoldEnd (s : State) : Host.Outcome State Fault Refusal :=
  run (fun s => if holdStands s then s else { s with tmp := { s.tmp with hold := false } }) s

/-! ### Floors, policies and filters (R454, R455) -/

/-- The effective floor of a channel (R454). -/
def floorOf (s : State) (n : Nat) : Nat :=
  let plan := match activePlan s with | none => 1 | some p => (p.floor[n]?).getD 1
  if n = 45 || (lc s = .sealed && ((20 ≤ n && n ≤ 23) || (28 ≤ n && n ≤ 38))) then 3 else plan

/-- Every policy below its floor is raised to it. -/
def raiseFloors (s : State) : State :=
  let floors := (List.range 48).map (floorOf s)
  let mons := s.tmp.mons.mapIdx fun n m => { m with policy := Nat.max m.policy ((floors[n]?).getD 0) }
  { s with tmp := { s.tmp with mons := mons } }

/-- A held approval for an action and argument is consumed (R441); none where no such approval is held. -/
def consumeApproval (action : Nat) (arg : Bytes) (s : State) : Option State :=
  match s.tkb.approval with
  | .held c => if c.action = action ∧ c.arg = padTo 64 arg then some { s with tkb := { s.tkb with approval := .none } } else none
  | _ => none

/-- The outcome of a policy or filter write is recorded. -/
def policyResult (n r : Nat) (s : State) : State :=
  event 0x0A08 1 0 [byte n, byte r] { s with tmp := { s.tmp with policyChannel := n, policyResult := r } }

/-- The rows of R455 behind the first two: a write that loosens consumes its approval. -/
def guardedChange (n : Nat) (loosens : Bool) (response : Nat) (f : Mon → Mon) (s : State) : State :=
  if loosens then
    match consumeApproval 8 [byte n, byte response] s with
    | none => policyResult n 2 s
    | some s => policyResult n 0 (updMon n f s)
  else policyResult n 0 (updMon n f s)

/-- TMP_POLICY[n] takes a value (R455). -/
def writePolicy (n v : Nat) (s : State) : State :=
  let r := v % 4
  if 48 ≤ n then s
  else if n = 45 then policyResult n 3 s
  else if r < floorOf s n then policyResult n 1 s
  else guardedChange n (decide (r < (monAt s n).policy)) r (fun m => { m with policy := r }) s

/-- TMP_POLICY_WRITE (R455). -/
def execTmpPolicyWrite (ch : Nat) (value : Nat) (s : State) : Host.Outcome State Fault Refusal :=
  run (pfGuarded (0x480100 + 8 * ch) (writePolicy ch value)) s

/-- The window holds K events or more after the filter changed: the channel fires (R450). -/
def refilter (n : Nat) (s : State) : State :=
  let m := monAt s n
  if m.stamps != [] && m.k ≤ (within m.stamps s.now m.w).length then fireChannel n s else s

/-- TMP_FILTER[n] takes a value: K, W and HELD_MS, each at least 1 (R455, R463). -/
def writeFilter (n v : Nat) (s : State) : State :=
  let k := Nat.max 1 (bits v 7 0)
  let w := Nat.min (2 ^ 24) (Nat.max 1 (bits v 32 8))
  let h := Nat.max 1 (bits v 63 48)
  let m := monAt s n
  if 48 ≤ n then s
  else if n = 45 then policyResult n 3 s
  else refilter n (guardedChange n (decide (m.k < k ∨ w < m.w)) m.policy (fun m => { m with k := k, w := w, heldMs := h }) s)

/-- TMP_FILTER_WRITE (R455). -/
def execTmpFilterWrite (ch : Nat) (value : BitVec 64) (s : State) : Host.Outcome State Fault Refusal :=
  run (pfGuarded (0x480300 + 8 * ch) (writeFilter ch value.toNat)) s

/-! ### The curtain (R253, R272, R456 to R459) -/

/-- Every occupied slot of a function ends, its generation rising, with one partition-erase record (R249, R272). -/
def emptyPartition (f : Nat) (s : State) : State :=
  let s := writeRecord (.partitionErase f) s
  (slotsOf s f).foldl (fun t x => endKey x.1 s.keys.seq t) s

/-- Every occupied slot ends: a record for each function that holds one (R249, R253). -/
def emptyTable (s : State) : State :=
  let fs := s.keys.slots.foldl (fun l x => if x.2.occupied then insertSorted x.2.owner l else l) []
  fs.foldl (fun t f => emptyPartition f t) s

/-- Stage 3 ends: the slots are empty, and a partition-erase record stands for every function (R272). -/
def stage3Done (s : State) : State :=
  if !s.keys.overwriteBusy then s
  else
    let s := (List.range (Config.vfTotal + 1)).foldl (fun t f => emptyPartition f t) s
    { s with keys := { s.keys with overwriteBusy := false } }

/-- CURTAIN_STAGE3_DONE (R272). -/
def execCurtainStage3Done (s : State) : Host.Outcome State Fault Refusal := run stage3Done s

/-- A guarded write of 1 to TMP_CURTAIN.DROP: one event of channel 45 (R456). -/
def execTmpCurtainDrop (s : State) : Host.Outcome State Fault Refusal := run (pfGuarded 0x480008 (countEvent 45)) s

/-- A new master key from the DRBG: the key table is empty under it, and the seal key is derived anew (R131, R253). -/
def newMasterKey (s : State) : Option State :=
  match drawBytes 32 s with
  | none => none
  | some (mk, s) =>
    let s := emptyTable s
    let s := { s with keys := { s.keys with mkPresent := true, master := mk, mkGen := s.keys.mkGen + 1, sealPresent := false } }
    match drawBytes 32 s with
    | none => some s
    | some (v, s) => some { s with keys := { s.keys with sealPresent := true, sealKey := sealKeyOf s v } }

/-- The curtain rises under a new master key; with that, entry into SEALED is complete (R472). -/
def raiseCurtain (s : State) : State :=
  match newMasterKey s with
  | none => s
  | some s =>
    let left : Transition := if s.lcs.transition = .wiping 2 then .none else s.lcs.transition
    event 0x0A05 2 deviceWide []
      { s with tmp := { s.tmp with curtainDown := false, raising := false }, lcs := { s.lcs with transition := left } }

/-- The first condition of R458 and R459 that stands in the way. -/
def raiseBlocked (s : State) : Option Nat :=
  if !s.tmp.curtainDown then some 6
  else if zeroize s then some 3
  else if s.keys.overwriteBusy then some 4
  else if (List.range 48).any (fun n => let m := monAt s n
      (levelChannel n && m.policy = 3 && m.asserted) || m.lastFire = some (s.now, 3)) then some 5
  else none

def curtainResult (r : Nat) (s : State) : State := { s with tmp := { s.tmp with curtainResult := r } }

/-- The raise is accepted and waits for the DRBG. -/
def acceptRaise (s : State) : State := { s with tmp := { s.tmp with curtainResult := 1, raising := true } }

/-- A guarded write of 1 to TMP_CURTAIN.RAISE (R458, R459). -/
def requestRaise (s : State) : State :=
  match raiseBlocked s with
  | some r => curtainResult r s
  | none =>
    if raiseNeedsApproval s then
      match consumeApproval 1 [] s with
      | none => curtainResult 2 s
      | some s => acceptRaise s
    else acceptRaise s

/-- TMP_CURTAIN_RAISE (R458). -/
def execTmpCurtainRaise (s : State) : Host.Outcome State Fault Refusal := run (pfGuarded 0x480008 requestRaise) s

/-- The master key that BLANK or FACTORY lacked under a curtain that is up, once an instance serves (R253). -/
def awaitedKey (s : State) : State :=
  match newMasterKey s with
  | none => s
  | some s => { s with tmp := { s.tmp with raising := false } }

/-- CURTAIN_RAISE (R253, R458, R472): an accepted raise, or the one of entry into SEALED, once an instance serves and stage 3
is over; under a raised curtain, the master key that awaited an instance. -/
def execCurtainRaise (s : State) : Host.Outcome State Fault Refusal :=
  run (fun s =>
    if s.tmp.raising && s.tmp.curtainDown && !s.keys.overwriteBusy then raiseCurtain s
    else if s.tmp.raising && !s.tmp.curtainDown && !s.keys.mkPresent then awaitedKey s
    else s) s

/-! ### The backup domain (R453, R460 to R462, R519, R521) -/

/-- VDD_VAULT and VHOLD are both absent, and the backup domain watches, except in SCRAPPED. -/
def onBackup (s : State) : Bool := s.tmp.onBackup && lc s != .scrapped

/-- A condition that the backup domain watches: mesh, temperature and VBAT always, TAMP_IN[n] when armed (R460). -/
def backupArmed (s : State) (n : Nat) : Bool :=
  n = 28 || n = 29 || (16 ≤ n && n ≤ 19) || n = 42 || (30 ≤ n && n ≤ 37 && s.tmp.armed.contains (n - 30))

/-- The latch with one more assertion (R461). -/
def latchWith (l : List Latch) (n bclk : Nat) (cleared : Bool) : List Latch :=
  let e : Latch := { channel := n, cleared := cleared, bclk := bclk % 2 ^ 48, unkept := 0 }
  if l.length < 16 then l ++ [e]
  else match l[15]? with
    | none => l
    | some last => l.take 15 ++ [{ e with unkept := Nat.min 255 (last.unkept + 1) }]

/-- An assertion on VBAT alone clears BBRAM and writes the latch. -/
def backupAsserts (n bclk : Nat) (s : State) : State :=
  if onBackup s && backupArmed s n then
    { s with tmp := { s.tmp with latch := latchWith s.tmp.latch n bclk s.keys.mkPresent },
             keys := { s.keys with mkPresent := false, master := [] } }
  else s

/-- BACKUP_ALARM (R461). -/
def execBackupAlarm (ch : Nat) (bclk : Nat) (s : State) : Host.Outcome State Fault Refusal := run (backupAsserts ch bclk) s

/-- The TAMP_IN lines whose policy was CURTAIN as the vault die lost power (R460). -/
def armedLines (s : State) : List Nat := (List.range 8).filter fun n => (monAt s (30 + n)).policy = 3

/-- BCLK_LOSS (R521): the backup domain counts its own oscillator, and nothing else changes. -/
def execBclkLoss (s : State) : Host.Outcome State Fault Refusal :=
  run (fun s => { s with pwr := { s.pwr with bclk := false } }) s

/-- BANK_POINTER_REPAIR (R453). -/
def execBankPointerRepair (s : State) : Host.Outcome State Fault Refusal :=
  run (fun s => { s with tmp := { s.tmp with pointerBad := false } }) s

end Sys2Proof.Machine
end

