-- ==== Sys2Proof/Machine/Tenants.lean ====
section
/-! DEFINITION. Rings set up by opcode, tenant-table entries, VF resets, quiesce, partition erase and the mailbox
(R68, R98 to R114), with the resets of the PF (R56). -/

namespace Sys2Proof.Machine

/-- What a change answers at the commit instant: the status, the output that it adds, and the state. -/
abbrev Applied := Status × Bytes × State

/-! ### OP_RING_SETUP (R68, R69) -/

/-- The checks and the set-up, at the commit instant. -/
def applyRingSetup (b : Bytes) (s : State) : Applied :=
  let r := ringSpecOf b
  match ringSetupCheck s r false with
  | some st => (st, [], s)
  | none =>
    if r.log2 = 0 then
      match ringContext s r.fn r.ringId with
      | some (c, _) => (.ok, leBytes 4 c ++ zeros 4, placeRing c r s)
      | none => (.invalidInput, [], s)
    else match pick s (freeContexts s) with
      | some c => (.ok, leBytes 4 c ++ zeros 4, spend (placeRing c r s))
      | none => (.quota, [], s)

/-- OP_RING_SETUP (R68). -/
def execOpRingSetup (k : Nat) (s : State) : Host.Outcome State Fault Refusal :=
  run (compute k 0x011 fun _ _ input => done [] 0 [.ringSetup input]) s

/-! ### OP_VF_SETUP (R100 to R103, R409) -/

/-- A quota field: the default code takes the plan's value. -/
def quotaField (v dflt code : Nat) : Nat := if v = code then dflt else v

/-- The quotas that an input asks for, with the defaults in `d`. -/
def quotasAsked (b : Bytes) (d : Tenant) : Tenant :=
  { rings := quotaField (leAt b 2 1) d.rings 0xFF, seats := quotaField (leAt b 4 2) d.seats 0xFFFF,
    pages := quotaField (leAt b 6 2) d.pages 0xFFFF, slots := quotaField (leAt b 8 4) d.slots 0xFFFFFFFF,
    units := quotaField (leAt b 12 4) d.units 0xFFFFFFFF, streams := quotaField (leAt b 16 2) d.streams 0xFFFF,
    pollShare := quotaField (leAt b 18 2) d.pollShare 0xFFFF,
    classes := if bit (leAt b 3 1) 2 then d.classes else leAt b 20 4 }

/-- A value above its maximum that is not the default code. -/
def quotaTooHigh (v max code : Nat) : Bool := max < v && v != code

/-- The second row of R101. -/
def vfInputBad (b : Bytes) : Bool :=
  let fl := leAt b 3 1
  bits fl 7 3 != 0 || leAt b 24 8 != 0 || (bit fl 0 && bit fl 1) || quotaTooHigh (leAt b 2 1) 64 0xFF
    || quotaTooHigh (leAt b 4 2) 16384 0xFFFF || quotaTooHigh (leAt b 6 2) 6144 0xFFFF
    || quotaTooHigh (leAt b 8 4) 65536 0xFFFFFFFF || quotaTooHigh (leAt b 12 4) 131072 0xFFFFFFFF
    || quotaTooHigh (leAt b 16 2) 16384 0xFFFF || quotaTooHigh (leAt b 18 2) 2560 0xFFFF

/-- A ring of function `f` with RING_ID at or above `n`. -/
def ringAtOrAbove (s : State) (f n : Nat) : Bool := s.ush.rings.any fun x => x.2.owner = f && n ≤ x.2.ringId

/-- The checks of R101 in order, with the refusal of R409 after those of the input itself. -/
def vfSetupCheck (s : State) (b : Bytes) (asked : Tenant) : Option Status :=
  let f := leAt b 0 2
  let fl := leAt b 3 1
  let update := bit fl 0
  let remove := bit fl 1
  let present := (s.ten.table.get? f).isSome
  if f = 0 || vfOffer s < f || vfInputBad b then some .invalidInput
  else if (homeOf s f).twin then some .keyOwner
  else if !update && !remove && present then some .busy
  else if (update || remove) && !present then some .invalidInput
  else if update && ringAtOrAbove s f asked.rings then some .busy
  else if remove && (slotsOf s f != [] || streamsOf s f != [] || ringAtOrAbove s f 0) then some .busy
  else none

/-- The 24 quota bytes of a tenant-table entry, from RINGS on (R100, R406). -/
def Tenant.bytes (t : Tenant) : Bytes :=
  leBytes 1 t.rings ++ [0] ++ leBytes 2 t.seats ++ leBytes 2 t.pages ++ leBytes 4 t.slots ++ leBytes 4 t.units
    ++ leBytes 2 t.streams ++ leBytes 2 t.pollShare ++ leBytes 4 t.classes ++ zeros 2

/-- The entry that 24 quota bytes hold. -/
def Tenant.ofBytes (b : Bytes) : Tenant :=
  { rings := leAt b 0 1, seats := leAt b 2 2, pages := leAt b 4 2, slots := leAt b 6 4, units := leAt b 10 4,
    streams := leAt b 14 2, pollShare := leAt b 16 2, classes := leAt b 18 4 }

/-- The type 0x6 record of a function's entry as it stands (R406, R409). -/
def writeTenantRecord (f : Nat) (s : State) : State :=
  let t := s.ten.table.get? f
  writeShared (.tenant f (match t with | some e => e.bytes | none => [])) (fun q => .tenant q f t.isSome (match t with | some e => e.bytes | none => zeros 24)
    (!(homeOf s f).twin) (homeOf s f).term) s

/-- The checks and the entry, at the commit instant, with the default quotas `d` that were in force at admission (R100). -/
def applyVfSetup (d : Tenant) (b : Bytes) (s : State) : Applied :=
  let f := leAt b 0 2
  let asked := quotasAsked b d
  match vfSetupCheck s b asked with
  | some st => (st, [], s)
  | none =>
    let out := leBytes 4 (slotsOf s f).length ++ leBytes 2 (streamsOf s f).length ++ zeros 2
    let table := if bit (leAt b 3 1) 1 then s.ten.table.del f else s.ten.table.put f asked
    let s := { s with ten := { s.ten with table := table } }
    (.ok, out, writeTenantRecord f s)

/-- OP_VF_SETUP (R100). -/
def execOpVfSetup (k : Nat) (s : State) : Host.Outcome State Fault Refusal :=
  run (compute k 0x010 fun _ _ input => done [] 0 [.vfSetup input]) s

/-! ### VF reset (R109 to R112) -/

/-- A dispatched operation is detached. One whose input is still being read ends as a read that failed (assumption log
31). -/
def detach (k : Nat) (s : State) : State :=
  match s.seats.get? k with
  | none => s
  | some x =>
    let s := updSeat k (fun y => { y with detached := true }) s
    if x.input.isNone then operandFails k s else s

/-- What a reset does to a seat of the function: steps 2 and 3, and the end of its write-out (step 4). -/
def resetSeat (s : State) (k : Nat) : State :=
  match s.seats.get? k with
  | none => s
  | some x =>
    match x.phase with
    | .waiting => squashSeat k s
    | .granted => if x.run = 0 then squashSeat k s else detach k s
    | .committed => releaseSeat k s
    | .held => updSeat k (fun y => { y with detached := true }) s
    | .executing => detach k s

/-- Steps 1 to 5 of a VF reset. -/
def drainFunction (f : Nat) (s : State) : State :=
  let s := { s with ush := { s.ush with rings := s.ush.rings.mapRows fun _ q => if q.owner = f then stopReads q else q },
                    writer := s.writer.filter fun i => i.fn != f }
  (Tab.keys (seatsOf s f)).foldl resetSeat s

/-- A VF reset starts, or joins the one in progress; cause 0 is FLR, 1 OP_VF_RESET, 2 VF Enable cleared (R109, R112). -/
def startReset (f cause : Nat) (joined : List Nat) (vanishes : Bool) (s : State) : State :=
  match s.ten.resets.get? f with
  | some r =>
    let row : VfReset := { cause := if cause = 0 then 0 else r.cause, joined := r.joined ++ joined,
                           vanishes := r.vanishes || vanishes }
    { s with ten := { s.ten with resets := s.ten.resets.put f row } }
  | none =>
    let row : VfReset := { cause := cause, joined := joined, vanishes := vanishes }
    let s := { s with ten := { s.ten with resets := s.ten.resets.put f row } }
    event 0x0103 0 f [byte cause] (drainFunction f s)

/-- VF_FLR (R109). -/
def execVfFlr (fn : Nat) (s : State) : Host.Outcome State Fault Refusal :=
  run (fun s => if fn != 0 && fnExists s fn then startReset fn 0 [] false s else s) s

/-- The empty mailbox. -/
def Mailbox.empty : Mailbox := { outBuf := [], outLen := 0, busy := false, inBuf := [], inLen := 0, full := false, txLen := 0 }

/-- The mailbox of a function (R105). -/
def mailOf (s : State) (f : Nat) : Mailbox := s.ten.mail.getD f Mailbox.empty

def updMail (f : Nat) (g : Mailbox → Mailbox) (s : State) : State :=
  { s with ten := { s.ten with mail := s.ten.mail.put f (g (mailOf s f)) } }

/-- The outcome of an operation that reaches its end now. -/
def finishSeat (o : Outcome) (s : State) (k : Nat) : State := updSeat k (fun y => { y with outcome := some o }) s

/-- Seat `k` still runs the OP_VF_RESET that joined the reset of `f`. -/
def joinedReset (s : State) (f k : Nat) : Bool :=
  match s.seats.get? k with
  | none => false
  | some x => computing x 0x012 && x.entry.argN 0 2 = f

/-- Steps 6 and 7 of a VF reset (R109). -/
def completeReset (f : Nat) (s : State) : State :=
  match s.ten.resets.get? f with
  | none => s
  | some r =>
    let s := resetRings f s
    let s := { s with ten := { s.ten with mail := s.ten.mail.del f, resets := s.ten.resets.del f } }
    let s := if r.cause = 0 && fnExists s f then emit (.frs f) s else s
    let s := raise (288 + (f - 1) / 16) s
    (r.joined.filter (joinedReset s f)).foldl (finishSeat (done [] 0 [])) s

/-- VF_RESET_COMPLETE (R109). -/
def execVfResetComplete (fn : Nat) (s : State) : Host.Outcome State Fault Refusal := run (completeReset fn) s

/-- OP_VF_RESET: it starts or joins the reset of an existing VF; its result comes with the reset's completion (R112). -/
def opReset (k : Nat) (s : State) : State :=
  match s.seats.get? k with
  | none => s
  | some x =>
    let f := x.entry.argN 0 2
    if !computing x 0x012 then s
    else if strayHandle x || f = 0 || !fnExists s f then finishSeat (ended .invalidInput 0) s k
    else if s.ten.resets.any fun r => r.2.joined.contains k then s
    else startReset f 1 [k] false s

/-- OP_VF_RESET (R112). -/
def execOpVfReset (k : Nat) (s : State) : Host.Outcome State Fault Refusal := run (opReset k) s

/-! ### OP_VF_QUIESCE (R113) -/

/-- OP_VF_QUIESCE: QUIESCING is set at once, and the operation ends when the VF is quiet (`releaseSeat` ends the wait);
RELEASE clears it at the commit instant. -/
def opQuiesce (k : Nat) (s : State) : State :=
  match s.seats.get? k with
  | none => s
  | some x =>
    let f := x.entry.argN 0 2
    if !computing x 0x014 then s
    else if strayHandle x || f = 0 || Config.vfTotal < f then finishSeat (ended .invalidInput 0) s k
    else if x.entry.argBit 2 0 then finishSeat (done [] 0 [.unquiesce f]) s k
    else
      let waits := (s.ten.quiesceWaits.filter fun w => w.1 != k) ++ [(k, f)]
      let s := { s with ten := { s.ten with quiescing := insertSorted f s.ten.quiescing, quiesceWaits := waits } }
      if !fnExists s f || quiet s f then endQuiesce .ok k s else s

/-- OP_VF_QUIESCE (R113). -/
def execOpVfQuiesce (k : Nat) (s : State) : Host.Outcome State Fault Refusal := run (opQuiesce k) s

/-- 100 ms after admission an operation that still waits ends with E_BUSY, and QUIESCING stays as it is. -/
def quiesceExpires (k : Nat) (s : State) : State :=
  match s.ten.quiesceWaits.find? fun w => w.1 = k with
  | none => s
  | some w => endQuiesce (if quiet s w.2 then .ok else .busy) k s

/-- QUIESCE_TIMEOUT (R113). -/
def execQuiesceTimeout (k : Nat) (s : State) : Host.Outcome State Fault Refusal := run (quiesceExpires k) s

def applyUnquiesce (f : Nat) (s : State) : Applied :=
  (.ok, [], { s with ten := { s.ten with quiescing := s.ten.quiescing.filter fun g => g != f } })

/-! ### OP_PARTITION_ERASE (R114) -/

/-- The checks and the erase, at the commit instant. -/
def applyErase (f : Nat) (s : State) : Applied :=
  if f = 0 ∨ Config.vfTotal < f then (.invalidInput, [], s)
  else if !quiescing s f || !quiet s f then (.busy, [], s)
  else if (homeOf s f).twin then (.keyOwner, [], s)
  else
    let s := erasePartition f s
    let s := (Tab.keys (streamsOf s f)).foldl (fun t i => closeStream i t) s
    (.ok, [], event 0x0104 1 f [] s)

/-- OP_PARTITION_ERASE (R114). -/
def execOpPartitionErase (k : Nat) (s : State) : Host.Outcome State Fault Refusal :=
  run (compute k 0x015 fun _ x _ => done [] 0 [.markErase (x.entry.argN 0 2)]) s

/-! ### Mailbox (R105, R106) -/

/-- A write in the window of an existing VF. -/
def vfWrite (f : Nat) (g : State → State) (s : State) : State := if f != 0 && fnExists s f then g s else s

/-- LENGTH of a message as stored. R105 gives the range 0 to 2,032 only: DESIGN CHOICE, a larger value stores 2,032
(assumption log 103). -/
def mailLen (v : Nat) : Nat := Nat.min 2032 (v % 4096)

/-- VFC_MBX_OUT (R105): LENGTH is stored, and SEND sends unless BUSY. -/
def mailOut (f v : Nat) (s : State) : State :=
  let s := updMail f (fun m => { m with outLen := mailLen v }) s
  if bit v 16 && !(mailOf s f).busy then signal 0 1 (updMail f (fun m => { m with busy := true }) s) else s

/-- VFC_MBX_OUT_SEND (R105). -/
def execVfcMbxOutSend (fn : Nat) (value : BitVec 32) (s : State) : Host.Outcome State Fault Refusal :=
  run (vfWrite fn (mailOut fn value.toNat)) s

/-- VFC_MBX_IN.ACK releases the inbound message. DESIGN CHOICE: LENGTH reads 0 then, as no message is present; R105 names
the release only (assumption log 103). -/
def mailInAck (f : Nat) (s : State) : State := updMail f (fun m => { m with full := false, inLen := 0 }) s

/-- VFC_MBX_IN_ACK (R105). -/
def execVfcMbxInAck (fn : Nat) (s : State) : Host.Outcome State Fault Refusal := run (vfWrite fn (mailInAck fn)) s

/-- The VF that VFC_MBX_SEL shows. -/
def mailFn (s : State) : Nat := s.ten.mailSel + 1

/-- VFC_PF_MBX_RX.ACK clears the selected VF's BUSY. -/
def mailRxAck (s : State) : State :=
  vfWrite (mailFn s) (updMail (mailFn s) fun m => { m with busy := false }) s

/-- VFC_PF_MBX_RX_ACK (R105). -/
def execVfcPfMbxRxAck (s : State) : Host.Outcome State Fault Refusal := run (pfWrite 0x1017F0 mailRxAck) s

/-- VFC_PF_MBX_TX: LENGTH is stored, and SEND delivers unless FULL; the VF's vector 1 is signalled. -/
def mailTx (v : Nat) (s : State) : State :=
  let f := mailFn s
  vfWrite f (fun s =>
    let s := updMail f (fun m => { m with txLen := mailLen v }) s
    if bit v 16 && !(mailOf s f).full then
      signal f 1 (updMail f (fun m => { m with full := true, inLen := m.txLen }) s)
    else s) s

/-- VFC_PF_MBX_TX_SEND (R105). -/
def execVfcPfMbxTxSend (value : BitVec 32) (s : State) : Host.Outcome State Fault Refusal :=
  run (pfWrite 0x101FF0 (mailTx value.toNat)) s

end Sys2Proof.Machine
end

