-- ==== Sys2Proof/Machine/Plan.lean ====
section
/-! DEFINITION. Script images and stage plans: their checks, loading, switching, scene changes, the overlay, and the customer
script keys (chapters 13 and 15). -/

namespace Sys2Proof.Machine

/-! ### The checks of a script image (R350) -/

/-- Length of an ML-DSA-87 signature. -/
def sigLen : Nat := 4627

/-- A signed image: every byte before its signature, and the signature. -/
def signedPart (b : Bytes) : Bytes := b.take (b.length - sigLen)
def signature (b : Bytes) : Bytes := b.drop (b.length - sigLen)

/-- KEY_DIGEST names the key valid for KIND (R349, R383). -/
def keyValid (s : State) (kind slot : Nat) (digest : Bytes) : Bool :=
  if kind = 0 then digest = Config.makerKeyDigest
  else if kind = 1 then (s.scr.keys[slot]?).getD none = some digest
  else false

def bindOk (s : State) (b : Nat) : Bool := b = 0 || b = s.otp.serial.toNat

/-- Exports of an image: word addresses behind its headers (R348). -/
def imageExports (img : Bytes) : List Nat :=
  let at_ := 64 + sumOf ((imageHeaders img).map fun h => 64 + 64 * h.rows.length)
  (List.range (leAt img 18 2)).map fun i => leAt img (at_ + 2 * i) 2

/-- A length source of LEN_SEL. -/
def sourceOk (n : Nat) : Bool := n ≤ 4 || n = 15

/-- A row's fields in range (R346). -/
def rowOk (h : Header) (maker : Bool) (r : Bytes) : Bool :=
  (h.hasRounds || leAt r 2 2 = 0) && (bits h.lenSel 3 0 = 15 || leAt r 16 4 != 0)
    && (bits h.lenSel 7 4 = 15 || leAt r 28 4 != 0) && leAt r 48 4 ≤ 65536 && leAt r 54 2 ≤ 1 && 1 ≤ leAt r 56 4
    && leAt r 60 4 = 0 && (!maker || (leAt r 52 2 = 0 && leAt r 54 2 = 0))

/-- A header's fields in range, at its offset (R346). -/
def headerOk (img : Bytes) (maker : Bool) (off : Nat) (h : Header) : Bool :=
  leAt img off 2 = 0x4853 && (if maker then h.opcode ≤ 0x7FF else 0x800 ≤ h.opcode && h.opcode ≤ 0xFFF) && h.width ≤ 1
    && 1 ≤ h.rows.length && h.rows.length ≤ 16 && h.flags < 256 && h.keccak ≤ 3 && h.sha2 ≤ 3 && h.usageKey < 128
    && h.usageAux < 128 && h.scratch % 4096 = 0 && h.scratch ≤ (if h.width = 1 then 262144 else 524288)
    && sourceOk (bits h.lenSel 3 0) && sourceOk (bits h.lenSel 7 4) && h.lenSel < 256 && leAt img (off + 44) 4 = 0
    && h.rows.all (rowOk h maker)

/-- Every header of an image with its offset. -/
def placedHeaders (img : Bytes) : List (Nat × Header) :=
  ((imageHeaders img).foldl (fun (r : Nat × List (Nat × Header)) h =>
    (r.1 + 64 + 64 * h.rows.length, r.2 ++ [(r.1, h)])) (64, [])).2

/-- Check 3 of R350. -/
def imageFieldsOk (img : Bytes) (maker : Bool) : Bool :=
  leAt img 0 4 = 0x53435649 && leAt img 4 2 = 1 && leAt img 6 1 = (if maker then 0 else 1)
    && leAt img 7 1 ≤ (if maker then 0 else 1) && leAt img 12 4 ≤ (if maker then 49152 else 16384)
    && (maker || leAt img 18 2 = 0) && leAt img 20 4 = 0
    && img.length = wordsAt img + 24 * leAt img 12 4 + sigLen
    && (placedHeaders img).all fun p => headerOk img maker p.1 p.2

/-- Registers that the slots of a word write, by timing number; LC0 and LC1 are 90 and 91 (R336). -/
def slotWrites (w : BitVec 192) : List (List Nat) :=
  let q := Seq.of (wordSeq w)
  let va := Va.of (wordVa w)
  let vm := Vm.of (wordVm w)
  let sc := Sc.of (wordSc w)
  let hx := Hx.of (wordHx w)
  let vaW := if wordVa w = 0 then [] else va.dests ++ (match vaOp va.op with
    | some r => if r.s3s then [sNum va.vs3] else []
    | none => [])
  let vmW := if wordVm w = 0 then [] else
    (if vm.isLoad || [0x11, 0x12, 0x13].contains vm.op then [vm.vd] else [])
      ++ (if vm.op = 0x10 || vm.op = 0x01 then [sNum vm.vd] else [])
      ++ (if vm.op = 0x03 then [qNum (vm.imm % 8)] else []) ++ (if vm.inc then [aNum vm.a] else [])
  let scW := sc.dests ++ (if sc.op = 0x0D ∨ sc.op = 0x0E then [90 + sc.rd % 2] else [])
  let sqW := if q.mode = 4 then [90] else if q.mode = 5 then [91] else []
  [vaW, vmW, scW, hx.dests, sqW]

/-- No register stands in two of the lists. -/
def disjointLists : List (List Nat) → Bool
  | [] => true
  | l :: r => l.all (fun n => r.all fun m => !m.contains n) && disjointLists r

/-- Field rules of R335. -/
def seqOk (q : Seq) : Bool :=
  q.mode != 7 && q.cond ≤ 7 && !q.spare && q.cue ≤ 13
    && (q.mode != 0 || (q.cond = 0 && !q.neg && q.target = 0)) && (q.mode != 3 || q.target = 0)
    && (!(4 ≤ q.mode && q.mode ≤ 6) || (q.cond = 0 && !q.neg))

/-- What an HX operation names of A, C and F, MK, and the bits of IMM (R339). -/
def hxNames (i : Hx) : Option (Bool × Bool × Bool × Nat) :=
  match i.op with
  | 0x00 => some (false, false, false, 0)
  | 0x01 => some (false, true, true, if i.family = 1 then 1 else 0xFFFF)
  | 0x02 => some (true, true, false, 0x7F)
  | 0x03 => some (false, true, false, 0)
  | 0x04 => some (true, true, false, 0x7F)
  | 0x05 => some (false, true, false, 0)
  | 0x06 => some (false, false, false, 1)
  | 0x07 => some (true, false, false, 0x7F)
  | 0x08 => some (false, false, false, 0)
  | 0x09 => some (true, false, false, 0)
  | 0x0A => some (false, false, false, 0)
  | 0x0B => some (true, false, false, 0)
  | 0x0C => some (true, false, false, 0x7F)
  | 0x0D => some (true, false, false, 0)
  | 0x0E => some (false, false, false, 0xFFFF)
  | 0x1F => some (false, false, false, 0)
  | _ => none

/-- Field rules of R339. -/
def hxOk (i : Hx) (half : Bool) : Bool :=
  match hxNames i with
  | none => false
  | some (a, core, mk, imm) =>
    !i.spare && (a || i.a = 0) && (core || (i.core = 0 && i.family = 0)) && i.family ≤ 1 && (mk || !i.maskCore)
      && i.imm &&& imm = i.imm && (!i.moves || (1 ≤ i.bytes && i.bytes ≤ (if half then 32 else 64)))

/-- Check 4 of R350 on one word, of a header's width. -/
def wordOk (half : Bool) (w : BitVec 192) : Bool :=
  seqOk (Seq.of (wordSeq w)) && (Sc.of (wordSc w)).op ≤ 0x10 && hxOk (Hx.of (wordHx w)) half && disjointLists (slotWrites w)

/-- The addresses of a header's footprint. -/
def footprintWords (h : Header) : List Nat := h.footprint.flatMap fun r => (List.range r.2).map fun i => r.1 + i

/-- The words of a header's footprint that its own image or the maker's holds. -/
def headerWords (fetch : Nat → Option (BitVec 192)) (h : Header) : List (Nat × BitVec 192) :=
  (footprintWords h).filterMap fun a => (fetch a).map fun w => (a, w)

/-- Check 6 of R350, with R351: targets, ENTRY, size and regions. -/
def footprintOk (maker : Bool) (exports : List Nat) (fetch : Nat → Option (BitVec 192)) (h : Header) : Bool :=
  let own (a : Nat) : Bool := if maker then a < 0xC000 else 0xC000 ≤ a
  let rangeOk (r : Nat × Nat) : Bool :=
    r.2 = 0 || r.1 + r.2 ≤ 65536 && ((own r.1 && own (r.1 + r.2 - 1))
      || (!maker && exports.contains r.1 && r.1 + r.2 ≤ 0xC000))
  let wordOk (a : Nat) (w : BitVec 192) : Bool :=
    let q := Seq.of (wordSeq w)
    let targeted := [1, 2, 4, 5, 6].contains q.mode
    !targeted || (h.holds q.target && ((a < 0xC000) = (q.target < 0xC000)
      || (0xC000 ≤ a && q.mode = 2 && exports.contains q.target)))
  h.holds h.entry && own h.entry && h.words ≤ (if h.width = 1 then 2048 else 4096) && h.footprint.all rangeOk
    && (headerWords fetch h).all fun p => wordOk p.1 p.2

/-- The longest interval that a row declares (R350, check 7). -/
def longestInterval (h : Header) (r : Bytes) : Nat :=
  let src (n : Nat) := if n = 0 then leAt r 40 4 else 2 ^ 32 - 1
  let s1 := bits h.lenSel 3 0
  let s2 := bits h.lenSel 7 4
  leAt r 4 4 + leAt r 2 2 * leAt r 8 4 + lengthTerm r 12 s1 (src s1) + lengthTerm r 24 s2 (src s2)

def timesOk (h : Header) : Bool :=
  h.rows.all fun r => 17 * ceilDiv h.words 16 + 48 ≤ leAt r 4 4 && longestInterval h r ≤ 2 ^ 48 - 1

/-- Check 8 of R350. -/
def flagsOk (ws : List (Nat × BitVec 192)) (h : Header) : Bool :=
  let uses (f : Hx → Bool) : Bool := ws.any fun p => f (Hx.of (wordHx p.2))
  (h.hasRounds || !uses fun i => i.op = 0x0A || i.op = 0x0B)
    && (h.streamed || !(uses (fun i => i.op = 0x06) || ws.any fun p => (Seq.of (wordSeq p.2)).cue = 11))
    && (!bit h.flags 1 || h.masked || h.shuffle)

/-- The first check of R350 that an image fails. `exports` are the maker's, `fetch` reads the control store as it would
stand. -/
def imageCheck (s : State) (img : Bytes) (maker : Bool) (exports : List Nat) (fetch : Nat → Option (BitVec 192)) :
    Option Nat :=
  let kind := if maker then 0 else 1
  let hs := imageHeaders img
  let ws (h : Header) := headerWords fetch h
  if !Config.primHolds .imageSigOk [signedPart img, signature img, slice img 32 32]
      || !keyValid s kind (leAt img 7 1) (slice img 32 32) || !bindOk s (leAt img 24 8) then some 1
  else if leAt img 8 4 < (if maker then Config.makerMinSvn else s.scr.minSvn) then some 2
  else if !imageFieldsOk img maker then some 3
  else if !(hs.all fun h => (ws h).all fun p => wordOk (h.width = 1) p.2) then some 4
  else if !(hs.all fun h => (ws h).all fun p =>
      let i := Hx.of (wordHx p.2)
      !i.onCore || !leaseBad h i) then some 5
  else if !(hs.all (footprintOk maker exports fetch)) then some 6
  else if !(hs.all timesOk) then some 7
  else if !(hs.all fun h => flagsOk (ws h) h) then some 8
  else if !maker && hs.any (fun h => bit h.flags 7 || bit h.flags 2 || bit h.flags 5
      || (ws h).any fun p => (Hx.of (wordHx p.2)).op = 0x0D) then some 9
  else none

/-! ### The plan image (R383, R384, R386) -/

/-- SHA-384 over a whole image. -/
def digest384 (b : Bytes) : Bytes := digestOf 0x0603 b 48

def scriptImage (b : Bytes) : Image := { digest := digest384 b, svn := leAt b 8 4, bytes := b }

/-- The embedded maker and customer images. -/
def planMaker (b : Bytes) : Bytes := slice b (leAt b 24 4) (leAt b 28 4)
def planCustomer (b : Bytes) : Option Bytes :=
  if leAt b 36 4 = 0 then none else some (slice b (leAt b 32 4) (leAt b 36 4))

/-- An entry of the operation table. -/
def tableEntry (b : Bytes) (o : Nat) : OpEntry :=
  { opcode := leAt b o 2 % 4096, pool := leAt b (o + 2) 1, cls := leAt b (o + 3) 1, vf := bit (leAt b (o + 4) 1) 0,
    customer := bit (leAt b (o + 4) 1) 1, units := (List.range 16).map fun i => leAt b (o + 8 + 4 * i) 4 }

def tableOffsets (b : Bytes) : List Nat := (List.range (leAt b 44 2)).map fun i => leAt b 40 4 + 80 * i

/-- The plan that an image holds. -/
def planOf (b : Bytes) : Plan :=
  { digest := digest384 b, svn := leAt b 8 4, image := b, isDefault := false,
    keySlot := (planCustomer b).map fun c => leAt c 7 1, pools := leAt b 96 1, vfOffer := leAt b 98 2,
    wingsPages := leAt b 100 2, pinPages := leAt b 102 2, split := leAt b 104 4,
    poolOf := (List.range 32).map fun p => bits (leAt b 108 16) (4 * p + 3) (4 * p),
    keccak := (List.range 4).map fun g => leAt b (124 + g) 1, sha2 := (List.range 4).map fun g => leAt b (128 + g) 1,
    poolGroup := (List.range 8).map fun p => bits (leAt b 132 2) (2 * p + 1) (2 * p), digestGroup := leAt b 134 1 % 4,
    quota := quotasAsked (slice b 136 24) defaultQuota, maxLog2 := leAt b 160 1, pfRings := leAt b 161 1,
    floor := (List.range 48).map fun n => bits (leAt b 164 12) (2 * n + 1) (2 * n),
    table := (tableOffsets b).map (tableEntry b), customer := (planCustomer b).map scriptImage,
    maker := scriptImage (planMaker b) }

/-- Positions of a pool, and whether it is split. -/
def planPositions (p : Plan) (k : Nat) : List Nat := (List.range 32).filter fun i => (p.poolOf[i]?).getD 0 = k
def planSplit (p : Plan) (k : Nat) : Bool := (planPositions p k).any fun i => bit p.split i

/-- A pool has positions of one kind and offers a pair (R305, R388). -/
def planPoolOk (p : Plan) (k : Nat) : Bool :=
  let ps := planPositions p k
  2 ≤ ps.length && (ps.all (fun i => bit p.split i) || ps.all fun i => !bit p.split i)

/-- An embedded image lies between CONFIG and the signature. -/
def insideOk (b : Bytes) (off len : Nat) : Bool := 192 ≤ off && off + len + sigLen ≤ b.length

/-- Default quotas of a plan: values of OP_VF_SETUP with FUNCTION and FLAGS zero and no default codes (R384). -/
def planQuotaOk (b : Bytes) : Bool :=
  let q := slice b 136 24
  leAt q 0 2 = 0 && leAt q 3 1 = 0 && !vfInputBad (q ++ zeros 8) && leAt q 2 1 ≤ 64 && leAt q 4 2 ≤ 16384
    && leAt q 6 2 ≤ 6144 && leAt q 8 4 ≤ 65536 && leAt q 12 4 ≤ 131072 && leAt q 16 2 ≤ 16384 && leAt q 18 2 ≤ 2560

/-- Check 3 of R388. -/
def planFieldsOk (b : Bytes) (p : Plan) : Bool :=
  leAt b 0 4 = 0x504C4E53 && leAt b 4 2 = 1 && leAt b 6 1 ≤ 1 && leAt b 7 1 ≤ leAt b 6 1 && leAt b 12 4 = b.length
    && b.length ≤ 2097152 && insideOk b (leAt b 24 4) (leAt b 28 4)
    && (if leAt b 36 4 = 0 then leAt b 32 4 = 0 else insideOk b (leAt b 32 4) (leAt b 36 4))
    && insideOk b (leAt b 40 4) (80 * leAt b 44 2) && leAt b 46 2 = 0 && 1 ≤ p.pools && p.pools ≤ 8 && leAt b 97 1 = 0
    && p.vfOffer ≤ 4096 && 1024 ≤ p.wingsPages && p.wingsPages ≤ 6144 && p.poolOf.all (fun k => k < p.pools)
    && sumOf p.keccak = 48 && sumOf p.sha2 = 48 && leAt b 134 1 < 4 && leAt b 135 1 = 0 && planQuotaOk b
    && 4 ≤ p.maxLog2 && p.maxLog2 ≤ 16 && 1 ≤ p.pfRings && p.pfRings ≤ 64 && leAt b 162 2 = 0 && leAt b 176 16 = 0
    && 256 + p.wingsPages + p.pinPages + 64 ≤ Config.sharedPages && (List.range p.pools).all (planPoolOk p)

/-- OPCODE values that rise (R386). -/
def rising : List Nat → Bool
  | [] => true
  | a :: r => r.all (fun c => a < c) && rising r

/-- The header that a table entry selects (R386). -/
def tableHeader (p : Plan) (t : OpEntry) : Option Header :=
  let w := bnat (planSplit p t.pool)
  if t.customer then customerHeader p t.opcode w else findHeader p.maker.bytes t.opcode w

/-- Cores that one pair leases: the hash-based families share theirs (R164, R310). -/
def pairLease (o n : Nat) : Nat := if 0x300 ≤ o ∧ o ≤ 0x3FF then n else 2 * n

/-- Check 4 of R388 on one entry at its offset; a CUSTOMER entry without its header is left to check 5. -/
def tableEntryOk (b : Bytes) (p : Plan) (o : Nat) (t : OpEntry) : Bool :=
  let g := (p.poolGroup[t.pool]?).getD 0
  leAt b o 2 < 4096 && t.cls < 32 && leAt b (o + 4) 1 < 4 && leAt b (o + 5) 3 = 0 && leAt b (o + 72) 8 = 0
    && !(t.opcode < 0x100 && t.vf)
    && (if t.pool = 0xFF then !usesTile t.opcode || (0x100 ≤ t.opcode && t.opcode < 0x200)
        else t.pool < p.pools && usesTile t.opcode && (match tableHeader p t with
          | some h => pairLease t.opcode h.keccak ≤ (p.keccak[g]?).getD 0 && pairLease t.opcode h.sha2 ≤ (p.sha2[g]?).getD 0
          | none => t.customer))

def planTableOk (b : Bytes) (p : Plan) : Bool :=
  rising (p.table.map OpEntry.opcode)
    && ((boundOpcodes.filter isManagement).all fun o => p.table.any fun t => t.opcode = o)
    && ((tableOffsets b).zip p.table).all fun x => tableEntryOk b p x.1 x.2

/-- The first embedded image that fails: its kind and check (R350, check 5 of R388). -/
def planImageFail (s : State) (b : Bytes) (p : Plan) : Option (Nat × Nat) :=
  let ex := imageExports p.maker.bytes
  match imageCheck s p.maker.bytes true ex (fetchWord p) with
  | some n => some (0, n)
  | none => match planCustomer b with
    | none => none
    | some c => (imageCheck s c false ex (fetchWord p)).map fun n => (1, n)

/-- The first check of R388 that a plan fails. The default plan, which the maker signed, can fail check 2 only. -/
def planCheck (s : State) (p : Plan) : Option Nat :=
  let b := p.image
  if p.isDefault then (if p.svn < s.stg.minSvn then some 2 else none)
  else if !Config.primHolds .planSigOk [signedPart b, signature b, slice b 64 32]
      || !keyValid s (leAt b 6 1) (leAt b 7 1) (slice b 64 32) || !bindOk s (leAt b 16 8) then some 1
  else if p.svn < s.stg.minSvn then some 2
  else if !planFieldsOk b p then some 3
  else if !planTableOk b p then some 4
  else if (planImageFail s b p).isSome || p.table.any (fun t => t.customer && (tableHeader p t).isNone) then some 5
  else none

/-- The status of a refused plan. -/
def planStatus (check : Nat) : Status := if check ≤ 2 then .auth else .invalidInput

/-- A refused plan leaves its events (R350, R388). -/
def recordRefusal (bank : Bool) (p : Option Plan) (check : Nat) (s : State) : State :=
  let s := match p with
    | none => s
    | some q => if check = 5 && !q.isDefault then (match planImageFail s q.image q with
        | some (kind, n) => event 0x0701 2 deviceWide [byte kind, byte n] s
        | none => s) else s
  trouble 12 (event 0x0801 2 deviceWide [byte (bnat bank), byte check] s)

/-- The check of the plan in a bank; an EMPTY bank holds no signature and fails check 1 (R391). -/
def bankCheck (s : State) (bank : Bool) : Option Nat :=
  match bankOf s bank with
  | none => some 1
  | some p => planCheck s p

def setBank (bank : Bool) (p : Option Plan) (s : State) : State :=
  if bank then { s with stg := { s.stg with bankB := p } } else { s with stg := { s.stg with bankA := p } }

/-! ### OP_STAGE_LOAD (R390) -/

/-- The load of seat `k` into a bank ends: VALID when the image passes, with its digest; PLAN_SYNC carries it across
(R406). -/
def applyPlanLoad (k : Nat) (bank : Bool) (image : Bytes) (s : State) : Applied :=
  let p := planOf image
  let s := { s with stg := { s.stg with loading := s.stg.loading.filter fun l => l.1 != k } }
  match planCheck s p with
  | some n => (planStatus n, [], recordRefusal bank (some p) n s)
  | none =>
    let s := setBank bank (some p) s
    let s := if s.twn.planSync && s.twn.peerPlanSync && sharing s then sendJournal (.plan bank image) s else s
    (.ok, p.digest, s)

/-- OP_STAGE_LOAD: the bank was taken at dispatch, or the load is refused with E_BUSY. -/
def stageLoad (k : Nat) (s : State) (x : Seat) (input : Bytes) : Outcome :=
  let bank := x.entry.argBit 0 0
  if s.stg.loading.any fun l => l.1 = k then done [] 0 [.planLoad bank input] else ended .busy 0

def execOpStageLoad (k : Nat) (s : State) : Host.Outcome State Fault Refusal := run (compute k 0x030 (stageLoad k)) s

/-! ### Switching (R391 to R393) -/

/-- The result of a switch, in STG_RESULT and at the seat that asked. -/
def switchResult (st : Status) (kind us : Nat) (s : State) : State :=
  let asker := s.stg.asker
  let s := { s with stg := { s.stg with
    switching := .idle, asker := none, resultStatus := st, resultKind := kind, resultUs := us } }
  match asker with
  | none => s
  | some k =>
    finishSeat (if st = .ok then done (byte kind :: zeros 3 ++ leBytes 4 us) 0 [] else ended st 0) s k

/-- A switch is requested: refused while one is in progress or the bank is being loaded; otherwise its check begins. -/
def requestSwitch (bank raiseMin : Bool) (asker : Option Nat) (s : State) : State :=
  if s.stg.switching != .idle then
    let s := { s with stg := { s.stg with resultStatus := .busy, resultKind := 0, resultUs := 0 } }
    match asker with
    | some k => finishSeat (ended .busy 0) s k
    | none => s
  else if s.stg.loading.any fun l => l.2 = bank then
    switchResult .busy 0 0 { s with stg := { s.stg with asker := asker } }
  else
    { s with stg := { s.stg with switching := .checking, target := bank, raiseMin := raiseMin, asker := asker } }

/-- OP_STAGE_SWITCH: it asks once; its result comes with the switch. -/
def opSwitch (k : Nat) (s : State) : State :=
  match s.seats.get? k with
  | none => s
  | some x =>
    if !computing x 0x031 || s.stg.asker = some k then s
    else if strayHandle x then finishSeat (ended .invalidInput 0) s k
    else requestSwitch (x.entry.argBit 0 0) (x.entry.argBit 1 0) (some k) s

/-- OP_STAGE_SWITCH (R391). -/
def execOpStageSwitch (k : Nat) (s : State) : Host.Outcome State Fault Refusal := run (opSwitch k) s

/-- STG_SWITCH takes a value: a switch is requested. -/
def writeSwitch (v : Nat) (s : State) : State :=
  requestSwitch (bit v 0) (bit v 1) none { s with stg := { s.stg with switchReg := v % 4 } }

/-- STG_SWITCH_WRITE (R391). -/
def execStgSwitchWrite (value : Nat) (s : State) : Host.Outcome State Fault Refusal :=
  run (pfGuarded 0x380108 (writeSwitch value)) s

/-- The class-S fields of a plan (R384). -/
def structuralFields (p : Plan) : List (List Nat) :=
  [[p.pools, p.vfOffer, p.wingsPages, p.pinPages, p.split, p.digestGroup], p.poolOf, p.keccak, p.sha2, p.poolGroup]

/-- A switch between the two is structural. -/
def structuralSwitch (old : Option Plan) (new : Plan) : Bool :=
  match old with
  | none => true
  | some p => structuralFields p != structuralFields new

/-- Digests of the images that a plan carries. -/
def planImages (p : Plan) : Bytes × Option Bytes := (p.maker.digest, p.customer.map Image.digest)

/-- The new plan brings an image that is not resident: a scene change begins (R354). -/
def beginScene (oldBank : Bool) (p : Plan) (s : State) : State :=
  if planImages p = ((match s.scr.maker with | some m => m.digest | none => []), s.scr.customer.map Image.digest) then s
  else { s with scr := { s.scr with sceneChange := true, retainBank := some oldBank } }

/-- The pointer commit: the new plan governs (R392 to R395). -/
def commitPlan (p : Plan) (kind us : Nat) (s : State) : State :=
  let old := s.stg.active
  let customer := match p.customer with | some c => c.svn | none => 0
  let s := { s with stg := { s.stg with
    active := s.stg.target, noPlan := false,
    minSvn := if s.stg.raiseMin then Nat.max s.stg.minSvn p.svn else s.stg.minSvn } }
  let s := if s.stg.raiseMin then { s with scr := { s.scr with minSvn := Nat.max s.scr.minSvn customer } } else s
  let s := beginScene old p (raiseFloors s)
  let s := bump Ctr.switches 1 (event 0x0803 0 deviceWide (byte kind :: zeros 3 ++ leBytes 4 us) s)
  switchResult .ok kind us s

/-- PLAN_CHECK_COMPLETE: the rows of R391 in order, then a hitless commit or the intermission. -/
def planChecked (s : State) : State :=
  if s.stg.switching != .checking then s
  else
    let b := s.stg.target
    match bankCheck s b, bankOf s b with
    | some n, p => switchResult (planStatus n) 0 0 (recordRefusal b p n s)
    | none, none => s
    | none, some p =>
      if s.pcie.vfEnable && Nat.min p.vfOffer s.stg.overlayMax < s.pcie.numVfs then switchResult .busy 0 0 s
      else if p.pinPages < pinPagesUsed s then switchResult .busy 0 0 s
      else if s.stg.active = b && !s.stg.noPlan then switchResult .ok 0 0 s
      else if structuralSwitch (activePlan s) p then { s with stg := { s.stg with switching := .intermission } }
      else commitPlan p 1 0 s

/-- PLAN_CHECK_COMPLETE (R393). -/
def execPlanCheckComplete (s : State) : Host.Outcome State Fault Refusal := run planChecked s

/-- A tile takes the pool and split of its position: at once, or at its release while a run occupies it (R393). -/
def reconfigure (p : Plan) (y : Tile) : Tile :=
  match y.position with
  | none => y
  | some q =>
    let pool := (p.poolOf[q]?).getD 0
    let split := bit p.split q
    if y.pool = pool ∧ y.split = split then { y with next := none }
    else if y.busy = 0 ∨ y.state = .retired then { y with pool := pool, split := split, next := none, cached := [], cachedB := [] }
    else { y with next := some (pool, split) }

/-- Seats that were not dispatched before a structural switch are served by the table that it brings in; one dispatched
before it, a rerun included, is not affected (R24, R393). -/
def servePools (s : State) : State :=
  let serve (x : Seat) : Seat :=
    if (x.phase = .waiting || x.phase = .granted) && x.run = 0 then
      { x with pool := (planEntry s x.entry.opc x.entry.ps).map OpEntry.pool }
    else x
  { s with seats := s.seats.mapRows fun _ x => serve x }

/-- The intermission ends after `us` µs: the new structural fields and the pointer take effect. Entries of the expansion
cache are evicted where a boundary moves. -/
def endIntermission (us : Nat) (s : State) : State :=
  if s.stg.switching != .intermission then s
  else match bankOf s s.stg.target with
    | none => s
    | some p =>
      let moved := match activePlan s with
        | none => true
        | some q => q.wingsPages != p.wingsPages || q.pinPages != p.pinPages
      let s := { s with til := { s.til with tiles := s.til.tiles.map (reconfigure p) } }
      let s := if moved then { s with keys := { s.keys with cache := [] } } else s
      servePools (bump Ctr.intermissions 1 (bumpMax Ctr.interMax us (commitPlan p 2 us s)))

/-- INTERMISSION_END (R393). -/
def execIntermissionEnd (us : Nat) (s : State) : Host.Outcome State Fault Refusal := run (endIntermission us) s

/-! ### SCENE_CHANGE (R354) -/

/-- The seats that still run an image that is not, or will not be, resident. -/
def retainedSeats (s : State) (b : Bool) : List Seat := (s.seats.filter fun x => boundToOld s b x.2).map Prod.snd

/-- Words of the footprints to be retained, each footprint once (R354). -/
def retainedWords (s : State) (b : Bool) : Nat :=
  let fs := (retainedSeats s b).filterMap fun x => (runHeader s x).map Header.footprint
  sumOf ((fs.eraseDups).map fun f => sumOf (f.map Prod.snd))

/-- The new images are resident once the old footprints fit into the retention area. -/
def changeScene (s : State) : State :=
  match s.scr.sceneChange, activePlan s with
  | true, some p =>
    let n := match s.scr.retainBank with | some b => retainedWords s b | none => 0
    if 16384 < n then s
    else
      let s := { s with scr := { s.scr with
        maker := some p.maker, customer := p.customer, sceneChange := false, retain := n,
        retainBank := if n = 0 then none else s.scr.retainBank } }
      s
  | _, _ => s

/-- SCENE_CHANGE (R354). -/
def execSceneChange (s : State) : Host.Outcome State Fault Refusal := run changeScene s

/-! ### The overlay (R396) -/

/-- STG_OVERLAY_VFDENY[n] takes a value. -/
def writeDeny (n v : Nat) (s : State) : State :=
  if n < 64 then { s with stg := { s.stg with deny := s.stg.deny.put n (v % 2 ^ 64) } } else s

/-- STG_OVERLAY_VFDENY_WRITE (R396). -/
def execStgOverlayVfdenyWrite (n : Nat) (value : BitVec 64) (s : State) : Host.Outcome State Fault Refusal :=
  run (if n < 64 then pfGuarded (0x380200 + 8 * n) (writeDeny n value.toNat) else id) s

/-- STG_OVERLAY_VFMAX takes a value, at once or when VF Enable next becomes 0. -/
def writeVfMax (v : Nat) (s : State) : State :=
  let m := v % 8192
  { s with stg := { s.stg with overlayMaxNext := m, overlayMax := if s.pcie.vfEnable then s.stg.overlayMax else m } }

/-- STG_OVERLAY_VFMAX_WRITE (R396). -/
def execStgOverlayVfmaxWrite (value : Nat) (s : State) : Host.Outcome State Fault Refusal :=
  run (pfGuarded 0x3801A0 (writeVfMax value)) s

/-! ### Customer script keys (R352) -/

/-- A bank's plan carries a customer image signed with a key slot. -/
def keyInUse (s : State) (slot : Nat) : Bool :=
  [s.stg.bankA, s.stg.bankB].any fun b => match b with
    | some p => p.keySlot = some slot
    | none => false

/-- OP_SCRIPT_ENROLL: SHA3-256 of the key. -/
def scriptEnroll (s : State) (x : Seat) (input : Bytes) : Outcome :=
  let e := x.entry
  let mode := e.arg 0
  let slot := e.arg 1
  let d := digestOf 0x0612 input 32
  let held := ((s.scr.keys[slot]?).getD none).isSome
  if 1 < mode then ended .invalidInput 0
  else if !x.approval then ended .auth 0
  else if mode = 0 && held then ended .busy 0
  else if mode = 1 && keyInUse s slot then ended .busy 0
  else if 1 < slot then ended .invalidInput 0
  else if mode = 0 then done d 0 [.scriptKey slot (some d)]
  else done [] 0 [.scriptKey slot none]

/-- OP_SCRIPT_ENROLL (R352). -/
def execOpScriptEnroll (k : Nat) (s : State) : Host.Outcome State Fault Refusal := run (compute k 0x032 scriptEnroll) s

/-- The key slot changes at the commit instant (R352). -/
def applyScriptKey (slot : Nat) (digest : Option Bytes) (s : State) : State :=
  { s with scr := { s.scr with keys := updAt s.scr.keys slot fun _ => digest } }

end Sys2Proof.Machine
end

