-- ==== Sys2Proof/Machine/TwinLink.lean ====
section
/-! DEFINITION. The twin link (R398 to R420): the handshake, what a session starts with, the records that the peer sends,
adoption and unpairing. What releases a waiting hold stands in TwinRows. -/

namespace Sys2Proof.Machine

/-! ### Who is at the other end -/

/-- The seat that runs OP_TWIN_PAIR or OP_TWIN_RESTORE. -/
def askerSeat (s : State) : Option (Nat × Seat) :=
  match s.twn.asker with
  | none => none
  | some k => match s.seats.get? k with
    | none => none
    | some x => if (computing x 0x050 || computing x 0x052) && x.outcome.isNone then some (k, x) else none

/-- A pairing is under way: its MODE. -/
def pairingMode (s : State) : Option Nat :=
  match askerSeat s with
  | some (_, x) => if x.entry.opc = 0x050 then some (x.entry.arg 0) else none
  | none => none

/-- OP_TWIN_RESTORE is under way. -/
def restoring (s : State) : Bool := match askerSeat s with | some (_, x) => x.entry.opc = 0x052 | none => false

/-- The serial number that the other device must have: PEER_SERIAL of the opcode, or the pairing record's. -/
def expectedPeer (s : State) : Option (BitVec 64) :=
  match askerSeat s with
  | some (_, x) => some (BitVec.ofNat 64 (x.entry.argN 8 8))
  | none => s.twn.record.map Pairing.peer

/-- A handshake may start: the link is up and permitted, an instance serves (R513, note 11), and there is a peer to expect;
the wiped device does not rejoin on its own (R417). -/
def mayHandshake (s : State) : Bool :=
  s.twn.linkUp && s.twn.enable && seeded s && (expectedPeer s).isSome
    && ((askerSeat s).isSome || (match s.twn.record with | some r => r.secret.isSome | none => false))

/-- The device with the lower serial number initiates (R402). -/
def initiates (s : State) : Bool := match expectedPeer s with | some p => s.otp.serial.ult p | none => false

/-- PAIR_ID of the record; 0 at pairing and at restore. -/
def ownPairId (s : State) : BitVec 64 :=
  if (askerSeat s).isSome then 0 else match s.twn.record with | some r => r.pairId | none => 0

/-! ### The handshake (R402) -/

def helloBytes (m : TwinHello) : Bytes := leBytes 8 m.serial.toNat ++ leBytes 8 m.pairId.toNat ++ m.nonce ++ m.shares
def replyBytes (m : TwinReply) : Bytes := leBytes 8 m.serial.toNat ++ m.nonce ++ m.shares
def authBytes (m : TwinAuth) : Bytes := m.chains ++ m.signatures

/-- TH over the messages so far. -/
def transcript (h : TwinHello) (r : TwinReply) (a : Option TwinAuth) : Bytes :=
  digestOf 0x0612 (helloBytes h ++ replyBytes r ++ (match a with | some m => authBytes m | none => [])) 32

/-- PARAM_SETs of the handshake's X448 and ML-KEM-1024 (R402). -/
def twinX448 : Nat := 0x0514
def twinMlKem : Nat := 0x0003

/-- The initiator's shares: an X448 public value and an ML-KEM-1024 encapsulation key, of its scalar and seeds. -/
def helloShares (eph : Bytes) : Bytes := xPublic twinX448 (eph.take 56) ++ mlKemEk twinMlKem 0 (eph.drop 56)

/-- The responder's shares and ss_mlkem ‖ ss_x448, of its scalar and message, for those of a HELLO. -/
def replyShares (eph theirs : Bytes) : Bytes × Bytes :=
  let c := mlKemEncapsulate twinMlKem (theirs.drop 56) (eph.drop 56)
  (xPublic twinX448 (eph.take 56) ++ c.1, c.2 ++ xMul twinX448 (eph.take 56) (theirs.take 56))

/-- What the initiator makes of the shares of a REPLY. -/
def agreedShares (eph theirs : Bytes) : Bytes :=
  mlKemDecapsulate twinMlKem 0 (eph.drop 56) (theirs.drop 56) ++ xMul twinX448 (eph.take 56) (theirs.take 56)

/-- A→B ‖ B→A ‖ PS′ over a transcript (R402). -/
def sessionKeys (agreed ps th : Bytes) : Bytes := kmac256 (agreed ++ ps) th "CHROELLE-TWIN" 96

/-- The initiator sends HELLO, where a handshake may start. -/
def sendHello (rekey : Bool) (s : State) : State :=
  if !mayHandshake s || !initiates s || s.twn.handshake != .idle then s
  else match drawBytes 152 s with
    | none => s
    | some (b, s) =>
      let m : TwinHello :=
        { serial := s.otp.serial, pairId := ownPairId s, nonce := b.take 32, shares := helloShares (b.drop 32) }
      emit (.twinHello m)
        { s with twn := { s.twn with handshake := .sentHello, hello := some m, rekeying := rekey, ephemeral := b.drop 32 } }

/-- The handshake is over; the session, if any, goes on (R402). -/
def endHandshake (s : State) : State :=
  { s with twn := { s.twn with handshake := .idle, hello := none, reply := none, auth := none, rekeying := false,
                               ephemeral := [], agreed := [] } }

/-- A pairing or restore that ends without success (R400, R417). -/
def failAsker (st : Status) (s : State) : State :=
  match askerSeat s with
  | none => if s.twn.state = .pairing then unpair s else endHandshake s
  | some (k, _) =>
    let s := finishSeat (ended st 0) s k
    let s := if s.twn.state = .pairing then unpair s else endSession s
    { s with twn := { s.twn with asker := none } }

/-- What this device claims of every partition (R414). A device that pairs or restores claims none. -/
def claims (s : State) : List (Nat × Bool × Nat × Bool) :=
  if (askerSeat s).isSome then []
  else (List.range (Config.vfTotal + 1)).map fun f =>
    let h := homeOf s f
    (f, !h.twin, h.term, !h.twin && changedApart s f)

/-- AUTH_I or AUTH_R over a transcript (R402, R419). -/
def ownAuth (th : Bytes) (s : State) : TwinAuth :=
  { chains := chains, signatures := Config.prim .attestSig [tag s.otp.serial.toNat, th, Config.freeBytes s.free 88] 4723,
    lcState := (lc s).code, claims := claims s, streamCkpt := s.twn.streamCkpt, planSync := s.twn.planSync,
    contextKey := if s.twn.streamCkpt then contextKey s else [] }

/-- Chains and signatures of a peer verify over a transcript. -/
def authOk (th : Bytes) (m : TwinAuth) : Bool :=
  Config.primHolds .chainOk [m.chains] && Config.primHolds .twinSigOk [th, m.chains, m.signatures]

/-- A HELLO that this device answers: as the responder, from the peer it expects, with the record's PAIR_ID, or with 0 at
pairing and at restore. -/
def helloFits (s : State) (m : TwinHello) : Bool :=
  match s.twn.record with
  | none => m.pairId = 0
  | some r => m.pairId = r.pairId || m.pairId = 0

/-- HELLO arrives. -/
def receiveHello (m : TwinHello) (s : State) : State :=
  if !mayHandshake s || initiates s then s
  else if expectedPeer s != some m.serial then (if (askerSeat s).isSome then failAsker .auth s else s)
  else if !helloFits s m then s
  else match drawBytes 120 s with
    | none => s
    | some (b, s) =>
      let p := replyShares (b.drop 32) m.shares
      let r : TwinReply := { serial := s.otp.serial, nonce := b.take 32, shares := p.1 }
      emit (.twinReply r)
        { s with twn := { s.twn with handshake := .sentReply, hello := some m, reply := some r, rekeying := sharing s,
                                     agreed := p.2 } }

/-- HELLO (R402). -/
def execHello (m : TwinHello) (s : State) : Host.Outcome State Fault Refusal := run (receiveHello m) s

/-- REPLY arrives. -/
def receiveReply (m : TwinReply) (s : State) : State :=
  match s.twn.handshake, s.twn.hello with
  | .sentHello, some h =>
    if expectedPeer s != some m.serial then failAsker .auth s
    else
      let a := ownAuth (transcript h m none) s
      let s := spend s
      emit (.twinAuth a) { s with twn := { s.twn with handshake := .sentAuthI, reply := some m, auth := some a,
                                                      agreed := agreedShares s.twn.ephemeral m.shares } }
  | _, _ => s

/-- REPLY (R402). -/
def execReply (m : TwinReply) (s : State) : Host.Outcome State Fault Refusal := run (receiveReply m) s

/-! ### What a session starts with (R401, R414 to R417) -/

/-- One message of a copy: it carries sequence number 0, so that only the closing message moves the peer's count. -/
def copySlot (s : State) (i : Nat) : JournalMessage := .slotCommit 0 (slotImage s i)

/-- The tenant-table entry of a function as it crosses the link. -/
def tenantMessage (s : State) (q f : Nat) : JournalMessage :=
  let t := s.ten.table.get? f
  .tenant q f t.isSome (match t with | some e => e.bytes | none => zeros 24) (!(homeOf s f).twin) (homeOf s f).term

/-- The partitions that this device homes, entry by entry (R401, R416): the functions with a tenant-table entry or a key,
slots with their material, the state of stateful keys, and the curve table. -/
def fullCopy (s : State) : List JournalMessage :=
  let home (f : Nat) : Bool := !(homeOf s f).twin
  let slots := s.keys.slots.filter fun x => home x.2.owner
  let stateful := s.keys.stateful.filter fun x => slots.any fun y => y.1 = x.1
  ((Tab.keys s.ten.table).filter home).map (tenantMessage s 0)
    ++ slots.map (fun x => copySlot s x.1)
    ++ stateful.map (fun x => .compact 0 (BitVec.ofNat 32 (handleAt s x.1)) x.2.nextBlock x.2.forfeited)
    ++ s.keys.curves.map (fun x => .curve 0 x.1 x.2)

/-- The partition-erase counts of a pairing: one message for each erase (R401). -/
def eraseCopy (s : State) : List JournalMessage :=
  s.ten.eraseCount.flatMap fun x => List.replicate x.2 (.partitionErase 0 x.1)

/-- Messages are queued on the journal channel, and the closing one behind them. -/
def sendAll (ms : List JournalMessage) (s : State) : State :=
  pumpJournal { s with twn := { s.twn with journalQueue := s.twn.journalQueue ++ ms ++ [.resendDone s.keys.seq] } }

/-- Partitions counted by OP_TWIN_PAIR: those with a tenant-table entry, and the PF's. -/
def partitionCount (s : State) : Nat := (Tab.keys s.ten.table).length + 1

/-- The output of a pairing or restore (R400). -/
def pairOutput (s : State) (n : Nat) : Bytes :=
  leBytes 8 (match s.twn.record with | some r => r.pairId.toNat | none => 0) ++ leBytes 4 n ++ zeros 4

/-- Every partition is homed at the twin, as on a joiner and on a restored device (R401, R417). -/
def allMirror : Tab Home :=
  (List.range (Config.vfTotal + 1)).map fun f => (f, { twin := true, term := 0, adopted := false })

/-- PS of the handshake: the record's, or at pairing and at restore 32 zero bytes. -/
def pairingSecret (s : State) (fresh : Bool) : Bytes :=
  if fresh then zeros 32 else match s.twn.record with | some r => r.secret.getD (zeros 32) | none => zeros 32

/-- The keys of this handshake over its transcript. -/
def handshakeKeys (s : State) (fresh : Bool) (th : Bytes) : Bytes := sessionKeys s.twn.agreed (pairingSecret s fresh) th

/-- The session keys take the place of the old ones: A→B is the initiator's (R402). -/
def placeKeys (keys : Bytes) (s : State) : State :=
  let a := keys.take 32
  let b := slice keys 32 32
  { s with twn := { s.twn with keyOut := if initiates s then a else b, keyIn := if initiates s then b else a } }

/-- The new record of a pairing or restore, with PS′ as PS: PAIR_ID is made from the handshake, and no rule says how. -/
def newRecord (ps : Bytes) (s : State) : State :=
  let th := match s.twn.hello, s.twn.reply with
    | some h, some r => transcript h r none
    | _, _ => []
  let id := BitVec.ofNat 64 (leNat (Config.prim .twinMsg [tag 2, th] 8))
  let peer := match expectedPeer s with | some p => p | none => 0
  { s with twn := { s.twn with record := some { peer := peer, pairId := id, secret := some ps } } }

/-- The keys of a session are in place: fresh channels, and what AUTH told of the peer. -/
def openSession (m : TwinAuth) (keys : Bytes) (s : State) : State :=
  let s := placeKeys keys (endSession s)
  { s with twn := { s.twn with
      session := true, fctrRx := 0, framesTx := 0, peerState := m.lcState, peerStreamCkpt := m.streamCkpt,
      peerPlanSync := m.planSync,
      peerContext := if s.twn.streamCkpt && m.streamCkpt then m.contextKey else s.twn.peerContext } }

/-- The pairing's session starts: the seed copies everything, and the joiner holds mirrors only (R401). -/
def startPairing (m : TwinAuth) (mode : Nat) (keys : Bytes) (s : State) : State :=
  let s := openSession m keys (newRecord (keys.drop 64) s)
  if mode = 0 then
    sendAll (eraseCopy s ++ fullCopy s) { s with keys := { s.keys with log := [], ackedSeq := s.keys.seq } }
  else { s with ten := { s.ten with homes := allMirror, eraseCount := [] } }

/-- The restored device's session starts. Each partition must be homed at the survivor; otherwise nothing is copied
(R417). -/
def startRestore (m : TwinAuth) (keys : Bytes) (s : State) : State :=
  if m.claims.any fun c => !c.2.1 then failAsker .busy s
  else
    let s := openSession m keys (newRecord (keys.drop 64) s)
    { s with twn := { s.twn with state := .resending },
             ten := { s.ten with homes := allMirror, eraseCount := [], table := [] },
             keys := { s.keys with curves := [], log := [], ackedSeq := s.keys.seq } }

/-- The survivor of a restore copies everything, unless a partition is still homed at the wiped device. -/
def startSurvivor (m : TwinAuth) (keys : Bytes) (s : State) : State :=
  if mirrorFunctions s != [] then endSession s
  else
    let s := openSession m keys (newRecord (keys.drop 64) s)
    sendAll (eraseCopy s ++ fullCopy s)
      { s with twn := { s.twn with state := .resending }, keys := { s.keys with log := [], ackedSeq := s.keys.seq } }

/-! ### Rejoin (R414 to R416) -/

/-- What comes of one partition: none where it diverged, otherwise whether it is homed at the twin, and its HOME_TERM. When one
side only claims it, that side is its home. -/
def reconcile (s : State) (c : Nat × Bool × Nat × Bool) : Option (Bool × Nat) :=
  let (f, theirs, term, changed) := c
  let h := homeOf s f
  if theirs != !h.twin then some (theirs, Nat.max term h.term)
  else if !theirs then none
  else if h.term < term then (if changedApart s f then none else some (true, term))
  else if term < h.term then (if changed then none else some (false, h.term))
  else none

/-- The functions that have diverged. -/
def divergedFunctions (s : State) (m : TwinAuth) : List Nat :=
  (m.claims.filter fun c => (reconcile s c).isNone).map Prod.fst

/-- This device becomes the mirror of a partition: its slots are mirror slots, and its in-block positions are discarded
(R180, R414). -/
def becomeMirror (f term : Nat) (s : State) : State :=
  let owned := Tab.keys (slotsOf s f)
  { s with
    ten := { s.ten with homes := s.ten.homes.put f { twin := true, term := term, adopted := false } },
    keys := { s.keys with
      slots := s.keys.slots.mapRows (fun _ x => if x.occupied && x.owner = f then { x with mirror := true } else x),
      stateful := s.keys.stateful.mapRows (fun i x => if owned.contains i then x.discard x.remaining else x) },
    twn := { s.twn with yielding := s.twn.yielding.filter fun g => g != f } }

/-- The outcome of the comparison for one partition. -/
def settleHome (s : State) (c : Nat × Bool × Nat × Bool) : State :=
  match reconcile s c with
  | none => s
  | some (twin, term) =>
    let h := homeOf s c.1
    if twin && !h.twin then becomeMirror c.1 term s
    else if twin = h.twin ∧ term = h.term then s
    else { s with ten := { s.ten with homes := s.ten.homes.put c.1 { h with twin := twin, term := term } } }

/-- A record of the log concerns a partition that this device homes, or none. -/
def ownRecord (s : State) (m : JournalMessage) : Bool :=
  match messageFunction s m with
  | some f => !(homeOf s f).twin
  | none => true

/-- What a rejoin resends: the records that the peer lacks, or everything when the journal no longer holds them (R416). -/
def resendList (s : State) : List JournalMessage :=
  match s.keys.log with
  | [] => []
  | (h, _) :: _ =>
    if overwritten s h then fullCopy s else (s.keys.log.map Prod.snd).filter (ownRecord s)

/-- A rejoin's session starts: it stops at the first divergence, or resends (R414, R415). -/
def startRejoin (m : TwinAuth) (keys : Bytes) (s : State) : State :=
  let bad := divergedFunctions s m
  if bad != [] then
    let s := openSession m keys s
    let fresh := s.twn.state != .diverged || s.twn.diverged != bad
    let s := { s with twn := { s.twn with state := .diverged, diverged := bad } }
    if fresh then event 0x0904 2 deviceWide (leBytes 4 bad.length) s else s
  else
    let s := openSession m keys (m.claims.foldl settleHome s)
    let s := { s with twn := { s.twn with state := .resending, diverged := [] } }
    let ms := resendList s
    sendAll ms { s with keys := { s.keys with log := s.keys.log.filter fun r => ownRecord s r.2 } }

/-- The handshake succeeded: new keys for the session that runs, or the session of a pairing, a restore or a rejoin. TH of the
keys is that which AUTH_R signs (DESIGN CHOICE, assumption log 127). -/
def establish (m : TwinAuth) (th : Bytes) (s : State) : State :=
  let old := handshakeKeys s false th
  let new := handshakeKeys s true th
  if s.twn.rekeying then
    let s := endHandshake (placeKeys old s)
    { s with twn := { s.twn with framesTx := 0, fctrRx := 0 } }
  else match pairingMode s with
    | some mode => if m.lcState != (lc s).code then failAsker .auth s else startPairing m mode new s
    | none =>
      if restoring s then (if m.lcState != (lc s).code then failAsker .auth s else startRestore m new s)
      else if m.claims = [] then (if m.lcState != (lc s).code then endHandshake s else startSurvivor m new s)
      else startRejoin m old s

/-- AUTH_I arrives: the responder verifies it, answers, and its side of the session is up. -/
def receiveAuthI (m : TwinAuth) (s : State) : State :=
  match s.twn.handshake, s.twn.hello, s.twn.reply with
  | .sentReply, some h, some r =>
    if !authOk (transcript h r none) m then failAsker .auth s
    else
      let th := transcript h r (some m)
      let a := ownAuth th s
      establish m th (emit (.twinAuth a) (spend s))
  | _, _, _ => s

/-- AUTH_I (R402). -/
def execAuthI (m : TwinAuth) (s : State) : Host.Outcome State Fault Refusal := run (receiveAuthI m) s

/-- AUTH_R arrives. -/
def receiveAuthR (m : TwinAuth) (s : State) : State :=
  match s.twn.handshake, s.twn.hello, s.twn.reply with
  | .sentAuthI, some h, some r =>
    let th := transcript h r s.twn.auth
    if !authOk th m then failAsker .auth s else establish m th s
  | _, _, _ => s

/-- AUTH_R (R402). -/
def execAuthR (m : TwinAuth) (s : State) : Host.Outcome State Fault Refusal := run (receiveAuthR m) s

/-- A handshake does not complete within 10 ms. A pairing whose request has not been answered yet tries again until its own
10 s are over (R400, R402). -/
def handshakeExpires (s : State) : State :=
  if s.twn.handshake = .idle then s
  else if s.twn.handshake = .sentHello && (askerSeat s).isSome then sendHello false (endHandshake s)
  else failAsker .auth s

/-- HANDSHAKE_TIMEOUT (R402). -/
def execHandshakeTimeout (s : State) : Host.Outcome State Fault Refusal := run handshakeExpires s

/-- New keys every 2^32 frames and every hour (R402); deferred while no instance serves (R513, note 11). -/
def execRekey (s : State) : Host.Outcome State Fault Refusal :=
  run (fun s => if sharing s then sendHello true s else s) s

/-- LINK_TRAINED (R398, R414). -/
def execLinkTrained (s : State) : Host.Outcome State Fault Refusal :=
  run (fun s => if !s.twn.enable then s else
    let s := { s with twn := { s.twn with linkUp := true } }
    if s.twn.session then s else sendHello false s) s

/-- LINK_LOSS (R399). -/
def execLinkLoss (s : State) : Host.Outcome State Fault Refusal :=
  run (fun s => { s with twn := { s.twn with linkUp := false } }) s

/-- A rejoin that divergence blocks is tried again every 10 ms (R415), and so is one that found no session. -/
def execRejoinRetry (s : State) : Host.Outcome State Fault Refusal :=
  run (fun s =>
    if s.twn.state = .diverged then sendHello false s
    else if s.twn.session then s
    else sendHello false s) s

/-- JOIN_WAIT_EXPIRY (R412). -/
def execJoinWaitExpiry (s : State) : Host.Outcome State Fault Refusal :=
  run (fun s => { s with twn := { s.twn with joinUntil := 0 } }) s

/-! ### Frames received and sent (R404, R405, R407) -/

/-- The header of a frame: channel, FIRST and LAST, payload bytes, sequence number and frame counter (R404). -/
structure FrameHead where
  channel : Nat
  first : Bool
  last : Bool
  len : Nat
  cseq : Nat
  fctr : Nat
  deriving DecidableEq, Repr

/-- Its 16 bytes. -/
def FrameHead.bytes (h : FrameHead) : Bytes :=
  [byte h.channel, byte (fld (bnat h.first) 0 + fld (bnat h.last) 1)] ++ leBytes 2 h.len ++ leBytes 4 h.cseq ++ leBytes 8 h.fctr

/-- The nonce: the direction, then FCTR. -/
def frameNonce (initiator : Bool) (fctr : Nat) : Bytes := leBytes 4 (if initiator then 0 else 1) ++ leBytes 8 fctr

/-- A frame on the link: its header as associated data, its payload encrypted, and the tag. -/
def sealFrame (key : Bytes) (initiator : Bool) (h : FrameHead) (payload : Bytes) : Bytes :=
  h.bytes ++ gcmSeal key (frameNonce initiator h.fctr) h.bytes payload

/-- The checks of a received frame, in the terms of its operand: tag, length and reserved bits (R405). -/
def frameChecks (key : Bytes) (initiator : Bool) (b : Bytes) : Frame :=
  { tagOk := (gcmOpen key (frameNonce initiator (leAt b 8 8)) (b.take 16) (b.drop 16)).isSome,
    lenOk := leAt b 2 2 + 32 = b.length, reservedOk := leAt b 0 1 ≤ 3 && leAt b 1 1 < 4, cseq := leAt b 4 4,
    fctr := leAt b 8 8 }

/-- A frame that this device sends under the session's keys. -/
def ownFrame (s : State) (h : FrameHead) (payload : Bytes) : Bytes := sealFrame s.twn.keyOut (initiates s) h payload

/-- A frame passes its checks and is accepted, or is dropped and counted. The answer's flag says that 64 drops for the tag ended
the session. -/
def takeFrame (f : Frame) (s : State) : Bool × Bool × State :=
  if !s.twn.session || !s.twn.linkUp then (false, false, s)
  else if !f.tagOk || !f.lenOk || !f.reservedOk || f.fctr ≤ s.twn.fctrRx then
    let n := if f.tagOk then 0 else s.twn.tagFails + 1
    let s := bump Ctr.dropped 1 { s with twn := { s.twn with tagFails := n } }
    (false, 64 ≤ n, s)
  else (true, false, bump Ctr.framesRx 1 { s with twn := { s.twn with fctrRx := f.fctr, tagFails := 0 } })

/-- Frames that leave without a channel's queue. -/
def countFrames (n : Nat) (s : State) : State :=
  bump Ctr.framesTx n { s with twn := { s.twn with framesTx := s.twn.framesTx + n } }

/-- The heartbeat that this device sends (R407). -/
def ownHeartbeat (s : State) : Heartbeat :=
  { journalSeq := s.keys.seq, appliedSeq := s.twn.appliedSeq, ackJournal := s.twn.journal.recvSeq,
    ackCheckpoint := s.twn.checkpoint.recvSeq, lcState := (lc s).code, curtainDown := s.tmp.curtainDown }

/-- HEARTBEAT_SEND (R407). -/
def execHeartbeatSend (s : State) : Host.Outcome State Fault Refusal :=
  run (fun s => if s.twn.session && s.twn.linkUp then emit (.twinHeartbeat (ownHeartbeat s)) (countFrames 1 s) else s) s

/-- 20 µs without an acknowledgement: every unacknowledged frame of the channel is sent again (R405). -/
def resend (journal : Bool) (s : State) : State :=
  let n := (if journal then s.twn.journal else s.twn.checkpoint).unacked
  if s.twn.session && s.twn.linkUp && n != 0 then bump Ctr.resent n (emit (.twinResend journal n) (countFrames n s)) else s

/-- RESEND_TIMEOUT (R405). -/
def execResendTimeout (journal : Bool) (s : State) : Host.Outcome State Fault Refusal := run (resend journal) s

/-- CHECKPOINT_SNAPSHOT (R418). -/
def execCheckpointSnapshot (s : State) : Host.Outcome State Fault Refusal :=
  run (fun s => if s.box.running then sendCheckpoint (.snapshot s.box.epoch (pageCounters s)) s else s) s

/-! ### The twin's records applied here (R406, R408) -/

/-- What a mirrored slot loses before it is written again: its pin, its reservations and its cached expansion. -/
def clearSlot (i : Nat) (s : State) : State :=
  let s := endPin i s
  { s with keys := { s.keys with stateful := s.keys.stateful.del i, cache := s.keys.cache.del i } }

/-- The directory entry of a mirrored slot in a run of `n` units from `u`. -/
def imageEntry (m : SlotImage) (u n : Nat) : Nat :=
  let y := emptySlot m.generation m.owner 0 0
  if !m.occupied then directory y 0
  else directory { y with family := m.family, paramSet := m.paramSet, form := m.form, usage := m.usage, origin := m.origin,
                          exportable := m.exportable, mirror := true, occupied := true, unitCount := n } u

/-- A slot commit of the twin: a mirror slot with its material in a run of its own. -/
def applySlot (m : SlotImage) (s : State) : State :=
  let s := clearSlot m.index s
  let s := { s with keys := { s.keys with slots := s.keys.slots.del m.index } }
  let n := m.units
  let u := (findRun s n).getD s.keys.unitNext
  let s := writeRecord (.slotCommit m.index (imageEntry m u n)) s
  if !m.occupied then
    { s with keys := { s.keys with
        slots := s.keys.slots.put m.index (emptySlot m.generation m.owner s.keys.seq s.keys.written),
        written := s.keys.written + 1 } }
  else
    let x : Slot :=
      { gen := m.generation, owner := m.owner, family := m.family, paramSet := m.paramSet, form := m.form,
        usage := m.usage, origin := m.origin, exportable := m.exportable, mirror := true, occupied := true,
        firstUnit := u, unitCount := n, material := m.material, commitSeq := s.keys.seq, written := s.keys.written }
    { s with keys := { s.keys with
        slots := s.keys.slots.put m.index x, written := s.keys.written + 1,
        unitNext := (u + n) % Config.unitTotal,
        stateful := if isStatefulKey m.family m.form then s.keys.stateful.put m.index (freshStateful m.heights m.consts)
                    else s.keys.stateful } }

/-- A reservation of the twin: the block is used up here, and its checkpoint is held (R176, R180). -/
def applyReservation (i block forfeited : Nat) (checkpoint : Bytes) (s : State) : State :=
  match s.keys.stateful.get? i with
  | none => s
  | some _ =>
    let r := JournalRecord.reservation (handleAt s i) block forfeited checkpoint
    let h := recordHead r.size s
    let s := writeRecord r s
    let mark (z : Stateful) : Stateful :=
      { z with nextBlock := block + 1, forfeited := forfeited, reservations := block + 1, block := none, pos := 0,
               active := false, parked := false, checkpointAt := some h, recordAt := h, checkpoint := checkpoint }
    { s with keys := { s.keys with stateful := s.keys.stateful.upd i mark } }

/-- A compact record of the twin. -/
def applyCompact (i next forfeited : Nat) (s : State) : State :=
  let h := recordHead 32 s
  let s := writeRecord (.compact (handleAt s i) next forfeited 0) s
  let mark (z : Stateful) : Stateful :=
    { z with nextBlock := next, forfeited := forfeited,
             reservations := next, block := none, pos := 0,
             active := false, parked := false, recordAt := h }
  { s with keys := { s.keys with stateful := s.keys.stateful.upd i mark } }

/-- A partition erase of the twin. -/
def applyPeerErase (f : Nat) (s : State) : State :=
  let s := writeRecord (.partitionErase f) s
  let s := (slotsOf s f).foldl (fun t x => endKey x.1 s.keys.seq t) s
  { s with ten := { s.ten with eraseCount := s.ten.eraseCount.put f (s.ten.eraseCount.getD f 0 + 1) } }

/-- A stateful key moves to its adopter (R180): signing resumes at the next unreserved block, and what the former home had
left of its block is forfeited here too; no rule says how many leaves that was. -/
def adoptKey (s : State) (x : Stateful) : Stateful :=
  x.discard (if x.reservations = 0 then 0 else Config.choice s.free % (x.blockSize + 1))

/-- A partition becomes home here: HOME_TERM rises by 1, its slots are no mirrors, its stateful keys move, and its entry is
recorded (R409, R413). `apart`: the twin is absent. -/
def adopt (f : Nat) (apart : Bool) (s : State) : State :=
  let owned := Tab.keys (slotsOf s f)
  let term := ((homeOf s f).term + 1) % 65536
  let s := { s with
    ten := { s.ten with homes := s.ten.homes.put f { twin := false, term := term, adopted := apart } },
    keys := { s.keys with
      slots := s.keys.slots.mapRows (fun _ x => if x.occupied && x.owner = f then { x with mirror := false } else x),
      stateful := s.keys.stateful.mapRows (fun i x => if owned.contains i then adoptKey s x else x) } }
  writeTenantRecord f (event 0x0903 1 deviceWide (leBytes 2 f ++ leBytes 2 term) (spend s))

/-- Stateful keys of a function. -/
def statefulOf (s : State) (f : Nat) : Nat :=
  let owned := Tab.keys (slotsOf s f)
  (s.keys.stateful.filter fun x => owned.contains x.1).length

/-- The seat whose OP_TWIN_ADOPT waits for a present twin to yield function `f`. -/
def adoptWaits (s : State) (f : Nat) : Option Nat :=
  (s.seats.find? fun x => computing x.2 0x051 && x.2.staged = 1 && !x.2.entry.argBit 2 0
    && (x.2.entry.argN 0 2 = f || x.2.entry.argN 0 2 = 0xFFFF)).map Prod.fst

/-- Partitions and keys that an adoption counts, kept at its seat. -/
def countAdopted (k keys : Nat) (s : State) : State :=
  updSeat k (fun y => { y with chunks := leBytes 4 (leAt y.chunks 0 4 + 1) ++ leBytes 4 (leAt y.chunks 4 4 + keys) }) s

/-- A tenant-table entry of the twin, with its home claim. A twin that claims the partition no longer has yielded it: to the
adoption that waits here, or of its own (R413). -/
def applyTenant (f : Nat) (present : Bool) (quotas : Bytes) (theirs : Bool) (term : Nat) (s : State) : State :=
  let s := writeRecord (.tenant f (if present then quotas else [])) s
  let h := homeOf s f
  let s := { s with ten := { s.ten with
    table := if present then s.ten.table.put f (Tenant.ofBytes quotas) else s.ten.table.del f,
    homes := s.ten.homes.put f { twin := theirs || h.twin, term := term, adopted := h.adopted && !theirs } } }
  if theirs || !h.twin then s
  else match adoptWaits s f with
    | some k => countAdopted k (statefulOf s f) (adopt f false s)
    | none => { s with ten := { s.ten with homes := s.ten.homes.put f { twin := false, term := term, adopted := false } } }

/-- A load that waits for its acknowledgement gives way to the twin's: it will complete with E_BUSY. -/
def loseClash (s : State) (k : Nat) : State :=
  match s.seats.get? k with
  | none => s
  | some x =>
    updSeat k (fun y => { y with undo := Undo.none, outcome := y.outcome.map fun o => { ended .busy o.interval with rounds := o.rounds } })
      (undoHold x.undo s)

/-- A curve-table entry of the twin; when both load one slot at the same moment, the odd device's load ends with E_BUSY, and
the even device keeps its own (R410). -/
def applyPeerCurve (i : Nat) (r : Bytes) (s : State) : State :=
  let clash (p : Phase) := Tab.keys (s.seats.filter fun x =>
    x.2.phase = p && x.2.entry.opc = 0x040 && x.2.entry.arg 0 = i && r != [] && !x.2.entry.argBit 1 0)
  if !odd s && clash .held != [] then s
  else
    let s := if odd s then (clash .executing).foldl (finishSeat (ended .busy 0)) ((clash .held).foldl loseClash s) else s
    let s := writeRecord (.curve i r) s
    { s with keys := { s.keys with curves := if r = [] then s.keys.curves.del i else s.keys.curves.put i r } }

/-- An image of PLAN_SYNC: written into the same bank where that is possible, otherwise recorded (R406). -/
def applyPeerPlan (bank : Bool) (image : Bytes) (s : State) : State :=
  let p := planOf image
  let s' := setBank bank (some p) (emptyBank bank s)
  if !s.twn.planSync || loadRefused s bank || (planCheck s p).isSome then event 0x0804 1 deviceWide [byte (bnat bank)] s
  else s'

/-- The rejoin completes on this side: TWIN_ABSENT clears (R411, R412, R415). -/
def becomePresent (s : State) : State :=
  event 0x0902 0 deviceWide []
    { s with twn := { s.twn with state := .present, joinUntil := 0 },
             ten := { s.ten with homes := s.ten.homes.mapRows fun _ h => { h with adopted := false } } }

/-- The pairing or restore of the asker is complete. -/
def finishAsker (s : State) : State :=
  match askerSeat s with
  | none => s
  | some (k, _) =>
    let s := finishSeat (done (pairOutput s (partitionCount s)) 0 []) s k
    { s with twn := { s.twn with asker := none } }

/-- The peer has sent everything: a joiner and a restored device hold their mirrors. -/
def applyDone (s : State) : State :=
  if (s.twn.state = .pairing && mirrorFunctions s != []) || restoring s then becomePresent (finishAsker s) else s

/-- One message of the journal channel. -/
def applyMessage (m : JournalMessage) (s : State) : State :=
  let s := match m with
    | .slotCommit _ x => applySlot x s
    | .reservation _ h b f c => applyReservation (h.toNat % 65536) b f c s
    | .compact _ h b f => applyCompact (h.toNat % 65536) b f s
    | .partitionErase _ f => applyPeerErase f s
    | .tenant _ f p q t n => applyTenant f p q t n s
    | .curve _ i r => applyPeerCurve i r s
    | .resendDone _ => applyDone s
    | .plan b i => applyPeerPlan b i s
  { s with twn := { s.twn with appliedSeq := Nat.max s.twn.appliedSeq (messageSeq m) } }

/-- A record that this device has applied already (R416). -/
def alreadyApplied (s : State) (m : JournalMessage) : Bool :=
  match m with
  | .resendDone _ => false
  | .plan _ _ => false
  | _ => messageSeq m != 0 && messageSeq m ≤ s.twn.appliedSeq

/-- A frame of the journal channel in its turn; one out of turn waits to be sent again (R405). -/
def takeJournal (f : Frame) (m : JournalMessage) (s : State) : State :=
  if !sharing s || f.cseq != s.twn.journal.recvSeq then s
  else
    let s := { s with twn := { s.twn with journal := { s.twn.journal with recvSeq := s.twn.journal.recvSeq + 1 } } }
    if alreadyApplied s m then s else applyMessage m s

/-- A frame of the checkpoint channel in its turn (R418, R419). -/
def takeCheckpoint (f : Frame) (m : CheckpointMessage) (s : State) : State :=
  if !sharing s || f.cseq != s.twn.checkpoint.recvSeq then s
  else
    let s := { s with twn := { s.twn with checkpoint := { s.twn.checkpoint with recvSeq := s.twn.checkpoint.recvSeq + 1 } } }
    match m with
    | .frozenBank e c => writeTwinPage e c false s
    | .snapshot e c => { s with twn := { s.twn with snapshot := some (e, c) } }
    | .stream n t =>
      if s.twn.streamCkpt && s.twn.peerStreamCkpt then
        let l := s.twn.held ++ [(n, t)]
        { s with twn := { s.twn with held := l.drop (l.length - 16384) } }
      else s

/-! ### Acknowledgements (R405, R407, R408) -/

/-- A cumulative acknowledgement of a channel. -/
def Channel.acked (c : Channel) (n : Nat) : Channel :=
  if n ≤ c.sendSeq ∧ c.sendSeq ≤ n + c.unacked then { c with unacked := c.sendSeq - n } else c

/-- The peer has acknowledged everything sent. -/
def allAcked (s : State) : Bool := s.twn.journalQueue = [] && s.twn.journal.unacked = 0

/-- The records that the peer has applied leave the log. No rule counts the time an acknowledgement took: TWN_ACK_MAX takes a
free value (R420). -/
def ackRecords (n : Nat) (s : State) : State :=
  if n ≤ s.keys.ackedSeq ∨ s.keys.seq < n then s
  else
    spend (bumpMax Ctr.ackMax (Config.choice s.free)
      { s with keys := { s.keys with ackedSeq := n, log := s.keys.log.filter fun r => n < messageSeq r.2 },
               twn := { s.twn with peerApplied := n } })

/-- Operations that change a partition and run (R413). -/
def changesInFlight (s : State) (f : Nat) : Bool :=
  s.seats.any fun x => (x.2.phase = .executing || x.2.phase = .held) && changesPartition s x.2 = some f

/-- A yielded partition whose changes have committed and been acknowledged becomes mirror (R413). -/
def yieldPartition (s : State) (f : Nat) : State :=
  if changesInFlight s f || changedApart s f then s
  else writeTenantRecord f (becomeMirror f (homeOf s f).term s)

def finishYields (s : State) : State := s.twn.yielding.foldl yieldPartition s

/-- What the acknowledgements of a heartbeat complete: a pairing's copy, a rejoin, and yielded partitions. -/
def progress (s : State) : State :=
  let s := finishYields s
  if !allAcked s then s
  else if s.twn.state = .pairing && s.twn.session && mirrorFunctions s = [] then becomePresent (finishAsker s)
  else if s.twn.state = .resending && !restoring s then becomePresent s
  else s

/-- A heartbeat is taken in. -/
def takeHeartbeat (h : Heartbeat) (s : State) : State :=
  let s := { s with twn := { s.twn with
    peerState := h.lcState, peerCurtain := h.curtainDown, journal := s.twn.journal.acked h.ackJournal,
    checkpoint := s.twn.checkpoint.acked h.ackCheckpoint } }
  progress (pumpCheckpoint (pumpJournal (ackRecords h.appliedSeq s)))

/-- An adoption request: changes of the partition are dispatched no more, and it is yielded once those that run are through
(R413). -/
def takeAdoptRequest (f : Nat) (s : State) : State :=
  if !s.twn.session || (homeOf s f).twin || Config.vfTotal < f then s
  else finishYields { s with twn := { s.twn with yielding := insertSorted f s.twn.yielding } }

/-- TWIN_ADOPT_REQUEST (R413). -/
def execTwinAdoptRequest (fn : Nat) (s : State) : Host.Outcome State Fault Refusal := run (takeAdoptRequest fn) s

/-! ### OP_TWIN_PAIR (R400, R403) -/

/-- A seat names a mirror slot (R403). -/
def mirrorsNamed (s : State) : Bool :=
  s.seats.any fun x => x.2.open && (namedSlots x.2).any fun i => match s.keys.slots.get? i with
    | some y => y.occupied && y.mirror
    | none => false

/-- The key table, the tenant table and the curve table are empty. -/
def tablesEmpty (s : State) : Bool := slotsUsed s = 0 && s.ten.table = [] && s.keys.curves = []

/-- What OP_TWIN_PAIR is refused for before it starts, in the order of R400. Only a pairing needs an approval (R437);
assumption log 64. -/
def pairCheck (s : State) (x : Seat) : Option Status :=
  let mode := x.entry.arg 0
  if x.noEntropy then some .entropy
  else if strayHandle x then some .invalidInput
  else if mode ≤ 1 && !x.approval then some .auth
  else if !s.twn.enable || (mode ≤ 2 && s.twn.asker.isSome) || (mode ≤ 1 && paired s) || (mode = 2 && !paired s) then
    some .busy
  else if mode = 1 && !tablesEmpty s then some .busy
  else if 2 < mode then some .invalidInput
  else none

/-- A pairing starts; an unpairing waits for the seats that reference mirror slots, and ends at its commit instant. -/
def opTwinPair (k : Nat) (s : State) : State :=
  match s.seats.get? k with
  | none => s
  | some x =>
    if !computing x 0x050 || s.twn.asker = some k then s
    else match pairCheck s x with
      | some st => finishSeat (ended st 0) s k
      | none =>
        if x.entry.arg 0 = 2 then
          (if mirrorsNamed s then s else finishSeat (done (pairOutput s 0) 0 [.twinPair 2]) s k)
        else sendHello false { s with twn := { s.twn with asker := some k, state := .pairing } }

/-- OP_TWIN_PAIR (R400). -/
def execOpTwinPair (k : Nat) (s : State) : Host.Outcome State Fault Refusal := run (opTwinPair k) s

/-- The commit instant of an unpairing: the twin is told, and nothing of the pairing stays (R403). A pairing has nothing left
to do then. -/
def applyTwinPair (mode : Nat) (s : State) : Applied :=
  if mode = 2 then (.ok, [], unpair (if s.twn.session then emit .twinUnpair (countFrames 1 s) else s)) else (.ok, [], s)

/-- No matching request within 10 s (R400). -/
def pairingExpires (k : Nat) (s : State) : State :=
  if s.twn.asker = some k && !s.twn.session then failAsker .busy s else s

/-- PAIRING_TIMEOUT (R400). -/
def execPairingTimeout (k : Nat) (s : State) : Host.Outcome State Fault Refusal := run (pairingExpires k) s

/-! ### OP_TWIN_RESTORE (R417) -/

/-- OP_TWIN_RESTORE takes MODE 1 only (assumption log 42); its checks follow those of a joiner. -/
def restoreCheck (s : State) (x : Seat) : Option Status :=
  if x.noEntropy then some .entropy
  else if strayHandle x || x.entry.arg 0 != 1 then some .invalidInput
  else if !x.approval then some .auth
  else if !s.twn.enable || s.twn.asker.isSome || !paired s || slotsUsed s != 0 || s.twn.session then some .busy
  else if s.twn.record.map Pairing.peer != some (BitVec.ofNat 64 (x.entry.argN 8 8)) then some .auth
  else none

def opTwinRestore (k : Nat) (s : State) : State :=
  match s.seats.get? k with
  | none => s
  | some x =>
    if !computing x 0x052 || s.twn.asker = some k then s
    else match restoreCheck s x with
      | some st => finishSeat (ended st 0) s k
      | none => sendHello false { s with twn := { s.twn with asker := some k } }

/-- OP_TWIN_RESTORE (R417). -/
def execOpTwinRestore (k : Nat) (s : State) : Host.Outcome State Fault Refusal := run (opTwinRestore k) s

/-! ### OP_TWIN_ADOPT (R413) -/

/-- The partitions that an adoption names and that are homed at the twin. -/
def adoptTargets (s : State) (fn : Nat) : List Nat := (mirrorFunctions s).filter fun f => fn = 0xFFFF || fn = f

/-- An adoption while the twin is absent, at its commit instant; what a present twin yielded before it went was counted at
the seat, in `before`. -/
def applyAdopt (fn : Nat) (before : Bytes) (s : State) : Applied :=
  let fs := adoptTargets s fn
  let keys := sumOf (fs.map (statefulOf s))
  (.ok, leBytes 4 (leAt before 0 4 + fs.length) ++ leBytes 4 (leAt before 4 4 + keys),
    fs.foldl (fun t f => adopt f (twinAbsentLive s) t) s)

/-- A yield: the local copy is erased as R114 erases one, and the partition becomes mirror here. -/
def applyYield (f : Nat) (s : State) : Applied :=
  if Config.vfTotal < f ∨ (homeOf s f).twin then (.ok, zeros 8, s)
  else if !quiescing s f then (.busy, [], s)
  else
    let keys := statefulOf s f
    let s := event 0x0104 1 f [] (erasePartition f s)
    let s := (Tab.keys (streamsOf s f)).foldl (fun t i => closeStream i t) s
    let s := { s with ten := { s.ten with homes := s.ten.homes.put f { twin := true, term := (homeOf s f).term, adopted := false } } }
    (.ok, leBytes 4 1 ++ leBytes 4 keys, writeTenantRecord f s)

/-- The commit instant of OP_TWIN_ADOPT. -/
def applyTwinAdopt (fn : Nat) (yields : Bool) (before : Bytes) (s : State) : Applied :=
  if !paired s then (.invalidInput, [], s) else if yields then applyYield fn s else applyAdopt fn before s

/-- Not paired, or FUNCTION out of range. -/
def adoptInputBad (s : State) (x : Seat) : Bool :=
  let fn := x.entry.argN 0 2
  strayHandle x || !paired s || (Config.vfTotal < fn && fn != 0xFFFF)

/-- An adoption with the twin present asks it to yield each partition, and ends when all are home here; without the twin it
adopts at its commit instant. Given again while it waits, it looks again. -/
def opTwinAdopt (k : Nat) (s : State) : State :=
  match s.seats.get? k with
  | none => s
  | some x =>
    let fn := x.entry.argN 0 2
    if !computing x 0x051 then s
    else if adoptInputBad s x then finishSeat (ended .invalidInput 0) s k
    else if x.entry.argBit 2 0 then finishSeat (done [] 0 [.twinAdopt fn true]) s k
    else
      let left := adoptTargets s fn
      if twinAbsentLive s then finishSeat (done [] 0 [.twinAdopt fn false]) s k
      else if left = [] then finishSeat (done (padTo 8 x.chunks) 0 []) s k
      else if x.staged = 1 then s
      else
        let s := left.foldl (fun t f => emit (.twinAdopt f) (countFrames 1 t)) s
        updSeat k (fun y => { y with staged := 1, chunks := zeros 8 }) s

/-- OP_TWIN_ADOPT (R413). -/
def execOpTwinAdopt (k : Nat) (s : State) : Host.Outcome State Fault Refusal := run (opTwinAdopt k) s

end Sys2Proof.Machine
end

