-- ==== Sys2Proof/Machine/Commit.lean ====
section
/-! DEFINITION. The end of an interval: the comparison, the changes that an operation makes, the commit instant, mismatches
and reruns (R25 to R27, R315 to R319); the writer (R28 to R30, R79 to R84); and uncorrectable SRAM errors (R17, R18). -/

namespace Sys2Proof.Machine

/-! ### The changes of an operation (R27) -/

/-- A stream takes a free index, which no rule chooses, at its present generation; a new one takes the next SERIAL (R231,
R243). Its handle follows the output. -/
def applyOpenStream (t : Stream) (s : State) : Applied :=
  let free := (List.range Config.streamTotal).filter fun i => (s.dig.streams.get? i).isNone
  match pick s free with
  | none => (.streamLimit, [], s)
  | some i =>
    let serial := if t.serial = 0 then s.dig.serial + 1 else t.serial
    let next := if t.serial = 0 then s.dig.serial + 1 else s.dig.serial
    let s := { s with dig := { s.dig with streams := s.dig.streams.put i { t with serial := serial }, serial := next } }
    (.ok, leBytes 4 (handleFrom i (s.dig.gens.getD i 1)), spend s)

/-- A stream takes its new state; one whose context was lost meanwhile stays BROKEN (R18). -/
def applySetStream (i : Nat) (t : Stream) (s : State) : State :=
  let keep (old : Stream) : Stream := if old.state = .broken then { t with state := .broken } else t
  { s with dig := { s.dig with streams := s.dig.streams.upd i keep } }

/-- SERIAL and TAG of a suspended stream go to the twin (R419). -/
def shareSuspended (x : Seat) (out : Bytes) (s : State) : State :=
  if x.entry.opc = 0x604 && s.twn.streamCkpt && s.twn.peerStreamCkpt then
    sendCheckpoint (.stream (leAt out 8 8) (out.drop 408)) s
  else s

/-- A curve-table entry, with its record (R213, R410). A load into a slot that was filled meanwhile, and an unload of one that
is referenced by then, end with E_BUSY (R216). -/
def applyCurve (i : Nat) (r : Option Bytes) (s : State) : Applied :=
  if (match r with | some _ => (s.keys.curves.get? i).isSome | none => curveReferenced s i) then (.busy, [], s)
  else
    let curves := match r with | some b => s.keys.curves.put i b | none => s.keys.curves.del i
    (.ok, [],
      writeShared (.curve i (r.getD [])) (fun q => .curve q i (r.getD [])) { s with keys := { s.keys with curves := curves } })

/-- A pin or its end; the output gives the pages then in use and free (R195, R196). -/
def applyPin (x : Seat) (slot : Nat) (unpin : Bool) (s : State) : Applied :=
  let s := if unpin then endPin slot s
    else match pinTarget s x with
      | some (i, n) => { s with keys := { s.keys with pins := s.keys.pins.put i n } }
      | none => s
  (.ok, pinOutput s, s)

/-- One change of seat `k`: a status other than S_OK ends the operation with it. -/
def applyChange (k : Nat) (x : Seat) (o : Outcome) (c : Change) (s : State) : Applied :=
  match c with
  | .putKey target key => (match putKey target key s with
    | some (h, s) => (.ok, leBytes 4 h, s)
    | none => (.tableFull, [], s))
  | .destroyKey i => (.ok, [], destroyKey i s)
  | .openStream t => applyOpenStream t s
  | .setStream i t => (.ok, [], applySetStream i t s)
  | .closeStream i => (.ok, [], shareSuspended x o.out (closeStream i s))
  | .markErase f => applyErase f s
  | .pin i u => applyPin x i u s
  | .curve i r => applyCurve i r s
  | .curveRejected i n => (.ok, [], event 0x0401 1 0 [byte i, byte n] s)
  | .ringSetup b => applyRingSetup b s
  | .vfSetup b => applyVfSetup x.defaults b s
  | .unquiesce f => applyUnquiesce f s
  | .liveness b => (.ok, [], { s with keys := { s.keys with liveness := some b } })
  | .scriptKey i d => (.ok, [], applyScriptKey i d s)
  | .planLoad b i => applyPlanLoad k b i s
  | .logClear m => applyLogClear m s
  | .twinPair m => applyTwinPair m s
  | .twinAdopt f y => applyTwinAdopt f y x.chunks s
  | .challengeUsed =>
    let s := { s with lcs := { s.lcs with challenge := false } }
    (.ok, [], if o.status = .auth then event 0x0D03 2 deviceWide [2] s else s)

/-- The changes in their order, with the output that they add; the first that fails ends the operation. -/
def applyChanges (k : Nat) (x : Seat) (o : Outcome) : List Change → Bytes → State → Applied
  | [], out, s => (o.status, out, s)
  | c :: r, out, s =>
    match applyChange k x o c s with
    | (.ok, more, s) => applyChanges k x o r (out ++ more) s
    | (st, _, s) => (st, [], s)

/-! ### The commit instant (R26, R27, R116) -/

/-- The record of an operation that commits (R75). -/
def commitRecord (s : State) (k : Nat) (x : Seat) (o : Outcome) (held : Nat) : Record :=
  let t := execField (o.interval + held)
  { phase := false, batch := false, scale := t.1, status := o.status, userTag := x.entry.userTag, outLen := o.out.length,
    rounds := o.rounds, seatHint := k, epoch := s.box.epoch, units := chargeUnits x.header x.table x.entry.ps, exec := t.2 }

/-- An approval that seat `k` reserved is consumed (R441). -/
def commitApproval (k : Nat) (s : State) : State :=
  match s.tkb.approval with
  | .reserved _ j => if j = k then { s with tkb := { s.tkb with approval := .none } } else s
  | _ => s

/-- The key of a signature that commits with its leaf counts as the last to have signed (R181). -/
def markSigned (x : Seat) (s : State) : State :=
  match x.leaf, slotNamed (keyUse x.header x.entry) x.entry.keyHandle.toNat with
  | some _, [i] =>
    { s with keys := { s.keys with stateful := s.keys.stateful.upd i fun y => { y with lastSigned := s.now } } }
  | _, _ => s

/-- The commit instant of seat `k`, whose hold lasted `held` CCLK beyond its interval: the charge, the approval, and the
hand-over to the writer; a detached operation ends here (R109). -/
def commitSeat (k held : Nat) (s : State) : State :=
  match s.seats.get? k with
  | none => s
  | some x => match x.outcome with
    | none => s
    | some o =>
      let r := commitRecord s k x o held
      let s := markSigned x (commitApproval k (charge x.fn x.table.cls r.units s))
      let s := updSeat k (fun y => { y with phase := .committed, leaf := none, awaits := none, undo := Undo.none }) s
      let s := { s with scr := { s.scr with sides := s.scr.sides.del k } }
      if x.detached then releaseSeat k s
      else
        complete
          { fn := x.fn, ring := x.ring, seq := x.seq, index := x.index, seat := some k, outPtr := x.entry.outPtr,
            out := o.out, batchEnd := x.entry.batchEnd, record := r, stopped := false } s

/-- The hold of a seat ends: its record is acknowledged, or no session carries records any more (R26). -/
def holdOver (s : State) (x : Seat) : Bool :=
  x.phase = .held && (!sharing s || (match x.awaits with | none => true | some q => q ≤ s.keys.ackedSeq))

/-- Every hold that is over releases its operation, each after the CCLK that it was held beyond its interval: `held` gives
them by seat, and where it gives none the number is free (R26). -/
def releaseHolds (held : List (Nat × Nat)) (s : State) : State :=
  (Tab.keys (s.seats.filter fun y => holdOver s y.2)).foldl (fun t k =>
    match held.find? fun h => h.1 = k with
    | some h => commitSeat k h.2 t
    | none => spend (commitSeat k (Config.choice t.free) t)) s

/-- Holds that the end of a session releases; for how long they lasted, no rule says. -/
def releaseAbandoned (s : State) : State := if sharing s then s else releaseHolds [] s

/-- The rows in which two tables differ, as the first has them. -/
def changedRows {α : Type} [DecidableEq α] (a b : Tab α) : List (Nat × Option α) :=
  (((a.keys ++ b.keys).eraseDups).filter fun k => a.get? k != b.get? k).map fun k => (k, a.get? k)

/-- What the changes of an operation replaced, from the state before them to the state after them. -/
def undoOf (a b : State) : Undo :=
  { slots := changedRows a.keys.slots b.keys.slots, stateful := changedRows a.keys.stateful b.keys.stateful,
    curves := changedRows a.keys.curves b.keys.curves, tenants := changedRows a.ten.table b.ten.table,
    streams := changedRows a.dig.streams b.dig.streams, since := a.keys.seq + 1, until_ := b.keys.seq + 1 }

/-- The newest record that awaits an acknowledgement. -/
def newestShared (s : State) : Option Nat := (s.keys.log.getLast?).map fun r => messageSeq r.2

/-- A run matched: its changes are made, and it commits, or is held for the twin's acknowledgement (R26). A full ring quota or
clear history ends it without a commit instant (R510). -/
def finishRun (k : Nat) (x : Seat) (o : Outcome) (s : State) : State :=
  let before := newestShared s
  let old := s
  match applyChanges k x o o.changes o.out s with
  | (st, out, s) =>
    if st = .quota then endSeat k .quota s
    else
      let after := newestShared s
      let awaits := if sharing s && after != before then after else x.awaits
      let o' : Outcome := { status := st, out := out, rounds := o.rounds, interval := o.interval, changes := [] }
      let s := updSeat k (fun y => { y with outcome := some o', awaits := awaits, phase := .held, undo := undoOf old s }) s
      let waits := sharing s && (match awaits with | none => false | some q => s.keys.ackedSeq < q)
      releaseAbandoned (if waits then s else commitSeat k 0 s)

/-! ### The comparator (R315 to R317) -/

/-- The fingerprint of a side: that of its result, or of the run that was stopped at its deadline. -/
def sidePrint (p : Nat) (late : Bool) : Nat := 2 * p + bnat late

/-- The run's sides mismatch: their results differ, one of them alone was stopped, or an SRAM error was found. -/
def mismatched (s : State) (k : Nat) (x : Seat) (a b : Nat) : Bool :=
  x.ue.isSome || x.overA != x.overB || (!x.overA && (a != b || !sidesAgree s k))

/-- What both sides report: when both were stopped, E_SCRIPT_OVERRUN without output or changes (R316). -/
def reported (x : Seat) (o : Outcome) : Outcome :=
  if x.overA then { status := .scriptOverrun, out := [], rounds := o.rounds, interval := o.interval, changes := [] } else o

/-- The tile of a unit. -/
def unitTile (u : Option Nat) : Option Nat := u.map fun n => n / 2

/-- Tile field of an event detail; a side that is no tile reads FFh. -/
def tileByte (u : Option Nat) : Byte := match u with | some n => byte (n / 2) | none => 0xFF

/-- CCLK during which the tiles of a run were assigned, as far as its interval goes; the permutations and compressions of
its leased cores, whose number no rule gives (R329). -/
def countRun (x : Seat) (cclk : Nat) (s : State) : State :=
  let tile (u : Option Nat) (s : State) : State := match u with | some n => bump (Ctr.tilBusy (n / 2)) cclk s | none => s
  let s := tile x.tileB (tile x.tileA s)
  let s := if x.lease.keccak = 0 then s else spend (bump Ctr.keccakPerms (Config.choice s.free) s)
  if x.lease.sha2 = 0 then s else spend (bump Ctr.sha2Compressions (Config.choice s.free) s)

/-- The next run of an operation waits for its pair: operands that the wings no longer hold are fetched again (R17, R198,
R238, R317). -/
def rerunSeat (s : State) (x : Seat) : Seat :=
  let streamed := streamedInput x.header x.entry && hostLen x != 0
  let y : Seat :=
    { x with phase := .granted, outcome := none, overA := false, overB := false, ue := none, run := x.run + 1, asked := 0,
             input := if streamed then none else if x.ue.isSome then readyInput x else x.input,
             chunks := if streamed then [] else x.chunks, staged := if streamed then 0 else x.staged,
             processed := if streamed then 0 else x.processed }
  askOperand s y

/-- What a mismatch leaves to blame at once, or at the operation's end (R318). -/
def noteRun (k : Nat) (x : Seat) (a b : Nat) (s : State) : State :=
  match x.ue with
  | some t => if t < 34 then blame t s else s
  | none =>
    let r : Run := { tileA := unitTile x.tileA, tileB := unitTile x.tileB, printA := sidePrint a x.overA,
                     printB := sidePrint b x.overB }
    updSeat k (fun y => { y with runs := y.runs ++ [r] }) s

/-- A mismatched run is discarded: the operation runs again, or after its third run ends with E_FAULT_REPEAT (R317). -/
def discardRun (k : Nat) (x : Seat) (a b : Nat) (s : State) : State :=
  let detail := leBytes 2 x.entry.opc ++ [tileByte x.tileA, tileByte x.tileB, byte x.run]
  let s := bump Ctr.mismatches 1 (event 0x0601 1 x.fn detail s)
  let s := noteRun k x a b (releasePair k s)
  let s := { s with scr := { s.scr with sides := s.scr.sides.del k } }
  let s :=
    if 2 ≤ x.run then
      let runs := match s.seats.get? k with | some y => y.runs | none => []
      endSeat k .faultRepeat (countFaultRepeat .faultRepeat (decideBlame runs [] s))
    else
      let s := bump Ctr.reruns 1 (updSeat k (rerunSeat s) s)
      match s.seats.get? k with
      | some y => if y.detached && y.input.isNone then operandFails k s else s
      | none => s
  countEvent 40 s

/-- The sides of a run are compared at the end of its interval. -/
def compareRun (k a b cclk : Nat) (x : Seat) (o : Outcome) (s : State) : State :=
  let bad := mismatched s k x a b
  let s := countRun x cclk s
  if bad then discardRun k x a b s
  else
    let p := sidePrint a x.overA
    finishRun k x (reported x o) (decideBlame x.runs [p] (releasePair k s))

/-! ### INTERVAL_END and UNFIXED_INTERVAL_COMMIT (R323, R326) -/

/-- Management opcodes for which no chapter gives an interval (R327). -/
def unfixedOpcodes : List Nat :=
  [0x010, 0x011, 0x012, 0x014, 0x015, 0x030, 0x031, 0x032, 0x040, 0x050, 0x051, 0x052, 0x060, 0x061]

/-- An operation whose result is computed and waits for the end of its time. -/
def finished (s : State) (k : Nat) : Option (Seat × Outcome) :=
  match s.seats.get? k with
  | none => none
  | some x => if x.phase = .executing then x.outcome.map fun o => (x, o) else none

/-- The declared interval elapses; `a` and `b` are the fingerprints of the two sides' results. -/
def intervalEnds (k a b : Nat) (s : State) : State :=
  match finished s k with
  | none => s
  | some (x, o) => if unfixedOpcodes.contains x.entry.opc then s else compareRun k a b o.interval x o s

/-- INTERVAL_END (R323). -/
def execIntervalEnd (k : Nat) (a : Nat) (b : Nat) (s : State) : Host.Outcome State Fault Refusal :=
  run (intervalEnds k a b) s

/-- An operation without a fixed interval is done, `cclk` after its staging; its two copies agree. -/
def unfixedEnds (k cclk : Nat) (s : State) : State :=
  match finished s k with
  | none => s
  | some (x, o) =>
    if unfixedOpcodes.contains x.entry.opc then compareRun k 0 0 cclk x { o with interval := cclk } s else s

/-- UNFIXED_INTERVAL_COMMIT (R326). -/
def execUnfixedIntervalCommit (k : Nat) (cclk : Nat) (s : State) : Host.Outcome State Fault Refusal :=
  run (unfixedEnds k cclk) s

/-! ### WRITE_OUT (R28, R79 to R84) -/

/-- The bytes of a record are written at an address of the ring's function, and the ring's vector is signalled (R84). -/
def putRecord (c : Nat) (r : Ring) (addr : Nat) (rc : Record) (batchEnd : Bool) (s : State) : State :=
  let s := emit (.record r.owner addr rc) s
  let s := updRing c (fun q => { q with completed := q.completed + 1 }) s
  if r.irqMode = 2 || (r.irqMode = 1 && batchEnd) then signal r.owner r.vector s else s

/-- CQ_NEXT moves on, CQ_PHASE toggling at the wrap (R79). -/
def nextCq (r : Ring) : Ring :=
  let n := (r.cqNext + 1) % 2 ^ r.log2
  { r with cqNext := n, cqPhase := if n = 0 then !r.cqPhase else r.cqPhase }

/-- The seat of a record is freed (R29). -/
def freeSeatOf (rc : Record) (s : State) : State := if rc.seatHint = 0xFFFF then s else releaseSeat rc.seatHint s

/-- The output data of an item, unless a curtain drop stopped it. -/
def putOutput (i : Item) (s : State) : State :=
  if i.stopped || i.out = [] then s else emit (.output i.fn i.outPtr i.out) s

/-- An item of a split-mode ring. -/
def writeSplit (c : Nat) (r : Ring) (i : Item) (s : State) : State :=
  let rc := { i.record with phase := r.cqPhase, batch := false }
  let s := updRing c nextCq (putOutput i s)
  freeSeatOf rc (putRecord c r (r.cqBase + 32 * r.cqNext) rc i.batchEnd s)

/-- The first batch of an inline ring whose entries are all done: its items, and those behind it. -/
def frontBatch : List BatchItem → Option (List (Record) × BatchItem × Record × List BatchItem)
  | [] => none
  | b :: r => match b.done with
    | none => none
    | some d =>
      if b.batchEnd then some ([d], b, d, r)
      else match frontBatch r with
        | none => none
        | some (ds, e, last, rest) => some (d :: ds, e, last, rest)

/-- The numerically largest status of a batch (R81). -/
def worst (ds : List Record) (st : Status) : Status :=
  ds.foldl (fun w d => if w.code < d.status.code then d.status else w) st

/-- Records of the batches that are complete, in ring order (R80, R81). -/
def writeBatches (c : Nat) : Nat → State → State
  | 0, s => s
  | fuel + 1, s =>
    match s.ush.rings.get? c with
    | none => s
    | some r => match frontBatch r.batch with
      | none => s
      | some (ds, e, last, rest) =>
        let rc := { last with phase := e.phase, batch := true, status := worst ds last.status }
        let s := updRing c (fun q => { q with batch := rest }) s
        writeBatches c fuel (freeSeatOf rc (putRecord c r (r.sqBase + 128 * e.index) rc true s))

/-- An item of an inline ring: its output is written, and its record waits for the batch; only the BATCH_END entry keeps its
seat until then. -/
def writeInline (c : Nat) (r : Ring) (i : Item) (s : State) : State :=
  let fill (b : BatchItem) : BatchItem := if b.seq = i.seq then { b with done := some i.record } else b
  let s := updRing c (fun q => { q with batch := q.batch.map fill }) (putOutput i s)
  let s := if i.batchEnd then s else freeSeatOf i.record s
  writeBatches c r.batch.length s

/-- The first item of a ring in the writer's queue leaves it. -/
def dropItem (c : Nat) : List Item → List Item
  | [] => []
  | i :: r => if i.ring = c then r else i :: dropItem c r

/-- The writer serves the first item of ring `c` while its function may master the bus; an item whose ring is gone is
dropped. -/
def writeOut (c : Nat) (s : State) : State :=
  match s.writer.find? fun i => i.ring = c with
  | none => s
  | some i =>
    let t := { s with writer := dropItem c s.writer }
    match s.ush.rings.get? c with
    | none => freeSeatOf i.record t
    | some r =>
      if r.owner != i.fn then freeSeatOf i.record t
      else if !canMaster s i.fn then s
      else if r.split then writeSplit c r i t else writeInline c r i t

/-- WRITE_OUT (R28). -/
def execWriteOut (c : Nat) (s : State) : Host.Outcome State Fault Refusal := run (writeOut c) s

/-! ### SRAM_UE (R17, R18, R318) -/

/-- Region codes of the event record (R489); the PF's counters lie in the miscellaneous region (R16). -/
def SramPlace.region : SramPlace → Nat
  | .scratch _ _ => 0
  | .wings _ => 1
  | .expansion => 2
  | .ringContext _ => 3
  | .streamContext _ => 4
  | .controlStore _ _ => 5
  | .meter f _ _ => if f = 0 then 7 else 6
  | .miscellaneous => 7

/-- A seat's run holds an uncorrectable error, blamed on tile `t`, or on none for 34. It is acted on at the end of the run's
interval, as every mismatch is (R316). Operands staged for no run yet are fetched again. -/
def spoilRun (k t : Nat) (s : State) : State :=
  match s.seats.get? k with
  | none => s
  | some x =>
    if x.phase = .executing then updSeat k (fun y => { y with ue := some (match y.ue with | some o => o | none => t) }) s
    else if x.phase = .granted && t = 34 then
      updSeat k (fun y => askOperand s
        { y with input := readyInput y, chunks := if streamedInput y.header y.entry then [] else y.chunks, asked := 0,
                 staged := 0, processed := 0 }) s
    else s

/-- The tile of a side of seat `k`'s run. -/
def sideTile (s : State) (k : Nat) (side : Side) : Option Nat :=
  match s.seats.get? k with
  | none => none
  | some x => unitTile (match side with | .a => x.tileA | .b => x.tileB)

/-- A meter counter is lost for its epoch: in the bank now counting, or in the frozen page (R18). -/
def loseCounter (f c : Nat) (frozen : Bool) (s : State) : State :=
  let n := 32 * f + c
  if frozen then
    match s.box.frozen with
    | [] => s
    | p :: rest =>
      let flags := if bit p.flags 6 then p.flags else p.flags + 64
      let page : MeterPage := { p with counters := p.counters.put n lostCounter, flags := flags }
      { s with box := { s.box with frozen := page :: rest } }
  else { s with box := { s.box with ue := insertSorted n s.box.ue } }

/-- An entry of the expansion cache is discarded; which one an address holds, no rule says. -/
def discardExpansion (s : State) : State :=
  match pick s s.keys.cache.keys with
  | none => s
  | some i => spend { s with keys := { s.keys with cache := s.keys.cache.del i } }

/-- An uncorrectable error in a region. -/
def sramError (p : SramPlace) (address : Nat) (s : State) : State :=
  let s := event 0x0005 2 deviceWide ([byte (SramPlace.region p), 0, 0, 0] ++ leBytes 4 address) s
  match p with
  | .scratch k side => (match sideTile s k side with | some t => spoilRun k t s | none => s)
  | .wings k => spoilRun k 34 s
  | .expansion => discardExpansion s
  | .ringContext c => stopRing c .faultRepeat (trouble 1 s)
  | .streamContext i =>
    trouble 1 { s with dig := { s.dig with streams := s.dig.streams.upd i fun t => { t with state := .broken } } }
  | .controlStore _ ks => ks.foldl (fun t k => if (sideTile s k .a).isSome then spoilRun k 34 t else t) s
  | .meter f c frozen => trouble 1 (loseCounter f c frozen s)
  | .miscellaneous => trouble 1 s

/-- SRAM_UE (R17). -/
def execSramUe (place : SramPlace) (address : Nat) (s : State) : Host.Outcome State Fault Refusal :=
  run (sramError place address) s

end Sys2Proof.Machine
end

