-- ==== Sys2Proof/Machine/HashBased.lean ====
section
/-! DEFINITION. The hash-based signatures of chapter 06: SLH-DSA, HSS, XMSS and the reserve status of stateful keys. -/

namespace Sys2Proof.Machine

/-! ### SLH-DSA (R165 to R171) -/

/-- Node length n of a set. -/
def slhN (p : Nat) : Nat := match slhDsa p with | some d => d.1 / 2 | none => 0

def slhKeygen (s : State) (x : Seat) (_ : Bytes) : Outcome :=
  let p := x.entry.ps
  let m := Config.prim .slhKey [tag p, fresh x 0 (3 * slhN p)] (4 * slhN p)
  keygenOutcome x 5 1 m (publicOf s 5 p 1 m) (slhTime p).1

/-- SLH_DSA_KEYGEN (R166). -/
def execSlhDsaKeygen (k : Nat) (s : State) : Host.Outcome State Fault Refusal := run (compute k 0x300 slhKeygen) s

/-- Signing (R167, R168): opt_rand is fresh, or PK.seed when deterministic. -/
def slhSign (pre : Bool) (s : State) (x : Seat) (input : Bytes) : Outcome :=
  let e := x.entry
  let p := e.ps
  let n := slhN p
  let iv := (slhTime p).2.1 + slhTerm p (messagePrimeLen pre (e.arg 0) (e.arg 2) input) true
  if preHashBad pre e then ended .invalidInput iv
  else match privateKey s x 5 with
    | none => ended .invalidKey iv
    | some y =>
      let opt := if e.argBit 1 0 then slice y.material (2 * n) n else fresh x 0 n
      let len := match slhDsa p with | some d => d.2.2 | none => 0
      done (Config.prim .slhSig [tag p, y.material, messagePrime pre (e.arg 0) (e.arg 2) input, opt] len) iv []

/-- SLH_DSA_SIGN (R167). -/
def execSlhDsaSign (k : Nat) (s : State) : Host.Outcome State Fault Refusal := run (compute k 0x301 (slhSign false)) s

/-- HASHSLH_DSA_SIGN (R167). -/
def execHashslhDsaSign (k : Nat) (s : State) : Host.Outcome State Fault Refusal := run (compute k 0x303 (slhSign true)) s

def slhVerify (pre : Bool) (s : State) (x : Seat) (input : Bytes) : Outcome :=
  let e := x.entry
  let p := e.ps
  let d := (slhDsa p).getD (0, 0, 0)
  let rest := afterKey x input d.1
  let msg := rest.drop d.2.2
  let iv := (slhTime p).2.2 + slhTerm p (messagePrimeLen pre (e.arg 0) (e.arg 2) msg) false
  if preHashBad pre e then ended .invalidInput iv
  else if wrongKey s x 5 then ended .invalidKey iv
  else verdict (Config.primHolds .slhValid
    [tag p, publicKeyOf s x input d.1, rest.take d.2.2, messagePrime pre (e.arg 0) (e.arg 2) msg]) iv

/-- SLH_DSA_VERIFY (R169). -/
def execSlhDsaVerify (k : Nat) (s : State) : Host.Outcome State Fault Refusal := run (compute k 0x302 (slhVerify false)) s

/-- HASHSLH_DSA_VERIFY (R169). -/
def execHashslhDsaVerify (k : Nat) (s : State) : Host.Outcome State Fault Refusal :=
  run (compute k 0x304 (slhVerify true)) s

/-! ### Stateful keygen (R172, R173, R185) -/

/-- A stateful private key with its geometry. Its FORM, 0 or 1 (R262), no rule gives: 0 (DESIGN CHOICE, log 123). -/
def statefulOutcome (x : Seat) (fam : Nat) (material pk : Bytes) (heights consts : List Nat) : Outcome :=
  let e := x.entry
  let key := { newKey x fam e.ps 0 (bits (e.arg 0) 1 0) originInside false material with heights := heights, consts := consts }
  done pk (statefulKeygen heights consts) [place x key]

/-- The LMS and LM-OTS type fields of a height and a width, in a family: the numbers of SP 800-208, whose encodings R174 adopts
(PRESUMED, assumption log 7). -/
def lmsTypeBytes (fam h w : Nat) : Bytes := beBytes 4 (5 + 5 * fam + (h / 5 - 1)) ++ beBytes 4 (1 + 4 * fam + Nat.log2 w)

/-- L ‖ types ‖ I ‖ root of an HSS key for its heights and widths; `seed` is the top level's I ‖ SEED (R173, R174). -/
def hssPublic (p : Nat) (levels : List (Nat × Nat)) (seed : Bytes) : Bytes :=
  let top := levels.headD (5, 1)
  beBytes 4 levels.length ++ lmsTypeBytes (hssFam p) top.1 top.2 ++ seed.take 16
    ++ Config.prim .hssPk [tag p, levels.flatMap fun l => [byte l.1, byte l.2], seed] ((hssN p).getD 0)

def hssKeygen (_ : State) (x : Seat) (_ : Bytes) : Outcome :=
  let seed := fresh x 0 48
  let pk := hssPublic x.entry.ps ((hssHeights x.entry).zip ((hssConsts x.entry).map widthOf)) seed
  statefulOutcome x 6 (seed ++ pk) pk (hssHeights x.entry) (hssConsts x.entry)

/-- HSS_KEYGEN (R172). -/
def execHssKeygen (k : Nat) (s : State) : Host.Outcome State Fault Refusal := run (compute k 0x310 hssKeygen) s

def xmssKeygen (s : State) (x : Seat) (_ : Bytes) : Outcome :=
  let p := x.entry.ps
  let n := match xmss p with | some d => famN d.2.2 | none => 0
  let secrets := fresh x 0 (3 * n)
  let m := secrets ++ Config.prim .xmssPk [tag p, secrets] n
  let shape := xmssShape p
  statefulOutcome x 7 m (publicOf s 7 p 0 m) shape.1 shape.2

/-- XMSS_KEYGEN (R172). -/
def execXmssKeygen (k : Nat) (s : State) : Host.Outcome State Fault Refusal := run (compute k 0x320 xmssKeygen) s

/-! ### Stateful signing (R174 to R177, R184, R186) -/

/-- A signature with the leaf taken at dispatch; a slot of another algorithm or set took none (R186). -/
def statefulSignOutcome (fam : Nat) (signature : Stateful → Bytes → Nat → Bytes) (s : State) (x : Seat) (input : Bytes) : Outcome :=
  match signingKey s x, keySlot s x, x.leaf with
  | some (_, y), some z, some leaf =>
    let iv := statefulSign y.heights y.consts + statefulTerm fam input.length + (if x.reserves then commitAllowance else 0)
    done (signature y z.material leaf) iv []
  | _, _, _ => ended .invalidKey (4800 + statefulTerm fam input.length)

/-- One LMS signature: index, LM-OTS type, C, the chain values, LMS type, path (R174). -/
def lmsSignature (fam n h w q : Nat) (c y path : Bytes) : Bytes :=
  let t := lmsTypeBytes fam h w
  beBytes 4 q ++ t.drop 4 ++ c ++ y.take (n * lmotsChains n w) ++ t.take 4 ++ path.take (n * h)

/-- The HSS signature of a message with a global leaf (R174): Nspk, each upper level's signature with the public key that it
signs, and the lowest level's, whose C is fresh. The chain values, paths and lower keys are the standard's. -/
def hssSignature (p : Nat) (levels : List (Nat × Nat)) (material : Bytes) (leaf : Nat) (c m : Bytes) : Bytes :=
  let fam := hssFam p
  let n := (hssN p).getD 0
  let count := levels.length
  let below (i : Nat) : Nat := sumOf ((levels.drop (i + 1)).map Prod.fst)
  let level (i : Nat) : Bytes :=
    let (h, w) := (levels[i]?).getD (5, 1)
    let at_ := leaf / 2 ^ below i
    let part (j len : Nat) (more : List Bytes) : Bytes := Config.prim .hssSig ([tag p, material, tag i, tag j, tag at_] ++ more) len
    let last := i + 1 = count
    let ci := if last then c else part 0 n []
    let y := part 1 (n * lmotsChains n w) (if last then [ci, m] else [])
    let key := match levels[i + 1]? with
      | none => []
      | some (h', w') => lmsTypeBytes fam h' w' ++ part 3 (16 + n) []
    lmsSignature fam n h w (at_ % 2 ^ h) ci y (part 2 (n * h) []) ++ key
  beBytes 4 (count - 1) ++ (List.range count).flatMap level

def hssSign (s : State) (x : Seat) (input : Bytes) : Outcome :=
  let p := x.entry.ps
  statefulSignOutcome (hssFam p)
    (fun y m leaf => hssSignature p (levelsOf y) m leaf (fresh x 0 ((hssN p).getD 0)) input) s x input

/-- HSS_SIGN (R176). -/
def execHssSign (k : Nat) (s : State) : Host.Outcome State Fault Refusal := run (compute k 0x311 hssSign) s

/-- r of an XMSS signature: PRF of SK_PRF and the index, as SP 800-208 has it (R174; PRESUMED, assumption log 110). -/
def xmssRandom (fam n : Nat) (prf : Bytes) (leaf : Nat) : Bytes :=
  let m := beBytes (if n = 32 then 32 else 4) 3 ++ prf ++ beBytes 32 leaf
  if fam < 2 then (digestOf 0x0602 m 32).take n else sponge 136 0x1F m n

/-- The XMSS or XMSS^MT signature with a leaf: index, r, the chain values and paths of the standard. The OID is its key's: the
encoding of SP 800-208 gives a signature no field for it (R163, R174; DEDUCED, assumption log 124). -/
def xmssSignature (p : Nat) (material : Bytes) (leaf : Nat) (m : Bytes) : Bytes :=
  match xmss p with
  | none => []
  | some (h, d, f) =>
    let n := famN f
    let index := beBytes (if d = 1 then 4 else ceilDiv h 8) leaf
    let head := index ++ xmssRandom f n (slice material n n) leaf
    head ++ Config.prim .xmssSig [tag p, material, tag leaf, m] (xmssSigLen h d n - head.length)

def xmssSign (s : State) (x : Seat) (input : Bytes) : Outcome :=
  statefulSignOutcome (bits x.entry.ps 7 6) (fun _ m leaf => xmssSignature x.entry.ps m leaf input) s x input

/-- XMSS_SIGN (R176). -/
def execXmssSign (k : Nat) (s : State) : Host.Outcome State Fault Refusal := run (compute k 0x321 xmssSign) s

/-! ### Stateful verification (R175, R184) -/

/-- Height and width code of an LMS and an LM-OTS type, where both belong to a family: the numbers of SP 800-208, whose
encodings R174 adopts (PRESUMED, assumption log 7). -/
def lmsTypes (fam lms ots : Nat) : Option (Nat × Nat) :=
  if 5 + 5 * fam ≤ lms ∧ lms < 10 + 5 * fam ∧ 1 + 4 * fam ≤ ots ∧ ots < 5 + 4 * fam then
    some (5 * (lms - (5 + 5 * fam) + 1), ots - (1 + 4 * fam))
  else none

/-- Length of one LMS signature. -/
def lmsSigLen (n h w : Nat) : Nat := 8 + n + n * lmotsChains n (2 ^ w) + 4 + n * h

/-- The levels that a signature shows below the top, from the types of its lower-level keys, each behind the signature of
the level above it; and whether the last signature has the length its types give. -/
def lowerLevels (fam n : Nat) : Nat → Nat × Nat → Bytes → Option (List (Nat × Nat) × Bool)
  | 0, top, b => some ([], b.length = lmsSigLen n top.1 top.2)
  | l + 1, top, b =>
    let rest := b.drop (lmsSigLen n top.1 top.2)
    if rest.length < 24 + n then none
    else match lmsTypes fam (beNat (slice rest 0 4)) (beNat (slice rest 4 4)) with
      | none => none
      | some t => (lowerLevels fam n l t (rest.drop (24 + n))).map fun r => (t :: r.1, r.2)

/-- The top level of an HSS public key and its number of levels: from the key's record, or from the encoded types. -/
def hssTop (s : State) (x : Seat) (pk : Bytes) : Option (Nat × Nat × Nat) :=
  let fam := hssFam x.entry.ps
  match slotOf s x.entry.keyHandle.toNat with
  | some (i, _) => match s.keys.stateful.get? i with
    | some y => (match levelsOf y with
      | (h, w) :: r => some (r.length + 1, h, Nat.log2 w)
      | [] => none)
    | none => (lmsTypes fam (beNat (slice pk 4 4)) (beNat (slice pk 8 4))).map fun t => (beNat (pk.take 4), t.1, t.2)
  | none => (lmsTypes fam (beNat (slice pk 4 4)) (beNat (slice pk 8 4))).map fun t => (beNat (pk.take 4), t.1, t.2)

/-- A host key whose L is 0 or above 8 ends with E_INVALID_KEY as one of an unknown type does; R175 names the types only (DESIGN
CHOICE, assumption log 125). -/
def hssVerify (s : State) (x : Seat) (input : Bytes) : Outcome :=
  let e := x.entry
  let p := e.ps
  let fam := hssFam p
  let n := (hssN p).getD 0
  let rest := afterKey x input (28 + n)
  let sig := rest.take (e.argN 0 4)
  let msg := rest.drop (e.argN 0 4)
  let short := 12800 + statefulTerm fam msg.length
  let pk := publicKeyOf s x input (28 + n)
  if wrongKey s x 6 then ended .invalidKey short
  else match hssTop s x pk with
    | none => ended .invalidKey short
    | some (count, top) =>
      if count = 0 ∨ 8 < count then ended .invalidKey short
      else match lowerLevels fam n (count - 1) top (sig.drop 4) with
        | none => ended .verifyFail short
        | some (ls, fits) =>
          let levels := top :: ls
          let iv := statefulVerify (levels.map Prod.fst) (levels.map fun l => packConst (lmsConst fam l.2) (2 ^ l.2))
            + statefulTerm fam msg.length
          verdict (fits && beNat (sig.take 4) = count - 1 && Config.primHolds .hssValid [tag p, pk, sig, msg]) iv

/-- HSS_VERIFY (R175). -/
def execHssVerify (k : Nat) (s : State) : Host.Outcome State Fault Refusal := run (compute k 0x312 hssVerify) s

/-- A host key whose OID is not the PARAM_SET's ends with E_INVALID_KEY at the short interval, also where the OID is of the same
family and another tree, which R175 does not name (DESIGN CHOICE, assumption log 125). -/
def xmssVerify (s : State) (x : Seat) (input : Bytes) : Outcome :=
  let e := x.entry
  let p := e.ps
  match xmss p with
  | none => ended .paramSet 0
  | some (h, d, f) =>
    let n := famN f
    let rest := afterKey x input (4 + 2 * n)
    let sig := rest.take (e.argN 0 4)
    let msg := rest.drop (e.argN 0 4)
    let term := statefulTerm f msg.length
    let iv := statefulVerify (xmssShape p).1 (xmssShape p).2 + term
    let pk := publicKeyOf s x input (4 + 2 * n)
    if wrongKey s x 7 then ended .invalidKey iv
    else if e.keyHandle = 0 && pk.take 4 != xmssOid p then ended .invalidKey (12800 + term)
    else verdict (sig.length = xmssSigLen h d n && Config.primHolds .xmssValid [tag p, pk, sig, msg]) iv

/-- XMSS_VERIFY (R175). -/
def execXmssVerify (k : Nat) (s : State) : Host.Outcome State Fault Refusal := run (compute k 0x322 xmssVerify) s

/-! ### Reserve status (R183) -/

/-- A figure that saturates at 2^64 - 1. -/
def saturate (n : Nat) : Nat := Nat.min n (2 ^ 64 - 1)

/-- The 64 bytes of a reserve status. -/
def reserveStatus (s : State) (y : Slot) (x : Stateful) : Bytes :=
  let home := !(homeOf s y.owner).twin
  let flags := bnat x.active + fld (bnat (!paired s || home)) 1 + fld (bnat (paired s && y.mirror)) 2
    + fld (bnat x.nextLeaf.isNone) 3
  [byte (sumOf x.heights), byte x.heights.length] ++ zeros 6
    ++ leBytes 8 (match x.nextLeaf with | some l => l | none => 2 ^ 64 - 1)
    ++ leBytes 8 x.remaining ++ leBytes 8 (saturate x.unreserved) ++ leBytes 8 (saturate (x.remaining + x.unreserved))
    ++ leBytes 8 x.forfeited ++ leBytes 8 x.nextBlock ++ [byte flags] ++ zeros 7

def reserveOutcome (fam : Nat) (s : State) (x : Seat) (_ : Bytes) : Outcome :=
  match slotOf s x.entry.keyHandle.toNat with
  | none => ended .invalidKey 1600
  | some (i, y) =>
    match s.keys.stateful.get? i with
    | none => ended .invalidKey 1600
    | some z =>
      if y.family = fam ∧ y.paramSet = x.entry.ps then done (reserveStatus s y z) 1600 [] else ended .invalidKey 1600

/-- OP_LMS_RESERVE_STATUS (R183). -/
def execOpLmsReserveStatus (k : Nat) (s : State) : Host.Outcome State Fault Refusal :=
  run (compute k 0x313 (reserveOutcome 6)) s

/-- XMSS_RESERVE_STATUS (R183). -/
def execXmssReserveStatus (k : Nat) (s : State) : Host.Outcome State Fault Refusal :=
  run (compute k 0x323 (reserveOutcome 7)) s

end Sys2Proof.Machine
end

