-- ==== Sys2Proof/Machine/Pcie.lean ====
section
/-! DEFINITION. The PCI Express controller: virtual functions, resets and readiness, MSI-X, errors, PTM, DOE and the SMBus
port (chapter 02). -/

namespace Sys2Proof.Machine

/-! ### Virtual functions (R43, R396) -/

/-- VF Enable becomes 0: every VF is reset and ceases to exist, and a waiting VF maximum takes effect (R56, R396). -/
def vanishVfs (s : State) : State :=
  let s := (List.range s.pcie.vfs).foldl (fun t i => startReset (i + 1) 2 [] true t) s
  { s with pcie := { s.pcie with vfEnable := false, vfs := 0 }, stg := { s.stg with overlayMax := s.stg.overlayMaxNext } }

/-- What a function that comes into existence starts with: no halt, no bus mastering, every vector masked (R91, R50). -/
def newFunctions (n : Nat) (s : State) : State :=
  let isNew (f : Nat) : Bool := 1 ≤ f && f ≤ n
  let old (f : Nat) : Bool := !isNew f
  { s with
    ush := { s.ush with halts := s.ush.halts.filter fun x => old x.1 },
    pcie := { s.pcie with
      bme := s.pcie.bme.filter old, d3 := s.pcie.d3.filter old, aer := s.pcie.aer.filter fun x => old x.1,
      completionTimeout := s.pcie.completionTimeout.filter fun x => old x.1,
      msixAddr := s.pcie.msixAddr.filter fun x => old (x.1 / 256),
      msixData := s.pcie.msixData.filter fun x => old (x.1 / 256),
      unmasked := s.pcie.unmasked.filter fun v => old (v / 256),
      msixPending := s.pcie.msixPending.filter fun v => old (v / 256) } }

/-- VF Enable is written (R43): without ARI no VF comes into existence. -/
def writeVfEnable (enable : Bool) (num : Nat) (ari : Bool) (s : State) : State :=
  if !enable then vanishVfs { s with pcie := { s.pcie with ari := ari } }
  else if s.pcie.vfEnable then s
  else
    let s := { s with pcie := { s.pcie with vfEnable := true, numVfs := num, ari := ari } }
    if !ari then trouble 3 (event 0x0E01 1 0 [] s)
    else
      let n := Nat.min num (vfOffer s)
      let s := newFunctions n s
      { s with pcie := { s.pcie with vfs := n } }

/-- VF_ENABLE (R43). -/
def execVfEnable (enable : Bool) (num : Nat) (ari : Bool) (s : State) : Host.Outcome State Fault Refusal :=
  run (configReach (writeVfEnable enable num ari)) s

/-! ### Bus mastering and MSI-X (R50, R63) -/

/-- One message for each pending vector of a function that is unmasked, once the function may master the bus. -/
def sendPending (f : Nat) (s : State) : State :=
  if canMaster s f then
    let go (v : Nat) : Bool := v / 256 = f && s.pcie.unmasked.contains v
    let t := (s.pcie.msixPending.filter go).foldl (fun t v => emit (msixMessage t f (v % 256)) t) s
    { t with pcie := { t.pcie with msixPending := t.pcie.msixPending.filter fun v => !go v } }
  else s

/-- A list with or without an element. -/
def setMember (b : Bool) (f : Nat) (l : List Nat) : List Nat := if b then insertSorted f l else l.filter fun g => g != f

/-- The operand reads that waited for a function are issued (R50). -/
def askOperands (f : Nat) (s : State) : State :=
  { s with seats := s.seats.mapRows fun _ x => if x.fn = f then askOperand s x else x }

/-- Bus Master Enable or the power state of a function changes; waiting messages and reads go out (R50). -/
def writeBusMaster (f : Nat) (bme d0 : Bool) (s : State) : State :=
  if !fnExists s f then s
  else
    let s := { s with pcie := { s.pcie with bme := setMember bme f s.pcie.bme, d3 := setMember (!d0) f s.pcie.d3 } }
    sendPending f (askOperands f s)

/-- BUS_MASTER_ENABLE (R50). -/
def execBusMasterEnable (fn : Nat) (bme : Bool) (d0 : Bool) (s : State) : Host.Outcome State Fault Refusal :=
  run (configReach (writeBusMaster fn bme d0)) s

/-- Vectors that a function has (R44, R62). -/
def hasVector (f v : Nat) : Bool := v < (if f = 0 then 256 else 16)

/-- A vector is unmasked (R63). -/
def unmask (f v : Nat) (s : State) : State :=
  if fnExists s f && hasVector f v then
    sendPending f { s with pcie := { s.pcie with unmasked := insertSorted (256 * f + v) s.pcie.unmasked } }
  else s

/-- MSIX_UNMASK (R63). -/
def execMsixUnmask (fn : Nat) (vector : Nat) (s : State) : Host.Outcome State Fault Refusal := run (unmask fn vector) s

/-! ### Errors (R51) -/

/-- ECRC_ERROR (R51). -/
def execEcrcError (s : State) : Host.Outcome State Fault Refusal := run (logAer 0 .ecrc) s

/-- POISONED_WINDOW_REQUEST (R51): a write is discarded, a read completes with Unsupported Request. -/
def execPoisonedWindowRequest (fn : Nat) (isRead : Bool) (s : State) : Host.Outcome State Fault Refusal :=
  run (fun s =>
    if !fnExists s fn then s
    else
      let s := logAer fn .poisoned s
      if isRead then emit (.unsupported fn) s else s) s

/-! ### PTM (R53) -/

/-- A dialog starts. One that was still outstanding has failed, and ends a run of valid dialogs. -/
def startDialog (s : State) : State :=
  if s.pcie.ptmEnable then
    { s with pcie := { s.pcie with ptmDialog := true, ptmRun := if s.pcie.ptmDialog then 0 else s.pcie.ptmRun } }
  else s

/-- PTM_DIALOG (R53). -/
def execPtmDialog (s : State) : Host.Outcome State Fault Refusal := run startDialog s

/-- PTM is lost (R53); the epoch in progress has seen it (R121). A run of valid dialogs ends. -/
def losePtm (s : State) : State :=
  if s.pcie.ptmLost then { s with pcie := { s.pcie with ptmRun := 0 } }
  else
    event 0x0302 1 deviceWide [1]
      { s with pcie := { s.pcie with ptmLost := true, ptmRun := 0 }, box := { s.box with ptmLost := true } }

/-- A valid dialog completes: the second in a row regains PTM (R53). -/
def dialogDone (s : State) : State :=
  if !s.pcie.ptmEnable || !s.pcie.ptmDialog then s
  else
    let s := { s with pcie := { s.pcie with ptmDialog := false } }
    if !s.pcie.ptmLost then s
    else if s.pcie.ptmRun = 0 then { s with pcie := { s.pcie with ptmRun := 1 } }
    else event 0x0302 1 deviceWide [0] { s with pcie := { s.pcie with ptmLost := false, ptmRun := 0 } }

/-- PTM_DIALOG_COMPLETE (R53). -/
def execPtmDialogComplete (_time : Nat) (s : State) : Host.Outcome State Fault Refusal := run dialogDone s

/-- PTM_LOSS (R53). -/
def execPtmLoss (s : State) : Host.Outcome State Fault Refusal := run losePtm s

/-- PTM Enable is written: PTM is lost while it is 0. -/
def writePtmEnable (b : Bool) (s : State) : State :=
  let s := { s with pcie := { s.pcie with ptmEnable := b, ptmDialog := s.pcie.ptmDialog && b } }
  if b then s else losePtm s

/-! ### Resets of the PF (R56, R499, R506) -/

/-- What every reset of the PF does: its operations and waiting write-outs go the way of those of a VF that is reset
(R49, R50; assumption log 104), its rings are reset, VF Enable clears, event enables and pending bits clear, and pending
pairs are discarded without GUARD_FAIL. -/
def resetPf (s : State) : State :=
  let s := vanishVfs (resetRings 0 (drainFunction 0 s))
  { s with glb := { s.glb with evtPend := [], evtEnable := [], pairs := [] } }

/-- PF_FLR (R56). -/
def execPfFlr (s : State) : Host.Outcome State Fault Refusal := run resetPf s

/-- IDE streams return to Insecure, and the SPDM session ends. -/
def endLinkSecurity (s : State) : State :=
  { s with pcie := { s.pcie with spdmSession := false, ide := s.pcie.ide.map Ide.cleared } }

def resetHot (s : State) : State := endLinkSecurity (resetPf s)

/-- HOT_RESET (R56). -/
def execHotReset (s : State) : Host.Outcome State Fault Refusal := run resetHot s

/-- Every seated operation is lost with no record, and nothing more is written out (R31). -/
def loseOperations (s : State) : State :=
  (Tab.keys s.seats).foldl (fun t k => releaseSeat k (dropRun k t)) { s with writer := [] }

/-- Volatile parts of the key table end: an active key forfeits the rest of its block (R177), pins (R197), sealed seeds
(R131) and expansions end. -/
def loseKeyState (s : State) : State :=
  { s with keys := { s.keys with
      stateful := s.keys.stateful.mapRows fun _ y => y.lose, pins := [], cache := [], sealPresent := false,
      sealKey := [] } }

/-- The plan's side of a PERST_N or a loss of supply: the overlay is reset (R396), a switch before its commit is given up
(R394), and no image waits to be written. -/
def dropSwitch (s : State) : State :=
  { s with stg := { s.stg with switching := .idle, asker := none, loading := [], overlayMax := 4096,
                               overlayMaxNext := 4096, deny := [] },
           scr := { s.scr with sceneChange := false, retain := 0, retainBank := none, sides := [] } }

/-- The token bus's side: an open ceremony and a held approval end, and TKB_CFG and TKB_CER_* are reset (R441, R443). -/
def resetCeremony (s : State) : State :=
  let s := endCeremony 0 s
  { s with tkb := { s.tkb with approval := .none, result := 0, action := 0, arg := [], startWanted := false, maxMode := 2,
                               fourLine := true } }

/-- The twin link's side: TWN_CFG and TWN_METER_* are reset (R420), held checkpoints are lost (R419), and a pairing that was
under way is given up. -/
def resetTwinConfig (s : State) : State :=
  let s := if s.twn.state = .pairing then unpair s else s
  { s with twn := { s.twn with enable := false, planSync := false, streamCkpt := false, joinWait := 1, meterBase := 0,
                               meterCount := 1, meterEnable := false, held := [], asker := none } }

/-- The register map's side (R494, R495, R500 to R502), and the RW registers of BOX and VFC that PERST_N resets. -/
def resetRegisters (s : State) : State :=
  { s with
    glb := { s.glb with trouble := 0, failOffset := 0, failCount := 0, snapBusy := false, snapCount := 0, held := [],
                        scratch := 0, pairs := [], evtPend := [], evtEnable := [] },
    box := { s.box with pageBase := 0, count := 1, enable := false, period := 60 },
    ten := { s.ten with mailSel := 0 } }

/-- The fundamental reset of the controller: the link goes down, and the configuration registers return to their reset
values, PTM Enable among them (assumption log 104). -/
def resetController (s : State) : State :=
  let s := writePtmEnable false s
  { s with pcie := { s.pcie with
      ready := false, cfgRetry := true, drsSent := false, doeWaiting := [], link := none, aspmL1 := false, bus := 0, mps := 0,
      mrrs := 2, numVfs := 0, ari := false, bme := [], d3 := [], aer := [], completionTimeout := [], unmasked := [],
      msixPending := [], msixAddr := [], msixData := [], ide := List.replicate 9 Ide.first } }

/-- PERST_N asserts, or the supply goes: operations are lost, and what R56 and the register chapters name is reset. -/
def resetCompute (s : State) : State :=
  let s := loseKeyState (loseOperations s)
  let s := resetTwinConfig (resetCeremony (dropSwitch s))
  let s := { s with lcs := { s.lcs with challenge := false, unlocked := false, newWanted := false } }
  resetController (resetRegisters (resetHot s))

/-- The epoch in progress ends at PERST_N with CUT; at what PTM time, no operand says (R123). -/
def cutEpoch (s : State) : State :=
  if s.box.running then
    let s := freezeBank (Config.timeEstimate s.free % 2 ^ 64) true s
    { s with box := { s.box with running := false } }
  else s

/-- PERST_N_ASSERT (R56, R123, R523). -/
def execPerstNAssert (s : State) : Host.Outcome State Fault Refusal :=
  run (fun s =>
    if !s.pcie.perstHigh then s
    else
      let s := resetCompute (cutEpoch s)
      { s with pcie := { s.pcie with perstHigh := false } }) s

/-- The vault's supplies are valid and PWRFAIL_N is high (R522). -/
def vaultValid (s : State) : Bool := s.pwr.vault && s.pwr.vhold && s.pwr.pwrfailHigh

/-- The widths at which the device trains (R35), widest first. -/
def linkWidths : List Nat := [16, 8, 4, 1]

/-- The link that training gives with a partner: the highest common speed, and the widest of the device's widths that the
partner's lanes allow, so that a partner with two lanes gets one. In SCRAPPED the device trains at 2.5 GT/s and one lane only
(R474). -/
def trainLink (s : State) (p : LinkPartner) : Option Link :=
  if p.speed = 0 then none
  else if lc s = .scrapped then (if p.lanes = 0 then none else some { speed := 1, lanes := 1 })
  else (linkWidths.find? fun w => w ≤ p.lanes).map fun w => { speed := Nat.min p.speed 5, lanes := w }

/-- What the partner offers at this release, which no row tells: a free value (assumption log 128). -/
def linkPartner (s : State) : LinkPartner := { speed := (Config.linkOffer s.free).1, lanes := (Config.linkOffer s.free).2 }

/-- PERST_N is released: the sequence of R54 starts. -/
def releasePerst (s : State) : State :=
  if s.pcie.perstHigh then s
  else
    let link := trainLink s (linkPartner s)
    let s := spend { s with pcie := { s.pcie with perstHigh := true, cfgRetry := true, link := link } }
    if vaultValid s then { s with pwr := { s.pwr with mains := true }, keys := { s.keys with cache := [] } } else s

/-- PERST_N_RELEASE (R54, R522): with every supply valid the compute-die steps start, among them the zeroing of the
expansion cache. -/
def execPerstNRelease (s : State) : Host.Outcome State Fault Refusal := run releasePerst s

/-- DRS_MESSAGE (R54): with the link up, configuration requests complete from now on, and the message is sent once. -/
def execDrsMessage (s : State) : Host.Outcome State Fault Refusal :=
  run (fun s =>
    if s.pcie.perstHigh && s.pcie.link.isSome && s.pwr.mains && !s.pcie.drsSent then
      emit .drs { s with pcie := { s.pcie with cfgRetry := false, drsSent := true } }
    else s) s

/-! ### DOE (R57 to R60) -/

/-- Measurement blocks 1 to 5, each behind its index (R59). Block 2 holds 48 zero bytes while no maker image is loaded, which
the rule says of block 3 only (assumption log 105). -/
def measurements (s : State) : Bytes :=
  let maker := match s.scr.maker with | some i => padTo 48 i.digest | none => zeros 48
  let customer := match s.scr.customer with | some i => padTo 48 i.digest | none => zeros 48
  [byte 1] ++ padTo 48 Config.bootRomDigest ++ [byte 2] ++ maker ++ [byte 3] ++ customer
    ++ [byte 4] ++ stageDigest s ++ [byte (bnat s.stg.active)]
    ++ [byte 5, byte (lc s).code, byte (bnat s.tmp.curtainDown), byte (retiredTiles s)]

/-! #### SPDM (R58); request, response and error codes are those of the SPDM standard (assumption log 106) -/

/-- The versions accepted: 1.0, 1.1 and 1.2. -/
def spdmVersions : List Nat := [0x10, 0x11, 0x12]

/-- An ERROR answer. -/
def spdmError (v code data : Nat) : Bytes := [byte v, byte 0x7F, byte code, byte data]

/-- The requests of the supported capabilities. Pre-shared keys, mutual authentication, and CSR and certificate provisioning
have none. -/
def spdmRequests : List Nat := [0x81, 0x82, 0x83, 0x84, 0xE0, 0xE1, 0xE3, 0xE4, 0xE5, 0xE8, 0xE9, 0xEC, 0xFE]

/-- The capability flags CERT, CHAL, MEAS with signature, ENCRYPT, MAC, KEY_EX, HBEAT and KEY_UPD. -/
def spdmFlags : Nat := fld 1 1 + fld 1 2 + fld 2 3 + fld 1 6 + fld 1 7 + fld 1 9 + fld 1 13 + fld 1 14

/-- The algorithms selected: SHA-384 measurements, ECDSA P-384, SHA-384, secp384r1, AES-256-GCM. -/
def spdmAlgorithms : List Nat := [fld 1 2, fld 1 7, fld 1 1, fld 1 4, fld 1 1]

/-- A request of a certificate slot other than 0, the only one supported. -/
def spdmSlotBad (code p1 : Nat) : Bool := (code = 0x82 || code = 0x83) && bits p1 3 0 != 0

/-- The answer to a request other than GET_MEASUREMENTS, KEY_EXCHANGE and END_SESSION: what the standard lays out beyond the
points of R58 is a free function of the request. -/
def spdmAnswer (session : Bool) (v code p1 p2 : Nat) (body : Bytes) : Bytes :=
  let rest := Config.prim .spdm [leBytes 4 v, leBytes 4 code, leBytes 4 p1, leBytes 4 p2, body]
    (Config.primNat .spdm [leBytes 4 code, body] 0 % 262133)
  if code = 0x84 then [byte 0x10, byte 0x04, 0, 0, 0, byte 3] ++ spdmVersions.flatMap fun w => leBytes 2 (256 * w)
  else if !spdmVersions.contains v then spdmError 0x10 0x41 0
  else if !spdmRequests.contains code then spdmError v 0x07 code
  else if spdmSlotBad code p1 then spdmError v 0x01 0
  else if (code = 0xE8 || code = 0xE9) && !session then spdmError v 0x04 0
  else if code = 0xE1 then [byte v, byte 0x61, 0, 0] ++ rest.take 4 ++ leBytes 4 spdmFlags ++ (if v = 0x10 then [] else rest.drop 4)
  else if code = 0xE3 then [byte v, byte 0x63, 0, 0] ++ spdmAlgorithms.flatMap (leBytes 4)
  else if code = 0xE8 then [byte v, byte 0x68, 0, 0]
  else if code = 0xE9 then [byte v, byte 0x69, byte p1, byte p2]
  else [byte v, byte (code - 0x80)] ++ rest

/-- The DOE Discovery answer: the protocol at an index, and the next index. DOE Discovery, CMA-SPDM and Secured CMA-SPDM are
protocols 0 to 2 of vendor 1 (R57). -/
def doeDiscovery (index : Nat) : Bytes :=
  if index < 3 then leBytes 2 1 ++ [byte index, byte ((index + 1) % 3)] else leBytes 2 0xFFFF ++ [0, 0]

/-- What QUERY gives of a stream: keyed, secure, and its association blocks. -/
def Ide.bytes (x : Ide) : Bytes :=
  [byte (bnat x.keyed + fld (bnat x.secure) 1 + fld (bnat x.ridValid) 2 + fld (bnat x.addrValid) 3)]
    ++ leBytes 2 x.ridBase ++ leBytes 2 x.ridLimit ++ leBytes 4 x.addrBase ++ leBytes 4 x.addrLimit

/-- The answer to an IDE_KM request: within a secured session only. -/
def ideAnswer (s : State) (b : Bytes) : Bytes := if s.pcie.spdmSession then b else spdmError 0x12 0x04 0

/-- The answer to a DOE request. -/
def doeAnswer (s : State) (o : DoeObject) : Bytes :=
  match o with
  | .discovery i => doeDiscovery i
  | .getMeasurements nonce =>
    let m := measurements s
    m ++ [byte 0x10] ++ Config.prim .attestSig [tag 0x10, nonce ++ m] 4627
  | .spdm v code p1 p2 body => spdmAnswer s.pcie.spdmSession v code p1 p2 body
  | .keyExchange i =>
    if i = 0 then
      [byte 0x12, byte 0x64] ++ Config.prim .spdm [tag 2, leBytes 8 s.free] (Config.primNat .spdm [tag 2] 0 % 262143)
    else spdmError 0x12 0x01 0
  | .endSession => if s.pcie.spdmSession then [byte 0x12, byte 0x6C, 0, 0] else spdmError 0x12 0x04 0
  | .ideQuery => ideAnswer s (s.pcie.ide.flatMap Ide.bytes)
  | .ideKeyProg i _ => ideAnswer s [byte i]
  | .ideSetGo i => ideAnswer s [byte i]
  | .ideSetStop i => ideAnswer s [byte i]

def updIde (i : Nat) (f : Ide → Ide) (s : State) : State := { s with pcie := { s.pcie with ide := updAt s.pcie.ide i f } }

/-- What a request changes; IDE_KM acts within a secured session only (R60). -/
def doeEffect (o : DoeObject) (s : State) : State :=
  match o with
  | .discovery _ => s
  | .getMeasurements _ => s
  | .spdm _ _ _ _ _ => s
  | .keyExchange i => if i = 0 then { s with pcie := { s.pcie with spdmSession := true } } else s
  | .endSession => { s with pcie := { s.pcie with spdmSession := false } }
  | .ideQuery => s
  | .ideKeyProg i k => if s.pcie.spdmSession then updIde i (fun x => { x with key := k }) s else s
  | .ideSetGo i => if s.pcie.spdmSession then updIde i (fun x => { x with secure := x.keyed }) s else s
  | .ideSetStop i => if s.pcie.spdmSession then updIde i (fun x => { x with secure := false }) s else s

/-! #### IDE streams (R60) -/

/-- The routing ID of a function: the VFs follow the PF (R43). -/
def routingId (s : State) (f : Nat) : Nat := 256 * s.pcie.bus + f

/-- The stream that a function's traffic travels in: the selective stream whose RID range holds its routing ID, otherwise the
link stream. -/
def ideStream (s : State) (f : Nat) : Nat :=
  let holds (x : Ide) : Bool := x.ridValid && x.ridBase ≤ routingId s f && routingId s f ≤ x.ridLimit
  ((List.range 9).find? fun i => i != 0 && (match s.pcie.ide[i]? with | some x => holds x | none => false)).getD 0

/-- A request is served: its response raises source 14 (R504). -/
def serveDoe (o : DoeObject) (s : State) : State := raise 14 (spend (emit (.doe (doeAnswer s o)) (doeEffect o s)))

/-- DOE_REQUEST (R57): before READY a request waits (R55); in SCRAPPED the DOE is powered down (R474). -/
def doeArrives (o : DoeObject) (s : State) : State :=
  if lc s = .scrapped then s
  else if !s.pcie.ready then { s with pcie := { s.pcie with doeWaiting := s.pcie.doeWaiting ++ [o] } }
  else serveDoe o s

def execDoeRequest (obj : DoeObject) (s : State) : Host.Outcome State Fault Refusal := run (configReach (doeArrives obj)) s

/-! ### READY (R54, R119, R131, R253, R412, R459) -/

/-- The master key in BLANK and FACTORY: the curtain rises by itself under the first four conditions of R458, and a
missing key is generated, at once or when the DRBG serves (R253, R459). -/
def readyKeys (s : State) : State :=
  if lc s = .blank || lc s = .factory then
    if s.tmp.curtainDown then
      if (raiseBlocked s).isSome then s
      else if (drawBytes 32 s).isSome then raiseCurtain s else { s with tmp := { s.tmp with raising := true } }
    else if s.keys.mkPresent then s
    else match newMasterKey s with
      | some t => t
      | none => { s with tmp := { s.tmp with raising := true } }
  else s

/-- The seal key is derived when the device becomes ready (R131). -/
def deriveSealKey (s : State) : State :=
  if !s.keys.mkPresent || s.keys.sealPresent then s
  else match drawBytes 32 s with
    | none => s
    | some (v, s) => { s with keys := { s.keys with sealPresent := true, sealKey := sealKeyOf s v } }

/-- The control store is loaded with the images of the plan in force. -/
def loadImages (s : State) : State :=
  match activePlan s with
  | none => { s with scr := { s.scr with maker := none, customer := none } }
  | some p => { s with scr := { s.scr with maker := some p.maker, customer := p.customer } }

/-- READY is set, once the vault's power-up and the compute-die steps are complete. -/
def becomeReady (ptm : Nat) (s : State) : State :=
  if s.pcie.perstHigh && !s.pcie.cfgRetry && s.pwr.up && s.pwr.mains && vaultValid s && !s.pcie.ready then
    let s := deriveSealKey (readyKeys (loadImages s))
    let s := startEpoch ptm s
    let s := { s with pcie := { s.pcie with ready := true, readyTick := s.now, doeWaiting := [] },
                      twn := { s.twn with joinUntil := s.now + s.twn.joinWait * Config.tickPerSecond } }
    s
  else s

/-- READY (R54); the DOE requests that waited are served (R55). -/
def execReady (ptm : Nat) (s : State) : Host.Outcome State Fault Refusal :=
  run (fun s =>
    let t := becomeReady ptm s
    if t.pcie.ready && !s.pcie.ready then s.pcie.doeWaiting.foldl (fun u o => serveDoe o u) t else t) s

/-! ### SMBus (R64, R65) -/

/-- STATE of the telemetry block. -/
def smbState (s : State) : Nat :=
  bnat s.pcie.ready + fld (bnat s.tmp.curtainDown) 1 + fld (bnat s.tmp.hold) 2 + fld (bnat (tileDegraded s)) 3
    + fld (bnat (twinAbsentLive s)) 4 + fld (bnat (oneSource s)) 5

/-- The 28-byte block; temperatures, power and voltages are measured values, which no rule gives. In SCRAPPED only PART,
STEPPING, GRADE and LC_STATE remain (R65). -/
def telemetry (s : State) : Bytes :=
  let head := leBytes 2 0x5200 ++ [byte 0xB0, byte s.otp.grade, byte (lc s).code]
  if lc s = .scrapped then head ++ zeros 23
  else
    head ++ [byte (smbState s)] ++ Config.freeBytes s.free 10 ++ leBytes 4 (hoursOf s.evr.time) ++ leBytes 4 s.evr.cycles
      ++ leBytes 4 s.smb.alerts.toNat

/-- One bit of a byte through the CRC-8 of SMBus, x^8 + x^2 + x + 1. -/
def crc8Bit (c : Byte) : Byte := if c.msb then (c <<< 1) ^^^ 0x07 else c <<< 1

/-- The packet error code of the bytes of a transfer, addresses included. -/
def pec (bs : Bytes) : Byte := bs.foldl (fun c b => crc8Bit (crc8Bit (crc8Bit (crc8Bit (crc8Bit (crc8Bit (crc8Bit (crc8Bit
  (c ^^^ b))))))))) 0

/-- The device's 7-bit address. -/
def smbAddress (s : State) : Nat := 0x58 + s.smb.strap

/-- What a read sends: its bytes, and the packet error code of the whole transfer: the address to write, the command, the
address to read, and the bytes. -/
def smbReply (s : State) (command : Nat) (data : Bytes) : Bytes :=
  data ++ [pec ([byte (2 * smbAddress s), byte command, byte (2 * smbAddress s + 1)] ++ data)]

/-- A transfer with the device's address, where the port is up: an answer, or a NACK. The values measured may differ at
every read. -/
def smbAnswer (c : SmbusCall) (data : Option Bytes) (s : State) : State :=
  if s.smb.up && c.address = smbAddress s then spend (emit (.smbus data) s) else s

/-- What the port does with a command that R64 does not give: a NACK or data, which no rule says. -/
def smbOther (n : Nat) (s : State) : Option Bytes :=
  if Config.choice s.free % 2 = 0 then none else some (Config.freeBytes s.free n)

/-- `n` bytes of the block at the offset that the command byte gives. -/
def smbRead (c : SmbusCall) (n : Nat) (s : State) : State :=
  smbAnswer c (if c.command + n ≤ 28 then some (smbReply s c.command (slice (telemetry s) c.command n)) else smbOther n s) s

/-- SMBUS_READ_BYTE (R64). -/
def execSmbusReadByte (call : SmbusCall) (s : State) : Host.Outcome State Fault Refusal := run (smbRead call 1) s

/-- SMBUS_READ_WORD (R64). -/
def execSmbusReadWord (call : SmbusCall) (s : State) : Host.Outcome State Fault Refusal := run (smbRead call 2) s

/-- The whole block, behind its byte count. -/
def smbBlock (c : SmbusCall) (s : State) : State :=
  smbAnswer c (if c.command = 0x80 then some (smbReply s 0x80 (byte 28 :: telemetry s)) else smbOther 28 s) s

/-- SMBUS_BLOCK_READ (R64). -/
def execSmbusBlockRead (call : SmbusCall) (s : State) : Host.Outcome State Fault Refusal := run (smbBlock call) s

/-- SMBUS_WRITE (R64): a NACK at the command byte, and nothing is written. -/
def execSmbusWrite (call : SmbusCall) (_data : Bytes) (s : State) : Host.Outcome State Fault Refusal :=
  run (smbAnswer call none) s

/-- ALERT_N is asserted (R65). -/
def alertN (s : State) : Bool := s.smb.up && s.smb.alerts != 0 && lc s != .scrapped

/-- The device answers with its address and the packet error code, ALERTS clears, and a condition that still holds sets its
bit again (R65); whether a temperature still lies above its limit, no command says. Bits 2 and 3 stand for events, which do
not persist (assumption log 43). -/
def alertResponse (s : State) : State :=
  if !s.smb.up then s
  else
    let stays (i : Nat) : Bool := Config.choice (s.free + i) % 2 = 1
    let smb := { s.smb with alerts := 0, hotCompute := s.smb.hotCompute && stays 0, hotVault := s.smb.hotVault && stays 1 }
    spend (spend (emit (.smbus (some [byte (smbAddress s), pec [byte 0x19, byte (smbAddress s)]])) { s with smb := smb }))

/-- ALERT_RESPONSE_ADDRESS_READ (R65). -/
def execAlertResponseAddressRead (s : State) : Host.Outcome State Fault Refusal := run alertResponse s

/-- TEMPERATURE_ALERT (R64): the alert bit is set with the others that follow a condition. -/
def execTemperatureAlert (vault : Bool) (s : State) : Host.Outcome State Fault Refusal :=
  run (fun s =>
    let smb := if vault then { s.smb with hotVault := true } else { s.smb with hotCompute := true }
    { s with smb := smb }) s

end Sys2Proof.Machine
end

