-- ==== Sys2Proof/Machine/Lifecycle.lean ====
section
/-! DEFINITION. Life-cycle states (R464 to R475): challenges, the diagnostic unlock, requests, and the steps of a
transition. -/

namespace Sys2Proof.Machine

/-! ### Challenges (R469, R470) -/

/-- A write of 1 to NEW: the challenge before it ends, the answer is captured, and the nonce is drawn or waited for. -/
def newChallenge (s : State) : State :=
  let s := { s with lcs := { s.lcs with challenge := false, answer := padTo 64 (answerHead s), newWanted := true } }
  match servingInst s with
  | none => s
  | some i => drawChallenge i s

/-- The one attempt of a challenge: the response in LCS_RESPONSE, for the PURPOSE and TARGET that LCS_CHAL_CTL holds. -/
def responseOk (s : State) (purpose target : Nat) : Bool :=
  s.lcs.challenge && s.lcs.purpose = purpose && s.lcs.target = target
    && Memory.readN s.lcs.response 0 32 = makerResponse s purpose target

/-- The challenge has served its attempt; a wrong response leaves an event (R489). -/
def useChallenge (ok : Bool) (purpose : Nat) (s : State) : State :=
  if !s.lcs.challenge then s
  else
    let s := { s with lcs := { s.lcs with challenge := false } }
    if ok then s else event 0x0D03 2 deviceWide [byte purpose] s

/-- A write of 1 to UNLOCK, in RETURN (R470). -/
def unlock (s : State) : State :=
  if lc s != .ret then s
  else
    let ok := responseOk s 1 0
    let s := useChallenge ok 1 s
    if ok then { s with lcs := { s.lcs with unlocked := true } } else { s with lcs := { s.lcs with result := 4 } }

/-- LCS_CHAL_CTL takes a value (R469, R475). -/
def writeChalCtl (v : Nat) (s : State) : State :=
  let s := { s with lcs := { s.lcs with purpose := bits v 8 8, target := bits v 14 12 } }
  let s := if bit v 0 then newChallenge s else s
  if bit v 1 then unlock s else s

/-- LCS_CHAL_NEW (R469): a write of LCS_CHAL_CTL with NEW set. -/
def execLcsChalNew (value : BitVec 32) (s : State) : Host.Outcome State Fault Refusal :=
  run (pfWrite 0x600028 (writeChalCtl (value.toNat ||| 1))) s

/-- LCS_CHAL_UNLOCK (R470). -/
def execLcsChalUnlock (s : State) : Host.Outcome State Fault Refusal := run (pfWrite 0x600028 unlock) s

/-! ### Requests (R468, R471) -/

/-- The state before the transition: the present one, or for a LOCKED device the one its pending transition started from. -/
def sourceOf (s : State) : LcState := if lc s = .locked then s.otp.sourceState else lc s

/-- The transition is permitted, and for a LOCKED device it is the pending one. -/
def transitionOk (s : State) (t : Nat) : Bool :=
  match lc s with
  | .blank => t = 1 || t = 4
  | .factory => t = 2 || t = 4
  | .sealed => t = 3 || t = 4
  | .ret => t = 4
  | .scrapped => false
  | .locked => t = s.otp.pendingTarget

/-- Approval and response of a transition (R468): both, one, or either. -/
inductive Authority where
  | response | approval | both | either
  deriving DecidableEq, Repr

def authorityOf (s : State) (t : Nat) : Authority :=
  if t = 4 then
    (if lc s = .locked then .either
     else match lc s with
       | .blank => .either
       | .factory => .either
       | _ => .approval)
  else if t = 3 then .both else .response

/-- The action of a transition's approval (R437). -/
def approvalAction (t : Nat) : Nat := if t = 3 then 3 else 4

/-- The seat number under which a transition reserves its approval: none of the 16,384. -/
def transitionSeat : Nat := 16384

/-- The held approval is reserved for the transition (R441); none where no such approval is held. -/
def reserveApproval (t : Nat) (s : State) : Option State :=
  match s.tkb.approval with
  | .held c =>
    if c.action = approvalAction t ∧ c.arg = zeros 64 then
      some { s with tkb := { s.tkb with approval := .reserved c transitionSeat }, lcs := { s.lcs with approval := true } }
    else none
  | _ => none

/-- The reservation lapses with its transition. -/
def lapseTransition (s : State) : State :=
  lapseApproval transitionSeat { s with lcs := { s.lcs with approval := false } }

def requestResult (r : Nat) (s : State) : State := { s with lcs := { s.lcs with result := r } }

/-- The authority is presented: the result that refuses the request, and the state with the challenge used and the approval
reserved. -/
def presentAuthority (t : Nat) (s : State) : Nat × State :=
  let ok := responseOk s 0 t
  match authorityOf s t with
  | .response => (if ok then 1 else 4, useChallenge ok 0 s)
  | .approval => (match reserveApproval t s with | some s => (1, s) | none => (3, s))
  | .both => (match reserveApproval t s with
    | none => (3, s)
    | some s => if ok then (1, useChallenge ok 0 s) else (4, lapseTransition (useChallenge ok 0 s)))
  | .either =>
    let s := useChallenge ok 0 s
    if ok then (1, s) else (match reserveApproval t s with | some s => (1, s) | none => (3, s))

/-- S_maker is all zeros where a maker response is required. -/
def noSecret (s : State) (t : Nat) : Bool :=
  (authorityOf s t = .response || authorityOf s t = .both) && s.otp.makerSecret.all fun b => b = 0

/-- Step 1: the curtain drops, but not for BLANK to FACTORY; step 2 starts. -/
def startTransition (t : Nat) (s : State) : State :=
  let from_ := (sourceOf s).code
  let s := if t = 1 then s else dropCurtain 45 s
  { s with lcs := { s.lcs with transition := .programming t from_ } }

/-- LCS_REQUEST.TARGET takes a value (R471). -/
def requestTransition (v : Nat) (s : State) : State :=
  let t := v % 8
  if t = 0 then s
  else
    let s := { s with lcs := { s.lcs with request := t, resultTarget := t } }
    if s.lcs.transition != .none then requestResult 6 s
    else if !s.pwr.pwrfailHigh then requestResult 5 s
    else if !transitionOk s t then requestResult 2 s
    else if noSecret s t then requestResult 7 s
    else
      let (r, s) := presentAuthority t s
      let s := requestResult r s
      if r = 1 then startTransition t s else s

/-- LCS_REQUEST (R471). -/
def execLcsRequest (target : Nat) (s : State) : Host.Outcome State Fault Refusal :=
  run (pfGuarded 0x600018 (requestTransition target)) s

/-! ### The steps (R472) -/

/-- The group of a target with its eight bits programmed, besides those that were (R464). -/
def fillGroup (t : Nat) (o : Otp) : Otp :=
  match t with
  | 1 => { o with g0 := o.g0 ||| fullGroup }
  | 2 => { o with g1 := o.g1 ||| fullGroup }
  | 3 => { o with g2 := o.g2 ||| fullGroup }
  | _ => { o with g3 := o.g3 ||| fullGroup }

/-- The approval of a transition is consumed at its commit instant (R468). -/
def consumeTransition (s : State) : State :=
  let s := { s with lcs := { s.lcs with approval := false } }
  match s.tkb.approval with
  | .reserved _ k => if k = transitionSeat then { s with tkb := { s.tkb with approval := .none } } else s
  | _ => s

/-- What the commit instant starts: nothing more for FACTORY; floors and the curtain's rise for SEALED; the wipe for RETURN
and SCRAPPED; a SCRAPPED device retrains its link and offers no VF (R474). -/
def afterProgramming (t : Nat) (s : State) : State :=
  let wiping (s : State) : State := { s with lcs := { s.lcs with transition := .wiping t } }
  match t with
  | 1 => { s with lcs := { s.lcs with transition := .none } }
  | 2 => raiseFloors (wiping { s with tmp := { s.tmp with raising := true } })
  | 3 => wiping s
  | _ =>
    let s := resetHot (wiping s)
    { s with pcie := { s.pcie with vfEnable := false, numVfs := 0, vfs := 0,
                                   link := s.pcie.link.map fun _ => { speed := 1, lanes := 1 } } }

/-- The fuses once the group of the transition in progress is full. -/
def programmedOtp (s : State) : Otp :=
  match s.lcs.transition with
  | .programming t _ => fillGroup t s.otp
  | _ => s.otp

/-- Step 2 ends: the group is full, and the transition commits. -/
def groupProgrammed (s : State) : State :=
  match s.lcs.transition with
  | .programming t from_ =>
    let s := consumeTransition s
    let s := event 0x0D01 4 deviceWide [byte from_, byte (lc s).code] s
    let s := if from_ = 2 && paired s then unpair s else s
    afterProgramming t s
  | _ => s

/-- LC_GROUP_PROGRAMMED (R464, R472). -/
def execLcGroupProgrammed (s : State) : Host.Outcome State Fault Refusal := runOtp programmedOtp groupProgrammed s

/-- Stage 3 is done, and journal and slot directory are overwritten (R472). -/
def wipeKeys (s : State) : State :=
  { s with keys := { s.keys with slots := [], stateful := [], log := [], unitNext := 0, written := 0,
                                 overwriteBusy := false } }

/-- What entry into SCRAPPED leaves: nothing of MRAM or BBRAM. -/
def wipeAll (s : State) : State :=
  let s := wipeKeys s
  let homeless : Ten := { s.ten with table := [], homes := [], eraseCount := [] }
  { s with
    ten := homeless,
    keys := { s.keys with mkPresent := false, master := [], sealPresent := false, sealKey := [], curves := [], seq := 0, ackedSeq := 0, head := 0, journal := [],
                          liveness := none },
    stg := { s.stg with bankA := none, bankB := none, minSvn := 0, overlayMax := s.stg.overlayMax },
    scr := { s.scr with keys := [none, none], minSvn := 0 },
    twn := { s.twn with record := none, state := .unpaired },
    tkb := { s.tkb with authority := none, enrolled := [], quorum := 1 },
    evr := { s.evr with buffer := [], waiting := [], flushing := 0, opening := [], running := [], history := [] },
    box := { s.box with stored := 0 } }

/-- The fuses once the wipe in progress is complete: its mark in the WIPE group, and for SCRAPPED the maker's secret and the
trims, overwritten with ones. -/
def wipedOtp (s : State) : Otp :=
  match s.lcs.transition with
  | .wiping t =>
    if t = 3 then { s.otp with wipe := s.otp.wipe ||| 0x005A }
    else if t = 4 then
      let ones : Bytes := List.replicate 32 0xFF
      { s.otp with wipe := s.otp.wipe ||| 0x5A00, trimsErased := true, makerSecret := ones }
    else s.otp
  | _ => s.otp

/-- Steps 3 and 4 end (R472): the wipe. -/
def wipeComplete (s : State) : State :=
  match s.lcs.transition with
  | .wiping t =>
    let finished (s : State) : State := { s with lcs := { s.lcs with transition := .none } }
    if t = 3 then finished (wipeKeys s) else if t = 4 then finished (wipeAll s) else s
  | _ => s

/-- LC_WIPE_COMPLETE (R472, R473). -/
def execLcWipeComplete (s : State) : Host.Outcome State Fault Refusal := runOtp wipedOtp wipeComplete s

end Sys2Proof.Machine
end

