-- ==== Sys2Proof/Machine/Power.lean ====
section
/-! DEFINITION. Power (R461, R462, R473, R478, R480, R488, R514 to R523): the vault die's power-up sequence, the loss of main
supply with and without PWRFAIL_N, and the switch-over to the backup domain. -/

namespace Sys2Proof.Machine

/-! ### What a loss of main supply loses -/

/-- The volatile side of the token bus; what MRAM holds stays (R436, R441). -/
def Tkb.lose (t : Tkb) : Tkb :=
  { Tkb.first with authority := t.authority, enrolled := t.enrolled, quorum := t.quorum }

/-- The volatile side of a monitor channel; policy and filter are in MRAM (R463). -/
def Mon.lose (m : Mon) : Mon :=
  { m with asserted := false, raw := false, heldRaised := false, chatter := 0, stamps := [], lastFire := none }

/-- A tile without its run, its leases and its script cache; retired tiles stay retired (R319). -/
def Tile.lose (t : Tile) : Tile := { t with busy := 0, retireWanted := false, next := none, cached := [], cachedB := [] }

/-- The life-cycle block keeps only the progress of a wipe; a programming step ends with its group full or partial (R473). -/
def Lcs.lose (l : Lcs) : Lcs :=
  { Lcs.first with transition := match l.transition with | .wiping t => .wiping t | _ => .none }

/-- The token buckets and what was suppressed are lost; the log and its next number are in MRAM, or resumed (R480). -/
def Evr.lose (e : Evr) : Evr := { e with buffer := [], waiting := [], flushing := 0, buckets := [], suppressed := [] }

/-- A paired device starts absent; nothing of a session stays (R411). -/
def Twn.lose (t : Twn) : Twn :=
  { t with linkUp := false, state := if t.record.isSome then .absent else .unpaired, yielding := [], diverged := [],
           peerState := 0, peerCurtain := false, peerContext := [], held := [], snapshot := none, asker := none }

/-- The device after the loss of its main supply (R31, R123, R177, R231, R239, R441, R522): operations, streams, rings and
meters are gone, and what MRAM, BBRAM and OTP hold stays. -/
def loseSupply (s : State) : State :=
  let s := loseMeters (resetCompute s)
  let s := endSession (clearRandom (closeStreams s))
  let perst := s.pcie.perstHigh
  let ush : Ush := { rings := [], adminSq := 0, adminCq := 0, adminCfg := 0, setupErr := false, budget := 256, halts := [],
                     halted := [], granted := 0, passed := [] }
  let ten : Ten := { s.ten with mail := [], mailSel := 0, quiescing := [], resets := [] }
  let rng : Rng := { s.rng with srcs := [Source.first, Source.first], katDone := false, katFail := false }
  let til : Til := { s.til with tiles := s.til.tiles.map Tile.lose, retire := 63, leased := [] }
  let keys : Keys := { s.keys with commitCredit := 81920, unitCredit := 655360, creditTick := s.now, slotReady := [],
                                   replayDone := false }
  let dig : Dig := { s.dig with gens := [] }
  let scr : Scr := { s.scr with maker := none, customer := none }
  let tmp : Tmp := { s.tmp with mons := s.tmp.mons.map Mon.lose, hold := false, raising := false, dropTick := none,
                                lastHold := none,
                                curtainResult := 0, policyChannel := 0, policyResult := 0 }
  let smb : Smb := { s.smb with up := false, alerts := 0, hotCompute := false, hotVault := false }
  { s with
    pcie := { Pcie.first with perstHigh := perst }, ush := ush, ten := ten, rng := rng, til := til, keys := keys, dig := dig,
    scr := scr, tmp := tmp, smb := smb, tkb := s.tkb.lose, lcs := s.lcs.lose, evr := s.evr.lose, twn := s.twn.lose,
    glb := { s.glb with counters := [] }, pwr := { s.pwr with up := false } }

/-! ### PWRFAIL_N (R473, R478, R480, R517) -/

/-- Every record of the buffer reaches MRAM, with those that waited. -/
def flushAll (s : State) : State :=
  let all := s.evr.buffer
  let s := all.foldl storeRecord { s with evr := { s.evr with buffer := [], flushing := 0 } }
  let s := enterWaiting s
  s.evr.buffer.foldl storeRecord { s with evr := { s.evr with buffer := [], flushing := 0 } }

/-- PWRFAIL_N says nothing new: it is low already, or a supply of the vault is absent. -/
def fallIgnored (s : State) : Bool := !s.pwr.vault || !s.pwr.vhold || !s.pwr.pwrfailHigh

/-- A group in programming completes within the hold-up (R517). -/
def fallOtp (s : State) : Otp := if fallIgnored s then s.otp else programmedOtp s

/-- PWRFAIL_N falls: the supply counts as lost; within the hold-up the journal record in progress, the event flush with its
POWER_FAIL record, the save of the operating time and a life-cycle group in programming complete. -/
def pwrfailFalls (s : State) : State :=
  if fallIgnored s then s
  else
    let s := event 0x0002 2 deviceWide [] (groupProgrammed s)
    let s := flushAll s
    let s := { s with evr := { s.evr with saved := s.evr.time } }
    let s := loseSupply s
    { s with pwr := { s.pwr with pwrfailHigh := false } }

/-- PWRFAIL_N_FALL (R517). -/
def execPwrfailNFall (s : State) : Host.Outcome State Fault Refusal := runOtp fallOtp pwrfailFalls s

/-- PWRFAIL_N rises while every supply stayed valid: the PCIe link went down as for a hot reset, and the power-up sequence
starts again (R517). -/
def execPwrfailNRise (s : State) : Host.Outcome State Fault Refusal :=
  run (fun s =>
    if s.pwr.pwrfailHigh then s
    else
      let s := resetHot s
      { s with pwr := { s.pwr with pwrfailHigh := true, up := false } }) s

/-! ### The supply goes (R473, R478, R480) -/

/-- The bits of a group in programming order (R464). -/
def groupBits : List Nat := [0, 1, 6, 7, 8, 10, 13, 15]

/-- A group in which the lowest `n` of its eight bits are programmed, besides those that were. -/
def partGroup (g : BitVec 16) (n : Nat) : BitVec 16 :=
  g ||| BitVec.ofNat 16 (sumOf ((groupBits.take n).map fun b => 2 ^ b))

/-- An interrupted programming leaves a partial group; how many of its bits were reached, no rule says: 1 to 7 (R473). -/
def interruptedOtp (s : State) : Otp :=
  match s.lcs.transition with
  | .programming t _ =>
    let n := 1 + Config.choice s.free % 7
    let o := s.otp
    (match t with
      | 1 => { o with g0 := partGroup o.g0 n }
      | 2 => { o with g1 := partGroup o.g1 n }
      | 3 => { o with g2 := partGroup o.g2 n }
      | _ => { o with g3 := partGroup o.g3 n })
  | _ => s.otp

/-- The supply goes without PWRFAIL_N having fallen before. -/
def sudden (s : State) : Bool := s.pwr.pwrfailHigh && s.pwr.vault

def supplyOtp (s : State) : Otp := if sudden s then interruptedOtp s else s.otp

/-- The supply's effects without PWRFAIL_N: what was not flushed is lost, and operating time resumes from the value last saved
(R478, R480, R518). -/
def dropSupply (s : State) : State :=
  if sudden s then loseSupply { spend s with evr := { s.evr with buffer := [], waiting := [], time := s.evr.saved } } else s

/-- The supplies of both dies are gone. -/
def supplyGone (s : State) : State :=
  let s := dropSupply s
  { s with pwr := { s.pwr with vault := false, mains := false, up := false } }

/-- SUPPLY_LOSS (R480, R518). -/
def execSupplyLoss (s : State) : Host.Outcome State Fault Refusal := runOtp supplyOtp supplyGone s

/-- VDD_VAULT and VHOLD are both absent: the backup domain takes VBAT, and watches the TAMP_IN lines that are armed (R460,
R519). -/
def switchOver (s : State) : State :=
  if s.tmp.onBackup then s
  else
    let armed := armedLines s
    let s := supplyGone s
    { s with pwr := { s.pwr with vhold := false }, tmp := { s.tmp with onBackup := true, armed := armed } }

def switchOtp (s : State) : Otp := if s.tmp.onBackup then s.otp else supplyOtp s

/-- BACKUP_SWITCHOVER (R460). -/
def execBackupSwitchover (s : State) : Host.Outcome State Fault Refusal := runOtp switchOtp switchOver s

/-! ### The power-up sequence of the vault die (R522) -/

/-- The last record in MRAM. -/
def lastStored (s : State) : Option Evt :=
  match s.evr.running.getLast? with
  | some e => some e
  | none => s.evr.opening.getLast?

/-- The records of a power-up in their order (R480, R488): numbering resumes 513 above the highest flushed number when the
last record is not POWER_FAIL. -/
def powerUpRecords (s : State) : State :=
  match lastStored s with
  | none => event 0x0001 0 deviceWide [byte 3] s
  | some e =>
    if e.code = 0x0002 then event 0x0001 0 deviceWide [byte 1] s
    else
      let s := { s with evr := { s.evr with next := (e.sequence + 513) % 2 ^ 32 } }
      let s := event 0x0001 0 deviceWide [byte 0] s
      event 0x0003 2 deviceWide (leBytes 4 ((e.sequence + 1) % 2 ^ 32) ++ leBytes 4 512) s

/-- One record imported from the backup domain (R462, R488). -/
def importRecord (code : Nat) (detail : Bytes) (s : State) : State :=
  recordEvt { mkEvt s code 4 deviceWide detail with backup := true } s

/-- The record of a latch entry (R461, R489). -/
def importEntry (s : State) (e : Latch) : State :=
  importRecord 0x0A06 ([byte e.channel, byte (bnat e.cleared)] ++ leBytes 6 e.bclk ++ [byte e.unkept]) s

/-- The backup latch is imported and cleared; with no valid key and an empty latch, VBAT was lost (R462). -/
def importLatch (s : State) : State :=
  let l := s.tmp.latch
  let lost := l = [] && !s.keys.mkPresent
  let s := if lost then importRecord 0x0A07 [] s else l.foldl importEntry s
  { s with tmp := { s.tmp with latch := [], imported := l.length, backupLost := lost,
                               backupEvents := l != [] || lost, onBackup := false } }

/-- The stage-plan check: the active bank, or the other on fallback, or no plan (R389). -/
def checkPlans (s : State) : State :=
  let a := s.stg.active
  let s := { s with stg := { s.stg with fallback := false, noPlan := false } }
  match bankCheck s a with
  | none => s
  | some n =>
    let s := recordRefusal a (bankOf s a) n s
    match bankCheck s !a with
    | none =>
      event 0x0802 2 deviceWide [byte (bnat !a)] { s with stg := { s.stg with active := !a, fallback := true } }
    | some m =>
      let s := recordRefusal (!a) (bankOf s !a) m s
      { s with stg := { s.stg with noPlan := true } }

/-- The plan in force shapes the tiles and raises the floors (R382, R454). -/
def enforcePlan (s : State) : State :=
  match activePlan s with
  | none => raiseFloors s
  | some p => raiseFloors { s with til := { s.til with tiles := s.til.tiles.map (reconfigure p) } }

/-- The wipe that a WIPE byte does not mark as complete goes on, and so does the rise of entry into SEALED (R472, R473). -/
def resumeTransition (s : State) : State :=
  let w := s.otp.wipe.toNat
  let t : Transition :=
    if lc s = .ret && bits w 7 0 != 0x5A then .wiping 3
    else if lc s = .scrapped && bits w 15 8 != 0x5A then .wiping 4
    else s.lcs.transition
  { s with lcs := { s.lcs with transition := t }, tmp := { s.tmp with raising := decide (t = .wiping 2) } }

/-- The entropy sources start up; the known-answer tests pass, or the device serves no randomness and channel 46 counts an
event (R294, R297). -/
def startRandom (katOk : Bool) (s : State) : State :=
  let src : Source := { Source.first with state := .startUp }
  let s := { s with rng := { s.rng with srcs := [src, src], katDone := true, katFail := !katOk } }
  if katOk then s else countEvent 46 s

/-- A device that needs an approval to raise its curtain and finds no master key comes up with it down (R253). -/
def missingKey (s : State) : State :=
  if raiseNeedsApproval s && !s.keys.mkPresent then { s with tmp := { s.tmp with curtainDown := true } } else s

/-- The vault's supplies are valid and PWRFAIL_N is high: the steps of R522. The power-cycle count rises when VDD_VAULT was
absent (R478). -/
def powerUp (katOk : Bool) (s : State) : State :=
  if s.pwr.up || (s.pwr.vault && !s.pwr.pwrfailHigh) then s
  else
    let cycles := if s.pwr.vault then s.evr.cycles else s.evr.cycles + 1
    let s := { s with pwr := { s.pwr with vault := true, vhold := true, pwrfailHigh := true, up := true },
                      evr := { s.evr with cycles := cycles }, smb := { s.smb with up := true } }
    if lc s = .scrapped then resumeTransition { s with tmp := { s.tmp with onBackup := false } }
    else
      let s := importLatch (powerUpRecords s)
      let s := if lc s = .locked then event 0x0D02 4 deviceWide [byte s.otp.pendingTarget] s else s
      let s := startRandom katOk (missingKey s)
      let s := { s with keys := { s.keys with replayDone := true } }
      let s := enforcePlan (checkPlans s)
      let s := if paired s then { s with twn := { s.twn with state := .absent } } else s
      resumeTransition s

/-- VAULT_POWER_UP (R522). -/
def execVaultPowerUp (katOk : Bool) (s : State) : Host.Outcome State Fault Refusal := run (powerUp katOk) s

end Sys2Proof.Machine
end

