-- ==== Sys2Proof/Machine/Raw.lean ====
section
/-! DEFINITION. The raw arithmetic commands (R224 to R227): defined for every operand. -/

namespace Sys2Proof.Machine

/-- The maker script image that an unspecified result depends on (R226). -/
def makerImage (s : State) (x : Seat) : List Nat :=
  match bankOf s x.bank with
  | none => []
  | some p => p.maker.digest.map BitVec.toNat

/-- A handle or a key fragment ends a raw command (R224); a handle is checked for every opcode alike (R532). -/
def rawOutcome (x : Seat) (iv : Nat) (out : Bytes) : Outcome :=
  if x.frags.any Fragment.isKey then ended .invalidInput iv else done out iv []

/-- The unspecified value for an even modulus: an integer below 2^L. -/
def evenResult (s : State) (x : Seat) (input : Bytes) (w : Nat) : Nat :=
  Config.evenModulus (tag x.entry.opc ++ input) x.entry.ps (makerImage s x) % 2 ^ (64 * w)

/-- A result modulo an odd m, or the unspecified one. -/
def modResult (s : State) (x : Seat) (input : Bytes) (w m v : Nat) : Bytes :=
  beBytes (8 * w) (if m % 2 = 1 then v else evenResult s x input w)

/-- Operand `i` of a raw command on `w` words. -/
def operand (input : Bytes) (w i : Nat) : Nat := beNat (slice input (8 * w * i) (8 * w))

def modMul (s : State) (x : Seat) (input : Bytes) : Outcome :=
  let w := x.entry.ps
  let m := operand input w 0
  rawOutcome x (400 + 2 * rsaM w) (modResult s x input w m (operand input w 1 * operand input w 2 % m))

/-- OP_MODMUL (R226). -/
def execOpModmul (k : Nat) (s : State) : Host.Outcome State Fault Refusal := run (compute k 0x780 modMul) s

def modExp (s : State) (x : Seat) (input : Bytes) : Outcome :=
  let w := x.entry.ps
  let m := operand input w 0
  rawOutcome x (1200 + 128 * x.entry.argN 0 2 * rsaM w)
    (modResult s x input w m (powMod (operand input w 1) (beNat (input.drop (16 * w))) m))

/-- OP_MODEXP (R226). -/
def execOpModexp (k : Nat) (s : State) : Host.Outcome State Fault Refusal := run (compute k 0x781 modExp) s

def modInv (s : State) (x : Seat) (input : Bytes) : Outcome :=
  let w := x.entry.ps
  let m := operand input w 0
  rawOutcome x (1600 + 192 * w * ceilDiv w 8) (modResult s x input w m (invMod (operand input w 1) m))

/-- OP_MODINV (R226). -/
def execOpModinv (k : Nat) (s : State) : Host.Outcome State Fault Refusal := run (compute k 0x782 modInv) s

/-- kP for a point of the group, what the formulas produce for another one (R226). -/
def rawPoint (s : State) (x : Seat) (c : Curve) (input : Bytes) : Nat × Nat :=
  let nk := words8 c.nb
  let nf := words8 c.fb
  let px := beNat (slice input nk nf) % c.p
  let py := beNat (slice input (nk + nf) nf) % c.p
  if inGroup c px py then (pointMul c (beNat (input.take nk)) (some (px, py))).getD (0, 0)
  else
    let r := Config.offCurve input x.entry.ps (makerImage s x)
    (r.1 % c.p, r.2 % c.p)

/-- On an empty curve slot E_PARAM_SET comes before the refusal of a key fragment; which of the two is reported, no rule says
(DESIGN CHOICE, log 120; R205, R224). -/
def ecPointMul (s : State) (x : Seat) (input : Bytes) : Outcome :=
  let c := (curveOf s x.entry.ps).getD emptyCurve
  let iv := curvePM c + 4000
  let q := rawPoint s x c input
  if curveEmpty s x.entry.ps then ended .paramSet iv
  else rawOutcome x iv (beBytes (words8 c.fb) q.1 ++ beBytes (words8 c.fb) q.2)

/-- OP_EC_POINT_MUL (R226). -/
def execOpEcPointMul (k : Nat) (s : State) : Host.Outcome State Fault Refusal := run (compute k 0x788 ecPointMul) s

end Sys2Proof.Machine
end

