-- ==== Sys2Proof/Machine/Tokens.lean ====
section
/-! DEFINITION. The token bus and the operator quorum (R421 to R443): frames, identification, blocks, messages, ceremonies
and enrollment. A command row carries what the bus answered. -/

namespace Sys2Proof.Machine

/-! ### Checks (R423, R424, R428) -/

/-- One step of a CRC of `w` bits that takes its bits highest first. -/
def crcBit (w poly : Nat) (c : Nat) (b : Bool) : Nat :=
  let c' := 2 * c % 2 ^ w
  if bit c (w - 1) != b then c' ^^^ poly else c'

/-- The CHECK of a frame: CRC-8 over bits [39:0] in the order sent. -/
def frameCheck (v : Nat) : Nat := (List.range 40).foldl (fun c i => crcBit 8 0x07 c (bit v i)) 0xFF

/-- The check of a data phase: CRC-16, polynomial 0x8005, no reflection. -/
def phaseCheck (bs : Bytes) : Nat :=
  bs.foldl (fun c b => (List.range 8).foldl (fun c i => crcBit 16 0x8005 c (b.getLsbD (7 - i))) c) 0xFFFF

/-- One step of the reflected CRC of R428. -/
def edcBit (c : Nat) (b : Bool) : Nat := if bit c 0 != b then (c / 2) ^^^ 0x8408 else c / 2

/-- The EDC of a block: CRC-16, polynomial 0x1021, reflected, inverted. -/
def edc (bs : Bytes) : Nat :=
  (bs.foldl (fun c b => (List.range 8).foldl (fun c i => edcBit c (b.getLsbD i)) c) 0xFFFF) ^^^ 0xFFFF

/-- A data phase as received: its bytes, where its check is good. -/
def phaseBytes (d : Bytes) : Option Bytes :=
  let body := d.take (d.length - 2)
  if 2 ≤ d.length ∧ leNat (d.drop (d.length - 2)) = phaseCheck body then some body else none

/-! ### Frames (R423) -/

/-- A command frame of the device. -/
def commandFrame (opc tag param : Nat) : BitVec 48 :=
  let v := opc + fld tag 5 + fld (param % 2 ^ 32) 8
  BitVec.ofNat 48 (v + fld (frameCheck v) 40)

def frameOpc (f : BitVec 48) : Nat := bits f.toNat 3 0
def frameTag (f : BitVec 48) : Nat := bits f.toNat 7 5
def frameParam (f : BitVec 48) : Nat := bits f.toNat 39 8

/-- The reply of a token to a command: its CHECK is good, it comes from a token, and it echoes OPC and TAG. -/
def replyOk (cmd reply : BitVec 48) : Bool :=
  bits reply.toNat 47 40 = frameCheck (bits reply.toNat 39 0) && reply.getLsbD 4
    && frameOpc reply = frameOpc cmd && frameTag reply = frameTag cmd

/-- The bus is powered: not in SCRAPPED (R442). -/
def busRuns (s : State) : Bool := s.pwr.up && lc s != .scrapped

/-- A frame is sent, with the next TAG. -/
def sendFrame (opc param : Nat) (s : State) : State :=
  let f := commandFrame opc s.tkb.tag param
  emit (.tkFrame f) { s with tkb := { s.tkb with tag := (s.tkb.tag + 1) % 8, bus := .await f 0 } }

def setBus (b : BusState) (s : State) : State := { s with tkb := { s.tkb with bus := b } }

/-- A token slot changed. -/
def updTok (i : Nat) (f : TokSlot → TokSlot) (s : State) : State :=
  { s with tkb := { s.tkb with slots := updAt s.tkb.slots i f } }

def tokAt (s : State) (i : Nat) : TokSlot := (s.tkb.slots[i]?).getD TokSlot.first

/-- The slot of the attached token, where its location is known and it is not FAULTY (R434). -/
def attachedSlot (s : State) : Option Nat :=
  match s.tkb.attached with
  | none => none
  | some a => (List.range 8).find? fun i => (tokAt s i).addr = a && (tokAt s i).state = .identified

/-- What was under way with the attached token ends. -/
def endExchange (s : State) : State :=
  { s with tkb := { s.tkb with bus := .idle, sent := none, message := [], ackPending := false, faulty := 0, resyncs := 0,
                               expired := false, wtx := 1 } }

/-- A token is marked FAULTY and detached (R434, R489). -/
def markFaulty (i cause : Nat) (s : State) : State :=
  let id := match (tokAt s i).id with | some v => some v | none => s.tkb.naming.map Prod.fst
  let s := updTok i (fun t => { t with state := .faulty, asked := false }) (endExchange s)
  let s := { s with tkb := { s.tkb with attached := none, naming := none, winner := none } }
  event 0x0C01 1 deviceWide
    ([byte i, byte cause, byte (bnat id.isSome), 0] ++ leBytes 8 (match id with | some v => v.toNat | none => 0)) s

/-- The slot of the token that a command concerns: the attached one's, or, before its location is known, a slot whose token
is not identified; where there are several, no rule says which. -/
def concernedSlot (s : State) : Option Nat :=
  match attachedSlot s with
  | some i => some i
  | none => pick s ((List.range 8).filter fun i => (tokAt s i).state = .debouncing)

/-- No reply to the last of the attempts: the token is FAULTY. -/
def giveUp (cause : Nat) (s : State) : State :=
  match concernedSlot s with
  | some i => markFaulty i cause (spend s)
  | none => setBus .idle s

/-- A command got no valid reply: it is sent again with the next TAG, up to 3 times (R423). -/
def resendCommand (s : State) : State :=
  match s.tkb.bus with
  | .await f n =>
    if n < 3 then
      let g := commandFrame (frameOpc f) s.tkb.tag (frameParam f)
      bump Ctr.tkbRetries 1
        (emit (.tkFrame g) { s with tkb := { s.tkb with tag := (s.tkb.tag + 1) % 8, bus := .await g (n + 1) } })
    else giveUp 0 s
  | _ => s

/-- TOKEN_REPLY_TIMEOUT (R423). -/
def execTokenReplyTimeout (s : State) : Host.Outcome State Fault Refusal := run resendCommand s

/-- A command is sent, unless it is the one that was sent again and awaits its reply, and the reply is taken: `k` goes on with
its PARAM. -/
def command (opc param : Nat) (reply : BitVec 48) (k : Nat → State → State) (s : State) : State :=
  if !busRuns s then s
  else
    let again := match s.tkb.bus with
      | .await f _ => frameOpc f = opc && frameParam f = param % 2 ^ 32
      | _ => false
    let s := if again then s else sendFrame opc param s
    match s.tkb.bus with
    | .await f _ => if replyOk f reply then k (frameParam reply) (setBus .idle s) else resendCommand s
    | _ => s

/-! ### Identification (R422, R425, R426) -/

/-- The bus is reset: no token keeps a bus address, and each is to be identified again (R423). -/
def resetBus (s : State) : State :=
  let clear (t : TokSlot) : TokSlot :=
    if t.state = .identified then { t with state := .debouncing, addr := 0, mode := 0, cert := none } else { t with mode := 0 }
  let s := endExchange s
  let s := sendFrame 0 0x5A5A { s with tkb := { s.tkb with slots := s.tkb.slots.map clear, attached := none, naming := none,
                                                            winner := none } }
  setBus .idle s

/-- BUS_RESET (R423). -/
def execBusReset (s : State) : Host.Outcome State Fault Refusal := run (fun s => if busRuns s then resetBus s else s) s

/-- ARBITRATE is sent. -/
def startArbitration (s : State) : State := setBus .arbitrating (sendFrame 1 0 s)

/-- A token is inserted: after each insertion the device sends ARBITRATE. -/
def insertToken (i : Nat) (s : State) : State :=
  if !busRuns s || 8 ≤ i || (tokAt s i).present then s
  else
    let s := updTok i (fun t => { t with present := true, state := .debouncing }) s
    if s.tkb.bus = .idle then startArbitration s else s

/-- TOKEN_INSERTED (R422). -/
def execTokenInserted (slot : Nat) (s : State) : Host.Outcome State Fault Refusal := run (insertToken slot) s

/-- The round's 128 bits are read; all ones mean that no token answered (R425). -/
def takeRound (v : Nat) (s : State) : State :=
  if !busRuns s then s
  else
    let s := if s.tkb.bus = .arbitrating then s else startArbitration s
    let id := v % 2 ^ 128
    setBus .idle { s with tkb := { s.tkb with winner := if id = 2 ^ 128 - 1 then none else some (BitVec.ofNat 128 id) } }

/-- ARBITRATE (R425). -/
def execArbitrate (read : Nat) (s : State) : Host.Outcome State Fault Refusal := run (takeRound read) s

/-- The next bus address that no present token holds, from 0x0001 upward. -/
def freshAddr (s : State) : Nat → Nat → Nat
  | 0, a => a
  | fuel + 1, a =>
    if a % 65536 = 0 then freshAddr s fuel (a + 1)
    else if s.tkb.slots.any fun t => t.addr = a % 65536 then freshAddr s fuel (a + 1)
    else a % 65536

/-- The winner is NAMED with its bus address. -/
def assignAddr (reply : BitVec 48) (s : State) : State :=
  match s.tkb.winner with
  | none => s
  | some id =>
    let a := freshAddr s 10 s.tkb.nextAddr
    command 2 a reply (fun p s =>
      if p % 65536 = a then
        { s with tkb := { s.tkb with naming := some (id, a), winner := none, nextAddr := (a + 1) % 65536 } }
      else s) s

/-- ASSIGN (R425). -/
def execAssign (reply : BitVec 48) (s : State) : Host.Outcome State Fault Refusal := run (assignAddr reply) s

/-- A token is attached; the sequence bits of a newly named one start at 0, and its IFSC is not known yet (R428). No token
answers address 0, which detaches all. -/
def attachTo (a : Nat) (s : State) : State :=
  let new := match s.tkb.naming with | some (_, b) => decide (a = b) | none => false
  let s := { s with tkb := { s.tkb with attached := some a } }
  if new then { s with tkb := { s.tkb with recvNs := false } } else s

/-- The bus address belongs to a FAULTY token, which receives no commands (R434). -/
def faultyAddr (s : State) (a : Nat) : Bool := s.tkb.slots.any fun t => t.state = .faulty && t.addr = a

/-- ATTACH (R423). -/
def execAttach (addr : Nat) (reply : BitVec 48) (s : State) : Host.Outcome State Fault Refusal :=
  run (fun s =>
    let a := addr % 65536
    if a = 0 then (if busRuns s then setBus .idle (sendFrame 3 0 { s with tkb := { s.tkb with attached := none } }) else s)
    else if faultyAddr s a then s
    else command 3 a reply (fun _ s => attachTo a s) s) s

/-- LOCATE: the window opens for the token being named, which is attached (R426). -/
def startLocate (s : State) : State :=
  match s.tkb.naming with
  | none => s
  | some (_, a) => if busRuns s && s.tkb.attached = some a then setBus (.located none) (sendFrame 9 0 s) else s

/-- LOCATE (R426). -/
def execLocate (s : State) : Host.Outcome State Fault Refusal := run startLocate s

/-- A transaction with the attached token is under way (R432). -/
def inTransaction (s : State) : Bool := s.tkb.bus != .idle || s.tkb.ackPending || s.tkb.sent.isSome || s.tkb.message != []

/-- An approval already counted for an enrolled token is withdrawn while its ceremony is open (R440). -/
def withdraw (id : BitVec 128) (s : State) : State :=
  match s.tkb.approval with
  | .open c =>
    let ks := Tab.keys (s.tkb.enrolled.filter fun e => e.2.id = id)
    let c := { c with counted := c.counted.filter fun k => !ks.contains k,
                      own := c.own && c.arg.take 16 != leBytes 16 id.toNat }
    { s with tkb := { s.tkb with approval := .open c } }
  | _ => s

/-- Removal in the middle of a transaction: its outcome is indeterminate (R432, R440). -/
def cutTransaction (i : Nat) (s : State) : State :=
  let t := tokAt s i
  let seq := match s.tkb.sent with | some b => some (bit (leAt b 0 1) 6) | none => some t.nextNs
  let s := updTok i (fun t => { t with lastWrite := 1, cutSeq := seq, cutId := t.id }) s
  let s := bump Ctr.tkbIndeterminate 1 (endExchange s)
  match t.id with
  | some id => withdraw id s
  | none => s

/-- A token is removed (R422). -/
def removeToken (i : Nat) (s : State) : State :=
  let t := tokAt s i
  if !busRuns s || 8 ≤ i || !t.present then s
  else
    let mine := t.addr != 0 && s.tkb.attached = some t.addr
    let s := if mine && inTransaction s then cutTransaction i s else s
    let s := if mine then { s with tkb := { s.tkb with attached := none } } else s
    updTok i (fun t => { t with state := .empty, present := false, id := none, addr := 0, mode := 0, fallback := false,
                                nextNs := false, ifsc := 32, cert := none, asked := false }) s

/-- TOKEN_REMOVED (R432). -/
def execTokenRemoved (slot : Nat) (s : State) : Host.Outcome State Fault Refusal := run (removeToken slot) s

/-- The token being named is bound to a slot. -/
def bindToken (i : Nat) (id : BitVec 128) (a : Nat) (s : State) : State :=
  let s := updTok i (fun t => { t with state := .identified, id := some id, addr := a, nextNs := false, ifsc := 32 }) s
  { s with tkb := { s.tkb with naming := none } }

/-- The locate window ends: exactly one line pulsed, or the token is FAULTY; a line still low counts as removed (R426). -/
def endLocate (pulsed low : List Nat) (s : State) : State :=
  match s.tkb.bus, s.tkb.naming with
  | .located _, some (id, a) =>
    let s := setBus .idle s
    let s := match pulsed with
      | [i] => if i < 8 ∧ (tokAt s i).present ∧ (tokAt s i).state = .debouncing then bindToken i id a s else giveUp 1 s
      | _ => giveUp 1 s
    low.foldl (fun s i => removeToken i s) s
  | _, _ => s

/-- LOCATE_WINDOW_END (R426). -/
def execLocateWindowEnd (pulsed low : List Nat) (s : State) : Host.Outcome State Fault Refusal := run (endLocate pulsed low) s

/-! ### Speed and width (R427), and the write count (R430, R432) -/

/-- The MODE that the device asks for: at most 50 MHz and four lines. -/
def wantedMode (s : State) : Nat := Nat.min 2 s.tkb.maxMode + fld (bnat s.tkb.fourLine) 2

/-- MODE (R427): not sent to a token that runs at 400 kHz on one line after a failed check. -/
def execMode (reply : BitVec 48) (s : State) : Host.Outcome State Fault Refusal :=
  run (fun s => match attachedSlot s with
    | none => s
    | some i =>
      if (tokAt s i).fallback then s
      else
        let m := wantedMode s
        command 4 m reply (fun _ s => setBus (.modeReport m) { s with tkb := { s.tkb with modeAsked := m } }) s) s

/-- WRITE_COUNT of slot `i` was read; an interrupted transaction of its token took effect, or did not (R432). -/
def takeWriteCount (i n : Nat) (s : State) : State :=
  let id := (tokAt s i).id
  let settle (t : TokSlot) : TokSlot :=
    if t.cutSeq.isSome ∧ t.cutId = id then
      { t with lastWrite := if t.writeCount < n then 2 else 3, cutSeq := none, cutId := none }
    else t
  let s := { s with tkb := { s.tkb with slots := s.tkb.slots.map settle } }
  updTok i (fun t => { t with writeCount := n }) s

/-- The checks of a mode report. -/
def reportOk (s : State) (i m : Nat) (r : Bytes) : Bool :=
  r.length = 32 && leAt r 0 1 = 2 && leAt r 1 1 = m && (tokAt s i).id.map BitVec.toNat = some (leAt r 4 16)
    && leAt r 24 8 = 0

/-- A token that the open ceremony has not counted is asked for its approval (R439). -/
def askToken (i : Nat) (s : State) : State :=
  match s.tkb.approval with
  | .open c =>
    let t := tokAt s i
    let k := match t.id with
      | none => none
      | some id => (s.tkb.enrolled.find? fun e => e.2.id = id).map Prod.fst
    let named := c.action = 9 && (match t.id with | some id => c.arg.take 16 = leBytes 16 id.toNat | none => false)
    let due := match k with | some j => !c.counted.contains j | none => named && !c.own
    if t.state = .identified && due then updTok i (fun t => { t with asked := true }) s else s
  | _ => s

/-- The mode report is checked; a good one puts the mode in force. A bad one leaves the token to MODE_FALLBACK_RESTART. -/
def takeReport (d : Bytes) (s : State) : State :=
  match s.tkb.bus, attachedSlot s with
  | .modeReport m, some i =>
    let s := setBus (.modeReport m) (sendFrame 5 0 s)
    match phaseBytes d with
    | none => updTok i (fun t => { t with fallback := true }) s
    | some r =>
      if reportOk s i m r then
        let ifsc := Nat.max 16 (Nat.min 254 (leAt r 3 1))
        askToken i (takeWriteCount i (leAt r 20 4) (setBus .idle (updTok i (fun t => { t with mode := m, ifsc := ifsc }) s)))
      else updTok i (fun t => { t with fallback := true }) s
  | _, _ => s

/-- MODE_REPORT (R427). -/
def execModeReport (data : Bytes) (s : State) : Host.Outcome State Fault Refusal := run (takeReport data) s

/-- After a failed mode check and 1 ms of stopped clock, BUS_RESET is sent and every token is identified again (R427). -/
def execModeFallbackRestart (s : State) : Host.Outcome State Fault Refusal :=
  run (fun s => match s.tkb.bus with
    | .modeReport _ => if s.tkb.slots.any fun t => t.fallback && t.mode = 0 then startArbitration (resetBus s) else s
    | _ => s) s

/-- TOKEN_QUERY (R423). -/
def execTokenQuery (count : Bool) (reply : BitVec 48) (s : State) : Host.Outcome State Fault Refusal :=
  run (fun s => match attachedSlot s with
    | none => s
    | some i => command 8 (bnat count) reply (fun p s => if count then takeWriteCount i p s else s) s) s

/-! ### Blocks (R428 to R431) -/

/-- A block: PCB, LEN, INF, EDC low byte first. -/
def mkBlock (pcb : Nat) (inf : Bytes) : Bytes :=
  let b := [byte pcb, byte inf.length] ++ inf
  b ++ leBytes 2 (edc b)

def blockPcb (b : Bytes) : Nat := leAt b 0 1
def blockInf (b : Bytes) : Bytes := (b.drop 2).take (leAt b 1 1)

/-- PCBs that R428 defines. -/
def pcbDefined (p : Nat) : Bool :=
  (p < 0x80 && bits p 4 0 = 0) || (0x80 ≤ p && p < 0xA0 && bits p 3 2 = 0 && bits p 1 0 != 3)
    || [0xC0, 0xC1, 0xC2, 0xC3, 0xE0, 0xE1, 0xE2, 0xE3].contains p

/-- The error code of a received block, 0 for none: 1 the EDC, 2 the length or the PCB (R429). -/
def blockError (b : Bytes) : Nat :=
  let n := b.length - 2
  if b.length < 4 || leAt b 1 1 != b.length - 4 || 254 < leAt b 1 1 then 2
  else if leNat (b.drop n) != edc (b.take n) then 1
  else if !pcbDefined (blockPcb b) then 2 else 0

/-- A block of the device travels in one PUT_BLOCK data phase. -/
def sendBlock (b : Bytes) (s : State) : State :=
  let s := setBus .idle (sendFrame 6 b.length s)
  bump Ctr.tkbBlocks 1 (emit (.tkData (b ++ leBytes 2 (phaseCheck b))) s)

/-- An R-block of the device, with its expected sequence bit; one with an error is counted. -/
def sendR (err : Nat) (s : State) : State :=
  let s := sendBlock (mkBlock (0x80 + fld (bnat s.tkb.recvNs) 4 + err) []) s
  if err = 0 then s else bump Ctr.tkbRetries 1 s

/-- S(RESYNCH) request; when it has failed twice the exchange fails (R429). -/
def resynch (s : State) : State :=
  if 2 ≤ s.tkb.resyncs then giveUp 2 s
  else sendBlock (mkBlock 0xC0 []) { s with tkb := { s.tkb with resyncs := s.tkb.resyncs + 1, faulty := 0, expired := false } }

/-- A faulty block: the token must send it again; after 3 in a row the device resynchronises. -/
def faultyBlock (code : Nat) (s : State) : State :=
  let n := s.tkb.faulty + 1
  let s := { s with tkb := { s.tkb with faulty := n } }
  if 3 ≤ n then resynch s else sendR code s

/-- A block of the attached token is taken in: a good one ends the run of faulty ones and the wait (R429, R431). -/
def receiveBlock (b : Bytes) (k : State → State) (s : State) : State :=
  if !busRuns s || (attachedSlot s).isNone then s
  else if blockError b != 0 then faultyBlock (blockError b) s
  else k { s with tkb := { s.tkb with faulty := 0, expired := false, wtx := 1 } }

/-- The device's I-block was acknowledged (R430). -/
def acknowledged (s : State) : State :=
  if s.tkb.ackPending then
    match attachedSlot s with
    | some i => updTok i (fun t => { t with nextNs := !t.nextNs }) { s with tkb := { s.tkb with ackPending := false } }
    | none => s
  else s

/-- PUT_BLOCK (R424): a block of the device, composed by its block engine; an I-block awaits its acknowledgement. -/
def putBlock (b : Bytes) (reply : BitVec 48) (s : State) : State :=
  match attachedSlot s with
  | none => s
  | some _ =>
    command 6 b.length reply (fun _ s =>
      let s := bump Ctr.tkbBlocks 1 (emit (.tkData (b ++ leBytes 2 (phaseCheck b))) s)
      if blockPcb b < 0x80 then { s with tkb := { s.tkb with sent := some b, ackPending := true, expired := false } } else s) s

def execPutBlock (block : Bytes) (reply : BitVec 48) (s : State) : Host.Outcome State Fault Refusal :=
  run (putBlock block reply) s

/-- GET_BLOCK (R424): one data phase from the token; a phase whose check fails is a faulty block. -/
def getBlock (reply : BitVec 48) (data : Bytes) (s : State) : State :=
  match attachedSlot s with
  | none => s
  | some _ =>
    command 7 0 reply (fun _ s =>
      let s := bump Ctr.tkbBlocks 1 s
      if (phaseBytes data).isNone then faultyBlock 2 s else s) s

def execGetBlock (reply : BitVec 48) (data : Bytes) (s : State) : Host.Outcome State Fault Refusal :=
  run (getBlock reply data) s

/-- An I-block of the token: it acknowledges the device's own; one in sequence adds to the message, and a chain goes on
(R428, R430). -/
def takeI (b : Bytes) (s : State) : State :=
  if 0x80 ≤ blockPcb b then s
  else
    let s := acknowledged s
    if bit (blockPcb b) 6 != s.tkb.recvNs then sendR 0 s
    else
      let s := { s with tkb := { s.tkb with message := s.tkb.message ++ blockInf b, recvNs := !s.tkb.recvNs } }
      if bit (blockPcb b) 5 then sendR 0 s else s

/-- I_BLOCK (R430). -/
def execIBlock (block : Bytes) (s : State) : Host.Outcome State Fault Refusal := run (receiveBlock block (takeI block)) s

/-- An R-block of the token: with the other sequence bit it acknowledges, otherwise the device sends its block again. -/
def takeR (b : Bytes) (s : State) : State :=
  let p := blockPcb b
  if p < 0x80 || 0xA0 ≤ p then s
  else match s.tkb.sent with
    | none => s
    | some own =>
      if bit p 4 != bit (blockPcb own) 6 then acknowledged s
      else sendBlock own (if bits p 1 0 = 0 then s else bump Ctr.tkbRetries 1 s)

/-- R_BLOCK (R429). -/
def execRBlock (block : Bytes) (s : State) : Host.Outcome State Fault Refusal := run (receiveBlock block (takeR block)) s

/-- The sequence bits return to 0, and the exchange starts over. -/
def resynched (s : State) : State :=
  let s := match attachedSlot s with
    | some i => updTok i (fun t => { t with nextNs := false }) s
    | none => s
  { s with tkb := { s.tkb with recvNs := false, sent := none, message := [], ackPending := false, resyncs := 0 } }

/-- S_RESYNCH (R429): a response resets the sequence bits, and so does a request that the device answers. -/
def execSResynch (block : Bytes) (s : State) : Host.Outcome State Fault Refusal :=
  run (receiveBlock block fun s =>
    if blockPcb block = 0xE0 then resynched s
    else if blockPcb block = 0xC0 then sendBlock (mkBlock 0xE0 []) (resynched s) else s) s

/-- S_IFS (R428): 1 byte, 16 to 254. -/
def takeIfs (b : Bytes) (s : State) : State :=
  let v := leNat (blockInf b)
  if (blockInf b).length != 1 || v < 16 || 254 < v then faultyBlock 2 s
  else if blockPcb b = 0xC1 then
    let s := match attachedSlot s with
      | some i => updTok i (fun t => { t with ifsc := v }) s
      | none => s
    sendBlock (mkBlock 0xE1 (blockInf b)) s
  else s

def execSIfs (block : Bytes) (s : State) : Host.Outcome State Fault Refusal := run (receiveBlock block (takeIfs block)) s

/-- S_ABORT (R428): the current chain ends. -/
def execSAbort (block : Bytes) (s : State) : Host.Outcome State Fault Refusal :=
  run (receiveBlock block fun s =>
    let ended (s : State) : State := { s with tkb := { s.tkb with sent := none, message := [], ackPending := false } }
    if blockPcb block = 0xC2 then sendBlock (mkBlock 0xE2 []) (ended s)
    else if blockPcb block = 0xE2 then ended s else s) s

/-- S_WTX (R431): the waiting time for the next block becomes m times 200 ms, once. -/
def takeWtx (b : Bytes) (s : State) : State :=
  let m := leNat (blockInf b)
  if (blockInf b).length != 1 || m = 0 then faultyBlock 2 s
  else if blockPcb b = 0xC3 then sendBlock (mkBlock 0xE3 (blockInf b)) { s with tkb := { s.tkb with wtx := m } } else s

def execSWtx (block : Bytes) (s : State) : Host.Outcome State Fault Refusal := run (receiveBlock block (takeWtx block)) s

/-- The block waiting time expires: an R-block with error code 10, and at the second expiry what R429 says (R431). -/
def waitExpires (s : State) : State :=
  if !busRuns s || (attachedSlot s).isNone then s
  else if s.tkb.expired then resynch s
  else sendR 2 { s with tkb := { s.tkb with expired := true, wtx := 1 } }

/-- BLOCK_WAITING_TIME_EXPIRY (R431). -/
def execBlockWaitingTimeExpiry (s : State) : Host.Outcome State Fault Refusal := run waitExpires s

/-! ### Messages (R433, R435, R438, R439) -/

/-- The message exchange is over. -/
def messageOver (s : State) : State :=
  { acknowledged s with tkb := { (acknowledged s).tkb with sent := none, message := [] } }

/-- A complete answer of the attached token. -/
def takeAnswer (k : Nat → State → State) (s : State) : State :=
  if !busRuns s then s
  else match attachedSlot s with
    | none => s
    | some i => k i (messageOver s)

/-- GET_CERT (R433). -/
def execGetCert (answer : Bytes) (s : State) : Host.Outcome State Fault Refusal :=
  run (takeAnswer fun i s => updTok i (fun t => { t with cert := some answer }) s) s

/-- GET_COUNTER (R433). -/
def execGetCounter (answer : Bytes) (s : State) : Host.Outcome State Fault Refusal :=
  run (takeAnswer fun i s => if answer.length = 4 then takeWriteCount i (leNat answer) s else s) s

/-- Public key of a certificate, and the digest by which a token is enrolled (R435, R436). -/
def certKey (c : Bytes) : Bytes := slice c 28 1952
def keyDigestOf (c : Bytes) : Bytes := digestOf 0x0612 (certKey c) 32

/-- A certificate is valid: its layout, this token's ID, and the authority's signature (R435). -/
def certOk (s : State) (id : BitVec 128) (c : Bytes) : Bool :=
  match s.tkb.authority with
  | none => false
  | some a =>
    c.length = 6607 && leAt c 0 2 = 1 && leAt c 2 2 = 0 && leAt c 4 16 = id.toNat
      && Config.primHolds .tokenCertOk [a, c.take 1980, c.drop 1980]

/-- SERIAL_BIND is 0 or this device's serial number. -/
def serialBindOk (s : State) (c : Bytes) : Bool := leAt c 20 8 = 0 || leAt c 20 8 = s.otp.serial.toNat

/-- The approval body (R438). -/
def approvalBody (s : State) (c : Ceremony) (id : BitVec 128) : Bytes :=
  leBytes 8 s.otp.serial.toNat ++ leBytes 2 c.action ++ [byte (lc s).code, byte (bnat s.tmp.curtainDown)]
    ++ leBytes 4 s.evr.cycles ++ padTo 64 c.arg ++ padTo 32 c.nonce ++ leBytes 16 id.toNat

/-- The answer approves: 0x00 and a signature that verifies under the certificate's key. -/
def approves (s : State) (c : Ceremony) (id : BitVec 128) (cert answer : Bytes) : Bool :=
  answer.length = 3310 && leAt answer 0 1 = 0
    && Config.primHolds .tokenSigOk [certKey cert, approvalBody s c id, answer.drop 1]

/-- Approvals that the action needs (R442). -/
def quorumNeeded (s : State) (c : Ceremony) : Nat := if c.action = 9 && s.tkb.enrolled.length < s.tkb.quorum then 0 else s.tkb.quorum

/-- The index of the enrolled token with an ID. -/
def enrolledIndex (s : State) (id : BitVec 128) : Option Nat := (s.tkb.enrolled.find? fun e => e.2.id = id).map Prod.fst

/-- The lowest free place among the 16 of the enrolled tokens. -/
def freePlace (s : State) : Option Nat := (List.range 16).find? fun k => (s.tkb.enrolled.get? k).isNone

/-- A ceremony whose completion is the action itself ends (R439, R442). -/
def ceremonyOver (ok : Bool) (c : Ceremony) (f : State → State) (s : State) : State :=
  let s := endCeremony (if ok then 2 else 6) { s with tkb := { s.tkb with approval := .open c } }
  if ok then f s else s

/-- TOKEN_ENROLL takes effect with the named token's certificate. -/
def enrollToken (c : Ceremony) (s : State) : State :=
  let id := BitVec.ofNat 128 (leNat (c.arg.take 16))
  let cert := match s.tkb.slots.find? fun t => t.id = some id with | some t => t.cert | none => none
  match freePlace s, cert with
  | some k, some b =>
    ceremonyOver (enrolledIndex s id).isNone c (fun s =>
      { s with tkb := { s.tkb with enrolled := s.tkb.enrolled.put k { id := id, keyDigest := keyDigestOf b } } }) s
  | _, _ => ceremonyOver false c (fun s => s) s

/-- TOKEN_REMOVE takes effect: N - 1 may not fall below M. -/
def removeEnrolled (c : Ceremony) (s : State) : State :=
  match enrolledIndex s (BitVec.ofNat 128 (leNat (c.arg.take 16))) with
  | some k =>
    ceremonyOver (s.tkb.quorum + 1 ≤ s.tkb.enrolled.length) c (fun s =>
      { s with tkb := { s.tkb with enrolled := s.tkb.enrolled.del k } }) s
  | none => ceremonyOver false c (fun s => s) s

/-- The key in TKB_BUF: an ML-DSA-87 public key. -/
def bufKey (s : State) : Bytes := Memory.readN s.tkb.buf 0 2592

/-- AUTHORITY_SET takes effect when the key matches the digest: every enrolled token is removed, and M becomes 1. -/
def setAuthority (c : Ceremony) (s : State) : State :=
  ceremonyOver (c.arg.take 32 = digestOf 0x0612 (bufKey s) 32) c (fun s =>
    { s with tkb := { s.tkb with authority := some (bufKey s), enrolled := [], quorum := 1 } }) s

/-- The count stands at a new value: the quorum may be reached (R439). -/
def checkQuorum (c : Ceremony) (s : State) : State :=
  let s := { s with tkb := { s.tkb with approval := .open c } }
  if c.counted.length < quorumNeeded s c || (c.action = 9 && !c.own) then s
  else match c.action with
    | 9 => enrollToken c s
    | 10 => removeEnrolled c s
    | 12 => setAuthority c s
    | _ => { s with tkb := { s.tkb with approval := .held c, result := 1 } }

/-- An answer to APPROVE (R439): counted for an enrolled token when certificate and signature verify, and taken as the named
token's own approval of its enrollment. A token that was not asked, or answered already, counts for nothing. -/
def takeApproval (answer : Bytes) (i : Nat) (s : State) : State :=
  let t := tokAt s i
  match s.tkb.approval, t.id, t.cert with
  | .open c, some id, some cert =>
    let s := updTok i (fun t => { t with asked := false }) s
    if !t.asked || !certOk s id cert || !approves s c id cert answer then s
    else match s.tkb.enrolled.find? fun e => e.2.id = id with
      | some (k, e) =>
        if e.keyDigest = keyDigestOf cert && !c.counted.contains k then
          checkQuorum { c with counted := insertSorted k c.counted } s
        else s
      | none =>
        if c.action = 9 && c.arg.take 16 = leBytes 16 id.toNat && serialBindOk s cert then checkQuorum { c with own := true } s
        else s
  | _, _, _ => updTok i (fun t => { t with asked := false }) s

/-- APPROVE (R439). -/
def execApprove (answer : Bytes) (s : State) : Host.Outcome State Fault Refusal := run (takeAnswer (takeApproval answer)) s

/-! ### Ceremonies (R437, R441, R442) -/

/-- An approval is reserved by an operation: START and CANCEL change nothing. -/
def approvalReserved (s : State) : Bool := match s.tkb.approval with | .reserved _ _ => true | _ => false

/-- The ceremony that the registers describe. -/
def newCeremony (nonce : Bytes) (s : State) : Ceremony :=
  { action := s.tkb.action, arg := Memory.readN s.tkb.arg 0 64, nonce := nonce,
    deadline := s.now + 600 * Config.tickPerSecond, counted := [], own := false }

/-- START (R437): what was open or held is discarded. The first authority key takes effect at once; an unknown action opens
nothing; otherwise the ceremony opens when an instance serves (CEREMONY_OPEN). -/
def startCeremony (s : State) : State :=
  if approvalReserved s then s
  else
    let s := endCeremony 0 s
    let s := { s with tkb := { s.tkb with startWanted := false } }
    if s.tkb.action = 0 || 12 < s.tkb.action then { s with tkb := { s.tkb with result := 3 } }
    else if s.tkb.action = 12 && s.tkb.authority.isNone then setAuthority (newCeremony (zeros 32) s) s
    else { s with tkb := { s.tkb with startWanted := true, result := 0 } }

/-- TKB_CER_START (R437). -/
def execTkbCerStart (s : State) : Host.Outcome State Fault Refusal := run (pfWrite 0x580018 startCeremony) s

/-- An instance serves: the nonce is drawn, the window opens, and APPROVE goes to the tokens (R437, R439). -/
def openCeremony (s : State) : State :=
  if !s.tkb.startWanted || approvalReserved s then s
  else match drawBytes 32 s with
    | none => s
    | some (nonce, s) =>
      let c := newCeremony nonce s
      let s := { s with tkb := { s.tkb with startWanted := false, approval := .open c } }
      (List.range 8).foldl (fun s i => askToken i s) s

/-- CEREMONY_OPEN (R437). -/
def execCeremonyOpen (s : State) : Host.Outcome State Fault Refusal := run openCeremony s

/-- CANCEL (R437). -/
def cancelCeremony (s : State) : State :=
  if approvalReserved s then s else endCeremony 0 { s with tkb := { s.tkb with startWanted := false } }

/-- TKB_CER_CANCEL (R437). -/
def execTkbCerCancel (s : State) : Host.Outcome State Fault Refusal := run (pfWrite 0x580018 cancelCeremony) s

/-- The window closes: an open ceremony and an unreserved approval end; a reserved one outlives it until its operation ends
(R441). -/
def closeWindow (s : State) : State :=
  match s.tkb.approval with
  | .reserved c k => { s with tkb := { s.tkb with approval := .reserved { c with deadline := 0 } k } }
  | _ => endCeremony 7 s

/-- CEREMONY_WINDOW_CLOSE (R441). -/
def execCeremonyWindowClose (s : State) : Host.Outcome State Fault Refusal := run closeWindow s

/-- TKB_QUORUM.M takes a value (R442): 0 stands for 1. -/
def writeQuorum (v : Nat) (s : State) : State :=
  let m := Nat.max 1 (v % 32)
  if m = s.tkb.quorum then s
  else if s.tkb.quorum < m then
    if m ≤ s.tkb.enrolled.length then { s with tkb := { s.tkb with quorum := m } } else { s with tkb := { s.tkb with result := 4 } }
  else match consumeApproval 11 [byte m] s with
    | some s => { s with tkb := { s.tkb with quorum := m } }
    | none => { s with tkb := { s.tkb with result := 5 } }

/-- TKB_QUORUM_WRITE (R442). -/
def execTkbQuorumWrite (value : Nat) (s : State) : Host.Outcome State Fault Refusal :=
  run (pfGuarded 0x580008 (writeQuorum value)) s

end Sys2Proof.Machine
end

