-- ==== Sys2Proof/Machine/Registers.lean ====
section
/-! DEFINITION. Register writes (R41, R491 to R508): plain registers, guarded pairs, snapshots, the trouble record and event
aggregation. What reads give stands in Reads. -/

namespace Sys2Proof.Machine

/-! ### Snapshots (R501, R502) -/

/-- Counters of events that no row of the table gives: corrected SRAM errors, and codewords of the twin link. Nothing constrains
them (assumption log 98). -/
def unseenCounters : List Nat := [Ctr.sramCorrected, Ctr.fecCorrected, Ctr.fecUncorrected]

/-- BOX_SNAP, GLB_SNAP_PTM and GLB_SNAP_CCLK beside the counters. -/
def snapshotValues (ptm cclk : Nat) (s : State) : Tab Nat :=
  let t := unseenCounters.foldl (fun t o => t.put o (Config.unseenCount s.free o)) s.glb.counters
  let t := (t.put 0x20 (if s.pcie.ptmLost then 0 else ptm)).put 0x28 cclk
  (List.range 32).foldl (fun t c =>
    t.put (0x180100 + 8 * c) ((epochCounters s).getD (32 * s.box.snapSel + c) 0)) t

/-- A snapshot is taken, unless one still settles. -/
def takeSnapshot (ptm cclk : Nat) (s : State) : State :=
  if s.glb.snapBusy then s
  else spend { s with glb := { s.glb with snapBusy := true, snapCount := s.glb.snapCount + 1, held := snapshotValues ptm cclk s } }

/-- GLB_SNAPSHOT (R501): a write of 1 to TAKE. -/
def execGlbSnapshot (ptm : Nat) (cclk : Nat) (s : State) : Host.Outcome State Fault Refusal :=
  run (pfWrite 0x10 (takeSnapshot ptm cclk)) s

/-- SNAPSHOT_SETTLED (R501). -/
def execSnapshotSettled (s : State) : Host.Outcome State Fault Refusal :=
  run (fun s => { s with glb := { s.glb with snapBusy := false } }) s

/-! ### The trouble record and event aggregation (R494, R503 to R506) -/

/-- Bits written 1 clear; a cause that still holds sets its bit again in the following CCLK, and that change from 0 to 1
raises source 0 (R504). -/
def clearTrouble (v : BitVec 32) (s : State) : State :=
  let again := (s.glb.trouble &&& v &&& BitVec.ofNat 32 (liveCauses s)) != 0
  let s := { s with glb := { s.glb with trouble := s.glb.trouble &&& ~~~ v } }
  if again then raise 0 s else s

/-- GLB_TROUBLE_WRITE (R494). -/
def execGlbTroubleWrite (value : BitVec 32) (s : State) : Host.Outcome State Fault Refusal :=
  run (pfWrite 0x10008 (clearTrouble value)) s

/-- Sources written 1 are acknowledged. -/
def ackEvents (g : Nat) (v : BitVec 32) (s : State) : State :=
  if g < 32 then { s with glb := { s.glb with evtPend := s.glb.evtPend.put g (s.glb.evtPend.getD g 0 &&& ~~~ v) } } else s

/-- GLB_EVT_ACK (R503). -/
def execGlbEvtAck (g : Nat) (value : BitVec 32) (s : State) : Host.Outcome State Fault Refusal :=
  run (pfWrite (0x30200 + 8 * g) (ackEvents g value)) s

/-- Enable bits of a group: one that goes from 0 to 1 over a pending source signals (R505). -/
def enableEvents (g : Nat) (v : BitVec 32) (s : State) : State :=
  if g < 32 then
    let new := v &&& ~~~ (s.glb.evtEnable.getD g 0) &&& s.glb.evtPend.getD g 0
    let s := { s with glb := { s.glb with evtEnable := s.glb.evtEnable.put g v } }
    if new = 0 then s else signal 0 (2 + g) s
  else s

/-- GLB_EVT_ENABLE_WRITE (R505). -/
def execGlbEvtEnableWrite (g : Nat) (value : BitVec 32) (s : State) : Host.Outcome State Fault Refusal :=
  run (pfWrite (0x30100 + 8 * g) (enableEvents g value)) s

/-! ### Registers that hold a WG field (R498, R499) -/

/-- TWN_CFG (R420): without ENABLE the link is not permitted. -/
def writeTwnCfg (v : Nat) (s : State) : State :=
  { s with twn := { s.twn with enable := bit v 0, planSync := bit v 1, streamCkpt := bit v 2, joinWait := bits v 15 8,
                               linkUp := s.twn.linkUp && bit v 0 } }

/-- The value that a guarded register reads as. -/
def guardedValue (s : State) (x : Nat) : Nat :=
  if x = 0x20000 then s.glb.scrub
  else if x = 0x40020 then s.ush.budget
  else if x = 0x300008 then s.til.retire
  else if x = 0x380108 then s.stg.switchReg
  else if x = 0x3801A0 then s.stg.overlayMaxNext
  else if 0x380200 ≤ x ∧ x < 0x380400 then s.stg.deny.getD ((x - 0x380200) / 8) 0
  else if x = 0x400000 then
    bnat s.twn.enable + fld (bnat s.twn.planSync) 1 + fld (bnat s.twn.streamCkpt) 2 + fld s.twn.joinWait 8
  else if x = 0x480018 then s.tmp.holdMin
  else if 0x480100 ≤ x ∧ x < 0x480280 then (monAt s ((x - 0x480100) / 8)).policy
  else if 0x480300 ≤ x ∧ x < 0x480480 then
    let m := monAt s ((x - 0x480300) / 8)
    m.k + fld m.w 8 + fld m.heldMs 48
  else if x = 0x500018 then s.evr.rate + fld s.evr.burst 16
  else if x = 0x580008 then s.tkb.quorum
  else if x = 0x600018 then s.lcs.request
  else 0

/-- A guarded register with fields in its upper half. -/
def wideGuarded (x : Nat) : Bool := (0x380200 ≤ x && x < 0x380400) || (0x480300 ≤ x && x < 0x480480)

/-- TMP_CURTAIN takes a value: DROP, then RAISE. -/
def writeCurtain (v : Nat) (s : State) : State :=
  let s := if bit v 0 then countEvent 45 s else s
  if bit v 1 then requestRaise s else s

/-- A guarded register takes a value, under its own storage rules. -/
def applyGuarded (x v : Nat) (s : State) : State :=
  if x = 0x20000 then { s with glb := { s.glb with scrub := Nat.max 1 (Nat.min 3600 (v % 4096)) } }
  else if x = 0x40020 then { s with ush := { s.ush with budget := storedBudget (v % 2 ^ 9) } }
  else if x = 0x280018 then writeRevive v s
  else if x = 0x300008 then writeRetire v s
  else if x = 0x380108 then writeSwitch v s
  else if x = 0x3801A0 then writeVfMax v s
  else if 0x380200 ≤ x ∧ x < 0x380400 then writeDeny ((x - 0x380200) / 8) v s
  else if x = 0x400000 then writeTwnCfg v s
  else if x = 0x480008 then writeCurtain v s
  else if x = 0x480018 then { s with tmp := { s.tmp with holdMin := Nat.max 1 (Nat.min (2 ^ 24) (v % 2 ^ 25)) } }
  else if 0x480100 ≤ x ∧ x < 0x480280 then writePolicy ((x - 0x480100) / 8) v s
  else if 0x480300 ≤ x ∧ x < 0x480480 then writeFilter ((x - 0x480300) / 8) v s
  else if x = 0x500018 then { s with evr := { s.evr with rate := storedRate v, burst := storedRate (v / 2 ^ 16) } }
  else if x = 0x580008 then writeQuorum v s
  else if x = 0x600018 then requestTransition v s
  else s

/-- One half, or all, of a 64-bit register (R493). -/
def mergeHalf (old off width value : Nat) : Nat :=
  if width = 8 then value % 2 ^ 64
  else if off % 8 = 0 then old / 2 ^ 32 * 2 ^ 32 + value % 2 ^ 32
  else old % 2 ^ 32 + fld (value % 2 ^ 32) 32

/-- The register of an offset. -/
def regOf (off : Nat) : Nat := off - off % 8

/-- A pair takes effect: the shadow of its register is repaired, and the value is taken; the upper half of a register whose
fields all lie in the lower one holds nothing to take. -/
def takePair (off width value : Nat) (s : State) : State :=
  let x := regOf off
  let s := { s with tmp := { s.tmp with shadowBad := s.tmp.shadowBad.filter fun o => o != x } }
  if off % 8 = 4 && !wideGuarded x then s
  else applyGuarded x (mergeHalf (guardedValue s x) off width value) s

/-! ### Plain registers -/

/-- A buffer of bytes written at a place. -/
def writeBuf (m : List Host.Cell) (base off width value : Nat) : List Host.Cell :=
  Memory.writeN m (off - base) (leBytes width value)

/-- A write in the PF's view of the selected VF's mailbox (R105). -/
def writeSelected (off width value : Nat) (s : State) : State :=
  let f := mailFn s
  vfWrite f (fun s =>
    if (mailOf s f).full then s
    else updMail f (fun m => { m with inBuf := writeBuf m.inBuf 0x101800 off width value }) s) s

/-- What GLB_SNAPSHOT reads of time when the write carries none: free. -/
def snapshotNow (s : State) : State :=
  takeSnapshot (Config.timeEstimate s.free) (Config.timeEstimate (s.free + 1)) { s with free := s.free + 2 }

/-- INTERVAL of ring context `c` takes a value (R86). -/
def writeInterval (c v : Nat) (s : State) : State := updRing c (fun r => { r with interval := storedInterval (v % 2 ^ 18) }) s

/-- A write of a CTL register that holds no WG field; the lower half carries the fields of most. -/
def writePlain (off width value : Nat) (s : State) : State :=
  let x := regOf off
  let low := off % 8 = 0
  let v (old : Nat) : Nat := mergeHalf old off width value
  let v32 : BitVec 32 := BitVec.ofNat 32 value
  let g := x % 0x100 / 8
  if x = 0x10 then (if low && bit value 0 then snapshotNow s else s)
  else if x = 0x30 then { s with glb := { s.glb with scratch := BitVec.ofNat 64 (v s.glb.scratch.toNat) } }
  else if x = 0x10008 then (if low then clearTrouble v32 s else s)
  else if 0x30100 ≤ x ∧ x < 0x30200 then (if low then enableEvents g v32 s else s)
  else if 0x30200 ≤ x ∧ x < 0x30300 then (if low then ackEvents g v32 s else s)
  else if x = 0x40000 then adminWrite (fun u => { u with adminSq := v u.adminSq / 4096 * 4096 }) s
  else if x = 0x40008 then adminWrite (fun u => { u with adminCq := v u.adminCq / 4096 * 4096 }) s
  else if x = 0x40010 then
    (if low then adminCfg (v s.ush.adminCfg) s
     else adminWrite (fun u => { u with adminCfg := keptAdminCfg (v u.adminCfg) }) s)
  else if x = 0x40018 then (if low && bit value 0 then resetRings 0 s else s)
  else if 0x80000 ≤ x ∧ x < 0x100000 ∧ x % 32 = 8 then (if low then writeInterval ((x - 0x80000) / 32) value s else s)
  else if x = 0x100000 then (if low then { s with ten := { s.ten with mailSel := value % 4096 } } else s)
  else if x = 0x1017F0 then (if low && bit value 17 then mailRxAck s else s)
  else if 0x101800 ≤ x ∧ x < 0x101FF0 then writeSelected off width value s
  else if x = 0x101FF0 then (if low then mailTx value s else s)
  else if x = 0x180000 then { s with box := { s.box with pageBase := v s.box.pageBase / 4096 * 4096 } }
  else if x = 0x180008 then
    writeBoxCfg (v (s.box.count + fld (bnat s.box.enable) 8 + fld s.box.period 32)) s
  else if x = 0x180028 then (if low then { s with box := { s.box with snapSel := value % 8192 } } else s)
  else if x = 0x400028 then { s with twn := { s.twn with meterBase := v s.twn.meterBase / 4096 * 4096 } }
  else if x = 0x400030 then
    (if low then { s with twn := { s.twn with meterCount := storedCount (bits value 6 0), meterEnable := bit value 8 } } else s)
  else if x = 0x580010 then
    (if low then { s with tkb := { s.tkb with maxMode := bits value 1 0, fourLine := bit value 2 } } else s)
  else if x = 0x580018 then
    (if low && bit value 0 then startCeremony s else if low && bit value 1 then cancelCeremony s else s)
  else if x = 0x580020 then (if low then { s with tkb := { s.tkb with action := value % 256 } } else s)
  else if 0x580040 ≤ x ∧ x < 0x580080 then { s with tkb := { s.tkb with arg := writeBuf s.tkb.arg 0x580040 off width value } }
  else if 0x581000 ≤ x ∧ x < 0x582000 then { s with tkb := { s.tkb with buf := writeBuf s.tkb.buf 0x581000 off width value } }
  else if x = 0x600028 then (if low then writeChalCtl value s else s)
  else if 0x600060 ≤ x ∧ x < 0x600080 then
    { s with lcs := { s.lcs with response := writeBuf s.lcs.response 0x600060 off width value } }
  else s

/-! ### Pairs (R498) -/

/-- The offset is the complement place of a guarded register. -/
def isComplement (off : Nat) : Bool := 0x800 ≤ off && guardedOffsets.contains (regOf off - 0x800)

/-- A write with no pair pending in its block: a complement is discarded, a value write leaves a pair pending, and any other
write is taken at once. -/
def freshWrite (off width value : Nat) (s : State) : State :=
  if guardedOffsets.contains (regOf off) then
    { s with glb := { s.glb with pairs := s.glb.pairs.put (blockOf off) (off, width, value % 2 ^ (8 * width)) } }
  else if isComplement off then guardFail off s
  else writePlain off width value s

/-- A PF write in the CTL window (R498): the matching complement completes the pair that is pending in the block; any other
write discards it, and is then handled as though none were pending. A write at the complement place of the discarded pair is
only ever a complement, and is discarded with it. -/
def ctlWrite (off width value : Nat) (s : State) : State :=
  match s.glb.pairs.get? (blockOf off) with
  | none => freshWrite off width value s
  | some (x, w, v) =>
    let s := { s with glb := { s.glb with pairs := s.glb.pairs.del (blockOf off) } }
    if off = x + 0x800 then
      if width = w ∧ value % 2 ^ (8 * width) = 2 ^ (8 * w) - 1 - v then takePair x w v s else guardFail x s
    else freshWrite off width value (guardFail x s)

/-- A naturally aligned access of 4 or 8 bytes (R41). -/
def accessOk (off width : Nat) : Bool := (width = 4 || width = 8) && off % width = 0

/-- A request that the window does not accept is completed with Unsupported Request, and logged (R41, R51). -/
def refuseAccess (f : Nat) (s : State) : State := emit (.unsupported f) (logAer f .unsupportedRequest s)

/-- A write of the PF in the CTL window. -/
def pfAccess (off width value : Nat) (s : State) : State :=
  if s.pcie.cfgRetry then s
  else if !accessOk off width then refuseAccess 0 s
  else if 0x800000 ≤ off then s
  else pfReach off (ctlWrite off width value) s

/-- The vector-control word of an MSI-X entry: bit 0 masks the vector (R63). -/
def writeVectorControl (f v value : Nat) (s : State) : State :=
  if bit value 0 then
    { s with pcie := { s.pcie with unmasked := s.pcie.unmasked.filter fun n => n != 256 * f + v } }
  else unmask f v s

/-- A doubleword of the MSI-X table: message address, its upper half, message data, vector control (R40, R45). -/
def writeMsixWord (f off v : Nat) (s : State) : State :=
  let n := 256 * f + off / 16
  let addr := s.pcie.msixAddr.getD n 0
  let w := v % 2 ^ 32
  if off % 16 = 0 then { s with pcie := { s.pcie with msixAddr := s.pcie.msixAddr.put n (addr / 2 ^ 32 * 2 ^ 32 + w / 4 * 4) } }
  else if off % 16 = 4 then { s with pcie := { s.pcie with msixAddr := s.pcie.msixAddr.put n (addr % 2 ^ 32 + fld w 32) } }
  else if off % 16 = 8 then { s with pcie := { s.pcie with msixData := s.pcie.msixData.put n w } }
  else writeVectorControl f (off / 16) w s

/-- A write in the MSI-X table of a function. -/
def writeMsix (f off width value : Nat) (s : State) : State :=
  let s := writeMsixWord f off value s
  if width = 8 then writeMsixWord f (off + 4) (value / 2 ^ 32) s else s

/-- A write in the PF's BAR 2 window (R40): the table of 256 entries; the pending-bit array is read-only, and a request that
is no aligned doubleword or quadword has no effect (assumption log 104). -/
def pfMsixAccess (off width value : Nat) (s : State) : State :=
  if s.pcie.cfgRetry || !accessOk off width || 0x1000 ≤ off then s else writeMsix 0 off width value s

/-- A write in a VF's window (R45, R105): its mailbox; nothing else there is writable. -/
def vfAccess (f off width value : Nat) (s : State) : State :=
  vfWrite f (fun s =>
    let x := regOf off
    if !accessOk off width then refuseAccess f s
    else if 0x8000 ≤ off ∧ off < 0x8100 then writeMsix f (off - 0x8000) width value s
    else if 0x1000 ≤ x ∧ x < 0x17F0 then
      (if (mailOf s f).busy then s
       else updMail f (fun m => { m with outBuf := writeBuf m.outBuf 0x1000 off width value }) s)
    else if off = 0x17F0 then mailOut f value s
    else if off = 0x1FF0 then (if bit value 17 then mailInAck f s else s)
    else s) s

/-- The payload and request sizes that the PF's Device Control takes (R48): codes above the largest supported value stand
for it. -/
def writeDeviceControl (value : Nat) (s : State) : State :=
  { s with pcie := { s.pcie with mps := Nat.min 2 (bits value 7 5), mrrs := Nat.min 5 (bits value 14 12) } }

/-- The RID association block of a selective IDE stream. -/
def writeIdeRid (i value : Nat) (s : State) : State :=
  updIde i (fun x => { x with ridLimit := bits value 15 0, ridBase := bits value 31 16, ridValid := bit value 32 }) s

/-- The address association block of a selective IDE stream. -/
def writeIdeAddress (i value : Nat) (s : State) : State :=
  updIde i (fun x => { x with addrBase := bits value 31 0, addrLimit := bits value 63 32 }) s

/-- A field of configuration space takes a value. -/
def writeConfig (t : WriteTarget) (value : Nat) (s : State) : State :=
  match t with
  | .ptmEnable => writePtmEnable (bit value 0) s
  | .completionTimeout f =>
    if fnExists s f then { s with pcie := { s.pcie with completionTimeout := s.pcie.completionTimeout.put f (value % 32) } }
    else s
  | .deviceControl => writeDeviceControl value s
  | .linkControl => { s with pcie := { s.pcie with aspmL1 := bit value 1 } }
  | .busNumber => { s with pcie := { s.pcie with bus := value % 256 } }
  | .ideRid i => writeIdeRid i value s
  | .ideAddress i => writeIdeAddress i value s
  | .ideAddressValid i => updIde i (fun x => { x with addrValid := bit value 0 }) s
  | .ctl _ => s
  | .vf _ _ => s
  | .pfMsix _ => s
  | .msixControl _ _ => s

/-- A register write, wherever it lands. -/
def registerWrite (t : WriteTarget) (width value : Nat) (s : State) : State :=
  match t with
  | .ctl off => pfAccess off width value s
  | .vf f off => vfAccess f off width value s
  | .pfMsix off => pfMsixAccess off width value s
  | .msixControl f v => if s.pcie.cfgRetry then s else writeVectorControl f v value s
  | .ptmEnable => configReach (writeConfig t value) s
  | .completionTimeout _ => configReach (writeConfig t value) s
  | .deviceControl => configReach (writeConfig t value) s
  | .linkControl => configReach (writeConfig t value) s
  | .busNumber => configReach (writeConfig t value) s
  | .ideRid _ => configReach (writeConfig t value) s
  | .ideAddress _ => configReach (writeConfig t value) s
  | .ideAddressValid _ => configReach (writeConfig t value) s

/-- REGISTER_WRITE (R41, R493). A request of LCS may program no fuse before its own step, so the fuses stand. -/
def execRegisterWrite (t : WriteTarget) (width : Nat) (value : Nat) (s : State) : Host.Outcome State Fault Refusal :=
  run (registerWrite t width value) s

/-- GUARDED_VALUE_WRITE (R498): the value write of a pair. -/
def execGuardedValueWrite (off : Nat) (width : Nat) (value : Nat) (s : State) : Host.Outcome State Fault Refusal :=
  run (fun s => if guardedOffsets.contains (regOf off) then pfAccess off width value s else s) s

/-- 1,024 PCLK pass with no further PF write to the block: the pair is discarded (R498). -/
def pairExpires (b : Nat) (s : State) : State := dropPair b s

/-- GUARD_PAIR_TIMEOUT (R498). -/
def execGuardPairTimeout (block : Nat) (s : State) : Host.Outcome State Fault Refusal := run (pairExpires block) s

end Sys2Proof.Machine
end

