-- ==== Sys2Proof/Machine/TwinRows.lean ====
section
/-! DEFINITION. The rows of the twin link whose acknowledgements, or whose end of the session, release commit holds (R26,
R403 to R411). -/

namespace Sys2Proof.Machine

/-- The session ends on its own, and holds are released; for how long they lasted, no rule says (R405, R411). -/
def loseSession (s : State) : State := releaseAbandoned (declareAbsent s)

/-- A frame is checked; an accepted one is taken in by `f`, and 64 dropped for their tag end the session (R405). -/
def onFrame (fr : Frame) (f : State → State) (s : State) : State :=
  match takeFrame fr s with
  | (true, _, s) => f s
  | (false, true, s) => loseSession s
  | (false, false, s) => s

/-- JOURNAL_FRAME (R406). -/
def execJournalFrame (f : Frame) (m : JournalMessage) (s : State) : Host.Outcome State Fault Refusal :=
  run (onFrame f (takeJournal f m)) s

/-- CHECKPOINT_FRAME (R418). -/
def execCheckpointFrame (f : Frame) (m : CheckpointMessage) (s : State) : Host.Outcome State Fault Refusal :=
  run (onFrame f (takeCheckpoint f m)) s

/-- HEARTBEAT (R407): its acknowledgements release holds (R26). -/
def execHeartbeat (f : Frame) (h : HeartbeatIn) (s : State) : Host.Outcome State Fault Refusal :=
  run (onFrame f fun s => releaseHolds h.held (takeHeartbeat h.payload s)) s

/-- TWIN_ABSENT (R411): after the declaration, commits are local (R26). -/
def execTwinAbsent (held : List (Nat × Nat)) (s : State) : Host.Outcome State Fault Refusal :=
  run (fun s => releaseHolds held (declareAbsent s)) s

/-- The peer has unpaired: this device does so too, after the seats that reference mirror slots have ended (R403). -/
def takeUnpair (s : State) : State :=
  if !paired s || !s.twn.session || mirrorsNamed s then s else releaseAbandoned (unpair s)

/-- TWIN_UNPAIR_NOTICE (R403). -/
def execTwinUnpairNotice (s : State) : Host.Outcome State Fault Refusal := run takeUnpair s

end Sys2Proof.Machine
end

