-- ==== Sys2Proof/Machine/Dispatch.lean ====
section
/-! DEFINITION. The dispatch of a command to its meaning, one arm a command. -/

namespace Sys2Proof.Machine

/-- The effect of a command on everything but the queue. -/
def exec (i : Instr) (s : State) : Host.Outcome State Fault Refusal :=
  match i with
  | .usherPoll c => Sys2Proof.Machine.execUsherPoll c s
  | .entryRead c e torn => Sys2Proof.Machine.execEntryRead c e torn s
  | .fragmentListRead c fs => Sys2Proof.Machine.execFragmentListRead c fs s
  | .dmaReadError r kind => Sys2Proof.Machine.execDmaReadError r kind s
  | .completionTimeout r => Sys2Proof.Machine.execCompletionTimeout r s
  | .operandStaged k input => Sys2Proof.Machine.execOperandStaged k input s
  | .pageGrant => Sys2Proof.Machine.execPageGrant s
  | .dispatch k => Sys2Proof.Machine.execDispatch k s
  | .streamChunkStaged k chunk => Sys2Proof.Machine.execStreamChunkStaged k chunk s
  | .chunkProcessed k => Sys2Proof.Machine.execChunkProcessed k s
  | .catchUpComplete k => Sys2Proof.Machine.execCatchUpComplete k s
  | .checkpointRecompute k => Sys2Proof.Machine.execCheckpointRecompute k s
  | .scriptOverrun k side => Sys2Proof.Machine.execScriptOverrun k side s
  | .intervalEnd k a b => Sys2Proof.Machine.execIntervalEnd k a b s
  | .understudyIn position => Sys2Proof.Machine.execUnderstudyIn position s
  | .understudySelfTest failed => Sys2Proof.Machine.execUnderstudySelfTest failed s
  | .writeOut c => Sys2Proof.Machine.execWriteOut c s
  | .sramUe place address => Sys2Proof.Machine.execSramUe place address s
  | .opRingSetup k => Sys2Proof.Machine.execOpRingSetup k s
  | .opVfSetup k => Sys2Proof.Machine.execOpVfSetup k s
  | .opVfReset k => Sys2Proof.Machine.execOpVfReset k s
  | .opVfQuiesce k => Sys2Proof.Machine.execOpVfQuiesce k s
  | .quiesceTimeout k => Sys2Proof.Machine.execQuiesceTimeout k s
  | .opPartitionErase k => Sys2Proof.Machine.execOpPartitionErase k s
  | .vfFlr fn => Sys2Proof.Machine.execVfFlr fn s
  | .vfResetComplete fn => Sys2Proof.Machine.execVfResetComplete fn s
  | .pfFlr => Sys2Proof.Machine.execPfFlr s
  | .hotReset => Sys2Proof.Machine.execHotReset s
  | .perstNAssert => Sys2Proof.Machine.execPerstNAssert s
  | .perstNRelease => Sys2Proof.Machine.execPerstNRelease s
  | .drsMessage => Sys2Proof.Machine.execDrsMessage s
  | .ready ptm => Sys2Proof.Machine.execReady ptm s
  | .vfEnable enable num ari => Sys2Proof.Machine.execVfEnable enable num ari s
  | .busMasterEnable fn bme d0 => Sys2Proof.Machine.execBusMasterEnable fn bme d0 s
  | .msixUnmask fn vector => Sys2Proof.Machine.execMsixUnmask fn vector s
  | .ecrcError => Sys2Proof.Machine.execEcrcError s
  | .poisonedWindowRequest fn isRead => Sys2Proof.Machine.execPoisonedWindowRequest fn isRead s
  | .ptmDialog => Sys2Proof.Machine.execPtmDialog s
  | .ptmDialogComplete time => Sys2Proof.Machine.execPtmDialogComplete time s
  | .ptmLoss => Sys2Proof.Machine.execPtmLoss s
  | .doeRequest obj => Sys2Proof.Machine.execDoeRequest obj s
  | .smbusReadByte call => Sys2Proof.Machine.execSmbusReadByte call s
  | .smbusReadWord call => Sys2Proof.Machine.execSmbusReadWord call s
  | .smbusBlockRead call => Sys2Proof.Machine.execSmbusBlockRead call s
  | .smbusWrite call data => Sys2Proof.Machine.execSmbusWrite call data s
  | .alertResponseAddressRead => Sys2Proof.Machine.execAlertResponseAddressRead s
  | .vfcMbxOutSend fn value => Sys2Proof.Machine.execVfcMbxOutSend fn value s
  | .vfcMbxInAck fn => Sys2Proof.Machine.execVfcMbxInAck fn s
  | .vfcPfMbxRxAck => Sys2Proof.Machine.execVfcPfMbxRxAck s
  | .vfcPfMbxTxSend value => Sys2Proof.Machine.execVfcPfMbxTxSend value s
  | .ushAdminCfgWrite value => Sys2Proof.Machine.execUshAdminCfgWrite value s
  | .ushPfRestart value => Sys2Proof.Machine.execUshPfRestart value s
  | .ringIntervalWrite c value => Sys2Proof.Machine.execRingIntervalWrite c value s
  | .ushBudgetWrite value => Sys2Proof.Machine.execUshBudgetWrite value s
  | .boxCfgWrite value => Sys2Proof.Machine.execBoxCfgWrite value s
  | .epochBoundary time => Sys2Proof.Machine.execEpochBoundary time s
  | .meterPageWrite => Sys2Proof.Machine.execMeterPageWrite s
  | .mlKemKeygen k => Sys2Proof.Machine.execMlKemKeygen k s
  | .mlKemEncaps k => Sys2Proof.Machine.execMlKemEncaps k s
  | .mlKemDecaps k => Sys2Proof.Machine.execMlKemDecaps k s
  | .mlDsaKeygen k => Sys2Proof.Machine.execMlDsaKeygen k s
  | .mlDsaSign k => Sys2Proof.Machine.execMlDsaSign k s
  | .mlDsaVerify k => Sys2Proof.Machine.execMlDsaVerify k s
  | .hashmlDsaSign k => Sys2Proof.Machine.execHashmlDsaSign k s
  | .hashmlDsaVerify k => Sys2Proof.Machine.execHashmlDsaVerify k s
  | .falconKeygen k => Sys2Proof.Machine.execFalconKeygen k s
  | .falconSign k => Sys2Proof.Machine.execFalconSign k s
  | .falconVerify k => Sys2Proof.Machine.execFalconVerify k s
  | .hybridKemKeygen k => Sys2Proof.Machine.execHybridKemKeygen k s
  | .hybridKemEncaps k => Sys2Proof.Machine.execHybridKemEncaps k s
  | .hybridKemDecaps k => Sys2Proof.Machine.execHybridKemDecaps k s
  | .slhDsaKeygen k => Sys2Proof.Machine.execSlhDsaKeygen k s
  | .slhDsaSign k => Sys2Proof.Machine.execSlhDsaSign k s
  | .slhDsaVerify k => Sys2Proof.Machine.execSlhDsaVerify k s
  | .hashslhDsaSign k => Sys2Proof.Machine.execHashslhDsaSign k s
  | .hashslhDsaVerify k => Sys2Proof.Machine.execHashslhDsaVerify k s
  | .hssKeygen k => Sys2Proof.Machine.execHssKeygen k s
  | .hssSign k => Sys2Proof.Machine.execHssSign k s
  | .hssVerify k => Sys2Proof.Machine.execHssVerify k s
  | .opLmsReserveStatus k => Sys2Proof.Machine.execOpLmsReserveStatus k s
  | .xmssKeygen k => Sys2Proof.Machine.execXmssKeygen k s
  | .xmssSign k => Sys2Proof.Machine.execXmssSign k s
  | .xmssVerify k => Sys2Proof.Machine.execXmssVerify k s
  | .xmssReserveStatus k => Sys2Proof.Machine.execXmssReserveStatus k s
  | .mcelieceKeygen k => Sys2Proof.Machine.execMcelieceKeygen k s
  | .mcelieceEncaps k => Sys2Proof.Machine.execMcelieceEncaps k s
  | .mcelieceDecaps k => Sys2Proof.Machine.execMcelieceDecaps k s
  | .opMcePin k => Sys2Proof.Machine.execOpMcePin k s
  | .hqcKeygen k => Sys2Proof.Machine.execHqcKeygen k s
  | .hqcEncaps k => Sys2Proof.Machine.execHqcEncaps k s
  | .hqcDecaps k => Sys2Proof.Machine.execHqcDecaps k s
  | .rsaKeygen k => Sys2Proof.Machine.execRsaKeygen k s
  | .rsaPrivate k => Sys2Proof.Machine.execRsaPrivate k s
  | .rsaPublic k => Sys2Proof.Machine.execRsaPublic k s
  | .ecdsaKeygen k => Sys2Proof.Machine.execEcdsaKeygen k s
  | .ecdsaSign k => Sys2Proof.Machine.execEcdsaSign k s
  | .ecdsaVerify k => Sys2Proof.Machine.execEcdsaVerify k s
  | .ecdh k => Sys2Proof.Machine.execEcdh k s
  | .eddsaKeygen k => Sys2Proof.Machine.execEddsaKeygen k s
  | .eddsaSign k => Sys2Proof.Machine.execEddsaSign k s
  | .eddsaVerify k => Sys2Proof.Machine.execEddsaVerify k s
  | .x25519 k => Sys2Proof.Machine.execX25519 k s
  | .x448 k => Sys2Proof.Machine.execX448 k s
  | .opCurveLoad k => Sys2Proof.Machine.execOpCurveLoad k s
  | .opModmul k => Sys2Proof.Machine.execOpModmul k s
  | .opModexp k => Sys2Proof.Machine.execOpModexp k s
  | .opModinv k => Sys2Proof.Machine.execOpModinv k s
  | .opEcPointMul k => Sys2Proof.Machine.execOpEcPointMul k s
  | .opStreamOpen k => Sys2Proof.Machine.execOpStreamOpen k s
  | .opStreamAbsorb k => Sys2Proof.Machine.execOpStreamAbsorb k s
  | .opStreamFinish k => Sys2Proof.Machine.execOpStreamFinish k s
  | .opDigestRead k => Sys2Proof.Machine.execOpDigestRead k s
  | .opStreamSuspend k => Sys2Proof.Machine.execOpStreamSuspend k s
  | .opStreamResume k => Sys2Proof.Machine.execOpStreamResume k s
  | .opStreamClose k => Sys2Proof.Machine.execOpStreamClose k s
  | .opDigestOneshot k => Sys2Proof.Machine.execOpDigestOneshot k s
  | .opKeyWriteClear k => Sys2Proof.Machine.execOpKeyWriteClear k s
  | .opChallenge k => Sys2Proof.Machine.execOpChallenge k s
  | .opKeyGenerate k => Sys2Proof.Machine.execOpKeyGenerate k s
  | .opKeyImportWrapped k => Sys2Proof.Machine.execOpKeyImportWrapped k s
  | .opKeyExportWrapped k => Sys2Proof.Machine.execOpKeyExportWrapped k s
  | .opKeyDerive k => Sys2Proof.Machine.execOpKeyDerive k s
  | .opKeyDestroy k => Sys2Proof.Machine.execOpKeyDestroy k s
  | .opKeyAttest k => Sys2Proof.Machine.execOpKeyAttest k s
  | .opKeyPublic k => Sys2Proof.Machine.execOpKeyPublic k s
  | .opKeyInfo k => Sys2Proof.Machine.execOpKeyInfo k s
  | .opRngKat k => Sys2Proof.Machine.execOpRngKat k s
  | .opRandom k => Sys2Proof.Machine.execOpRandom k s
  | .opScriptEnroll k => Sys2Proof.Machine.execOpScriptEnroll k s
  | .customerOpcode k => Sys2Proof.Machine.execCustomerOpcode k s
  | .opStageLoad k => Sys2Proof.Machine.execOpStageLoad k s
  | .opStageSwitch k => Sys2Proof.Machine.execOpStageSwitch k s
  | .stgSwitchWrite value => Sys2Proof.Machine.execStgSwitchWrite value s
  | .planCheckComplete => Sys2Proof.Machine.execPlanCheckComplete s
  | .intermissionEnd us => Sys2Proof.Machine.execIntermissionEnd us s
  | .sceneChange => Sys2Proof.Machine.execSceneChange s
  | .stgOverlayVfdenyWrite n value => Sys2Proof.Machine.execStgOverlayVfdenyWrite n value s
  | .stgOverlayVfmaxWrite value => Sys2Proof.Machine.execStgOverlayVfmaxWrite value s
  | .opTwinPair k => Sys2Proof.Machine.execOpTwinPair k s
  | .pairingTimeout k => Sys2Proof.Machine.execPairingTimeout k s
  | .opTwinAdopt k => Sys2Proof.Machine.execOpTwinAdopt k s
  | .opTwinRestore k => Sys2Proof.Machine.execOpTwinRestore k s
  | .linkTrained => Sys2Proof.Machine.execLinkTrained s
  | .linkLoss => Sys2Proof.Machine.execLinkLoss s
  | .hello m => Sys2Proof.Machine.execHello m s
  | .reply m => Sys2Proof.Machine.execReply m s
  | .authI m => Sys2Proof.Machine.execAuthI m s
  | .authR m => Sys2Proof.Machine.execAuthR m s
  | .handshakeTimeout => Sys2Proof.Machine.execHandshakeTimeout s
  | .rekey => Sys2Proof.Machine.execRekey s
  | .journalFrame f m => Sys2Proof.Machine.execJournalFrame f m s
  | .checkpointFrame f m => Sys2Proof.Machine.execCheckpointFrame f m s
  | .heartbeat f h => Sys2Proof.Machine.execHeartbeat f h s
  | .heartbeatSend => Sys2Proof.Machine.execHeartbeatSend s
  | .resendTimeout journal => Sys2Proof.Machine.execResendTimeout journal s
  | .twinAbsent held => Sys2Proof.Machine.execTwinAbsent held s
  | .joinWaitExpiry => Sys2Proof.Machine.execJoinWaitExpiry s
  | .rejoinRetry => Sys2Proof.Machine.execRejoinRetry s
  | .checkpointSnapshot => Sys2Proof.Machine.execCheckpointSnapshot s
  | .tokenInserted slot => Sys2Proof.Machine.execTokenInserted slot s
  | .tokenRemoved slot => Sys2Proof.Machine.execTokenRemoved slot s
  | .busReset => Sys2Proof.Machine.execBusReset s
  | .arbitrate read => Sys2Proof.Machine.execArbitrate read s
  | .assign reply => Sys2Proof.Machine.execAssign reply s
  | .attach addr reply => Sys2Proof.Machine.execAttach addr reply s
  | .mode reply => Sys2Proof.Machine.execMode reply s
  | .modeReport data => Sys2Proof.Machine.execModeReport data s
  | .modeFallbackRestart => Sys2Proof.Machine.execModeFallbackRestart s
  | .putBlock block reply => Sys2Proof.Machine.execPutBlock block reply s
  | .getBlock reply data => Sys2Proof.Machine.execGetBlock reply data s
  | .tokenQuery count reply => Sys2Proof.Machine.execTokenQuery count reply s
  | .locate => Sys2Proof.Machine.execLocate s
  | .locateWindowEnd pulsed low => Sys2Proof.Machine.execLocateWindowEnd pulsed low s
  | .tokenReplyTimeout => Sys2Proof.Machine.execTokenReplyTimeout s
  | .iBlock block => Sys2Proof.Machine.execIBlock block s
  | .rBlock block => Sys2Proof.Machine.execRBlock block s
  | .sResynch block => Sys2Proof.Machine.execSResynch block s
  | .sIfs block => Sys2Proof.Machine.execSIfs block s
  | .sAbort block => Sys2Proof.Machine.execSAbort block s
  | .sWtx block => Sys2Proof.Machine.execSWtx block s
  | .blockWaitingTimeExpiry => Sys2Proof.Machine.execBlockWaitingTimeExpiry s
  | .getCert answer => Sys2Proof.Machine.execGetCert answer s
  | .approve answer => Sys2Proof.Machine.execApprove answer s
  | .getCounter answer => Sys2Proof.Machine.execGetCounter answer s
  | .tkbCerStart => Sys2Proof.Machine.execTkbCerStart s
  | .ceremonyOpen => Sys2Proof.Machine.execCeremonyOpen s
  | .tkbCerCancel => Sys2Proof.Machine.execTkbCerCancel s
  | .ceremonyWindowClose => Sys2Proof.Machine.execCeremonyWindowClose s
  | .tkbQuorumWrite value => Sys2Proof.Machine.execTkbQuorumWrite value s
  | .levelAssert ch => Sys2Proof.Machine.execLevelAssert ch s
  | .levelRelease ch => Sys2Proof.Machine.execLevelRelease ch s
  | .channelEvent ch => Sys2Proof.Machine.execChannelEvent ch s
  | .chatterEvent ch => Sys2Proof.Machine.execChatterEvent ch s
  | .chatterClear ch => Sys2Proof.Machine.execChatterClear ch s
  | .heldEvent ch => Sys2Proof.Machine.execHeldEvent ch s
  | .holdEnd => Sys2Proof.Machine.execHoldEnd s
  | .curtainStage3Done => Sys2Proof.Machine.execCurtainStage3Done s
  | .tmpCurtainDrop => Sys2Proof.Machine.execTmpCurtainDrop s
  | .tmpCurtainRaise => Sys2Proof.Machine.execTmpCurtainRaise s
  | .curtainRaise => Sys2Proof.Machine.execCurtainRaise s
  | .tmpPolicyWrite ch value => Sys2Proof.Machine.execTmpPolicyWrite ch value s
  | .tmpFilterWrite ch value => Sys2Proof.Machine.execTmpFilterWrite ch value s
  | .backupAlarm ch bclk => Sys2Proof.Machine.execBackupAlarm ch bclk s
  | .backupSwitchover => Sys2Proof.Machine.execBackupSwitchover s
  | .rngBlock src blk => Sys2Proof.Machine.execRngBlock src blk s
  | .sourceRestart src => Sys2Proof.Machine.execSourceRestart src s
  | .startUpTest src blk => Sys2Proof.Machine.execStartUpTest src blk s
  | .rngRevive value => Sys2Proof.Machine.execRngRevive value s
  | .drbgInstantiate inst => Sys2Proof.Machine.execDrbgInstantiate inst s
  | .drbgReseed inst => Sys2Proof.Machine.execDrbgReseed inst s
  | .deferredReseed inst => Sys2Proof.Machine.execDeferredReseed inst s
  | .maskGeneratorReseed tile half => Sys2Proof.Machine.execMaskGeneratorReseed tile half s
  | .tilRetireWrite value => Sys2Proof.Machine.execTilRetireWrite value s
  | .lcsChalNew value => Sys2Proof.Machine.execLcsChalNew value s
  | .lcsChalUnlock => Sys2Proof.Machine.execLcsChalUnlock s
  | .lcsRequest target => Sys2Proof.Machine.execLcsRequest target s
  | .lcGroupProgrammed => Sys2Proof.Machine.execLcGroupProgrammed s
  | .lcWipeComplete => Sys2Proof.Machine.execLcWipeComplete s
  | .opLogRead k => Sys2Proof.Machine.execOpLogRead k s
  | .opLogClear k => Sys2Proof.Machine.execOpLogClear k s
  | .evrFlushComplete => Sys2Proof.Machine.execEvrFlushComplete s
  | .tokenRefill code => Sys2Proof.Machine.execTokenRefill code s
  | .hoursSave => Sys2Proof.Machine.execHoursSave s
  | .glbSnapshot ptm cclk => Sys2Proof.Machine.execGlbSnapshot ptm cclk s
  | .snapshotSettled => Sys2Proof.Machine.execSnapshotSettled s
  | .glbTroubleWrite value => Sys2Proof.Machine.execGlbTroubleWrite value s
  | .glbEvtAck g value => Sys2Proof.Machine.execGlbEvtAck g value s
  | .glbEvtEnableWrite g value => Sys2Proof.Machine.execGlbEvtEnableWrite g value s
  | .guardedValueWrite off width value => Sys2Proof.Machine.execGuardedValueWrite off width value s
  | .guardPairTimeout block => Sys2Proof.Machine.execGuardPairTimeout block s
  | .registerWrite t width value => Sys2Proof.Machine.execRegisterWrite t width value s
  | .pwrfailNFall => Sys2Proof.Machine.execPwrfailNFall s
  | .pwrfailNRise => Sys2Proof.Machine.execPwrfailNRise s
  | .supplyLoss => Sys2Proof.Machine.execSupplyLoss s
  | .vaultPowerUp katOk => Sys2Proof.Machine.execVaultPowerUp katOk s
  | .microwordIssue k side => Sys2Proof.Machine.execMicrowordIssue k side s
  | .unfixedIntervalCommit k cclk => Sys2Proof.Machine.execUnfixedIntervalCommit k cclk s
  | .bankPointerRepair => Sys2Proof.Machine.execBankPointerRepair s
  | .twinUnpairNotice => Sys2Proof.Machine.execTwinUnpairNotice s
  | .twinAdoptRequest fn => Sys2Proof.Machine.execTwinAdoptRequest fn s
  | .temperatureAlert vault => Sys2Proof.Machine.execTemperatureAlert vault s
  | .bclkLoss => Sys2Proof.Machine.execBclkLoss s

end Sys2Proof.Machine
end

