-- ==== Sys2Proof/Machine/Tick.lean ====
section
/-! DEFINITION. The passing of one MTICK. -/

namespace Sys2Proof.Machine

/-- One MTICK passes; operating time counts while all supplies are valid (R21, R478, R514). -/
def endTick (s : State) : State :=
  let runs := bnat (s.pwr.vault && s.pwr.mains && s.pwr.vhold && s.pwr.pwrfailHigh)
  { s with now := s.now + 1, evr := { s.evr with time := s.evr.time + runs } }

/-- What the step does on an empty queue. -/
def execTick (s : State) : Host.Outcome State Fault Refusal := run endTick s

end Sys2Proof.Machine
end

