-- ==== Sys2Proof/Safety.lean ====
section
/-! DEFINITION. The terms that the claims use: where a step leads, and what of a state every command may touch besides its own
effect. -/

namespace Sys2Proof

/-- The step answers a next state. -/
def Completes (s : Machine.State) : Prop := ∃ t, Machine.step s = .next t

/-- A fault or a refusal. -/
def Stops (s : Machine.State) : Prop := ¬ Completes s

/-- `t` is `u` but for what the end of a command may do to the views of the state (R494, R503 to R505, R62, R64): the messages
it sends, the pending vectors and event bits, the trouble record, and the SMBus alerts. -/
def OnlyViews (u t : Machine.State) : Prop :=
  t = { u with host := t.host, pcie := { u.pcie with msixPending := t.pcie.msixPending },
               glb := { u.glb with trouble := t.glb.trouble, evtPend := t.glb.evtPend },
               smb := { u.smb with alerts := t.smb.alerts } }

/-- The command runs from `s` and leads to `u`, but for those views. -/
def LeadsTo (i : Instr) (s u : Machine.State) : Prop := ∃ t, Machine.exec i s = .next t ∧ OnlyViews u t

end Sys2Proof
end

