-- ==== Sys2Proof/Certificates/Slice0/Obligations.lean ====
section
/-! DEFINITION. What is claimed of the block. A claim that a command leads somewhere says that it answers a next state, which
one, and that nothing else changes but the views that follow every command (messages, event bits, the trouble record, SMBus
alerts). -/

namespace Sys2Proof.Claims

open Sys2Proof.Machine

/-- A PF write reaches its register: READY, not SCRAPPED, and no guarded pair pending (R55, R474, R498). -/
def Takes (s : State) : Prop :=
  s.pcie.cfgRetry = false ∧ lc s ≠ .scrapped ∧ s.pcie.ready = true ∧ s.glb.pairs = []

/-- The opcode that an opcode's row runs, the seat it names, and the outcome it computes there. -/
def opcodeRow : Instr → Option (Nat × Nat × (State → Seat → Bytes → Outcome))
  | .opVfSetup k => some (k, 0x010, fun _ _ input => done [] 0 [.vfSetup input])
  | .opRingSetup k => some (k, 0x011, fun _ _ input => done [] 0 [.ringSetup input])
  | .opPartitionErase k => some (k, 0x015, fun _ x _ => done [] 0 [.markErase (x.entry.argN 0 2)])
  | .opKeyWriteClear k => some (k, 0x020, keyWriteClear)
  | .opStageLoad k => some (k, 0x030, (stageLoad k))
  | .opScriptEnroll k => some (k, 0x032, scriptEnroll)
  | .opCurveLoad k => some (k, 0x040, curveLoad)
  | .opLogRead k => some (k, 0x060, logReadOutcome)
  | .opLogClear k => some (k, 0x061, logClearOutcome)
  | .opChallenge k => some (k, 0x070, challengeOutcome)
  | .opRngKat k => some (k, 0x078, rngKat)
  | .opKeyGenerate k => some (k, 0x100, keyGenerate)
  | .opKeyImportWrapped k => some (k, 0x101, keyImport)
  | .opKeyExportWrapped k => some (k, 0x102, keyExport)
  | .opKeyDerive k => some (k, 0x103, keyDerive)
  | .opKeyDestroy k => some (k, 0x104, keyDestroy)
  | .opKeyAttest k => some (k, 0x105, keyAttest)
  | .opKeyPublic k => some (k, 0x106, keyPublic)
  | .opKeyInfo k => some (k, 0x107, keyInfo)
  | .mlKemKeygen k => some (k, 0x200, mlKemKeygen)
  | .mlKemEncaps k => some (k, 0x201, mlKemEncaps)
  | .mlKemDecaps k => some (k, 0x202, mlKemDecaps)
  | .mlDsaKeygen k => some (k, 0x210, mlDsaKeygen)
  | .mlDsaSign k => some (k, 0x211, (mlDsaSign false))
  | .mlDsaVerify k => some (k, 0x212, (mlDsaVerify false))
  | .hashmlDsaSign k => some (k, 0x213, (mlDsaSign true))
  | .hashmlDsaVerify k => some (k, 0x214, (mlDsaVerify true))
  | .falconKeygen k => some (k, 0x220, falconKeygen)
  | .falconSign k => some (k, 0x221, falconSign)
  | .falconVerify k => some (k, 0x222, falconVerify)
  | .hybridKemKeygen k => some (k, 0x230, hybridKeygen)
  | .hybridKemEncaps k => some (k, 0x231, hybridEncaps)
  | .hybridKemDecaps k => some (k, 0x232, hybridDecaps)
  | .slhDsaKeygen k => some (k, 0x300, slhKeygen)
  | .slhDsaSign k => some (k, 0x301, (slhSign false))
  | .slhDsaVerify k => some (k, 0x302, (slhVerify false))
  | .hashslhDsaSign k => some (k, 0x303, (slhSign true))
  | .hashslhDsaVerify k => some (k, 0x304, (slhVerify true))
  | .hssKeygen k => some (k, 0x310, hssKeygen)
  | .hssSign k => some (k, 0x311, hssSign)
  | .hssVerify k => some (k, 0x312, hssVerify)
  | .opLmsReserveStatus k => some (k, 0x313, (reserveOutcome 6))
  | .xmssKeygen k => some (k, 0x320, xmssKeygen)
  | .xmssSign k => some (k, 0x321, xmssSign)
  | .xmssVerify k => some (k, 0x322, xmssVerify)
  | .xmssReserveStatus k => some (k, 0x323, (reserveOutcome 7))
  | .mcelieceKeygen k => some (k, 0x400, mceKeygen)
  | .mcelieceEncaps k => some (k, 0x401, mceEncaps)
  | .mcelieceDecaps k => some (k, 0x402, mceDecaps)
  | .opMcePin k => some (k, 0x403, mcePin)
  | .hqcKeygen k => some (k, 0x410, hqcKeygen)
  | .hqcEncaps k => some (k, 0x411, hqcEncaps)
  | .hqcDecaps k => some (k, 0x412, hqcDecaps)
  | .rsaKeygen k => some (k, 0x500, rsaKeygen)
  | .rsaPrivate k => some (k, 0x501, rsaPrivate)
  | .rsaPublic k => some (k, 0x502, rsaPublic)
  | .ecdsaKeygen k => some (k, 0x510, ecdsaKeygen)
  | .ecdsaSign k => some (k, 0x511, ecdsaSign)
  | .ecdsaVerify k => some (k, 0x512, ecdsaVerify)
  | .ecdh k => some (k, 0x513, ecdhAgree)
  | .eddsaKeygen k => some (k, 0x520, eddsaKeygen)
  | .eddsaSign k => some (k, 0x521, eddsaSign)
  | .eddsaVerify k => some (k, 0x522, eddsaVerify)
  | .x25519 k => some (k, 0x528, xAgree)
  | .x448 k => some (k, 0x529, xAgree)
  | .opStreamOpen k => some (k, 0x600, streamOpen)
  | .opStreamAbsorb k => some (k, 0x601, streamAbsorb)
  | .opStreamFinish k => some (k, 0x602, streamFinish)
  | .opDigestRead k => some (k, 0x603, digestRead)
  | .opStreamSuspend k => some (k, 0x604, streamSuspend)
  | .opStreamResume k => some (k, 0x605, streamResume)
  | .opStreamClose k => some (k, 0x606, streamClose)
  | .opDigestOneshot k => some (k, 0x610, digestOneshot)
  | .opRandom k => some (k, 0x700, random)
  | .opModmul k => some (k, 0x780, modMul)
  | .opModexp k => some (k, 0x781, modExp)
  | .opModinv k => some (k, 0x782, modInv)
  | .opEcPointMul k => some (k, 0x788, ecPointMul)
  | _ => none

/-- The programmed bits of each group lie in its pattern (R464). -/
def FusesFit (o : Otp) : Prop :=
  o.g0 &&& 0xA5C3 = o.g0 ∧ o.g1 &&& 0xA5C3 = o.g1 ∧ o.g2 &&& 0xA5C3 = o.g2 ∧ o.g3 &&& 0xA5C3 = o.g3
    ∧ o.wipe &&& 0x5A5A = o.wipe

/-- Every fuse bit that reads 1 in `a` reads 1 in `b`. -/
def FusesGrow (a b : Otp) : Prop :=
  a.g0 &&& b.g0 = a.g0 ∧ a.g1 &&& b.g1 = a.g1 ∧ a.g2 &&& b.g2 = a.g2 ∧ a.g3 &&& b.g3 = a.g3 ∧ a.wipe &&& b.wipe = a.wipe
    ∧ (a.trimsErased = true → b.trimsErased = true)

/-- The commands that may program fuses: the two steps of a transition, and the losses of supply that cut one short. -/
def programs : Instr → Bool
  | .lcGroupProgrammed => true
  | .lcWipeComplete => true
  | .pwrfailNFall => true
  | .supplyLoss => true
  | .backupSwitchover => true
  | _ => false

/-- An operation that failed left nothing behind: no output but zeros, and no change but a challenge's end or the event of a
rejected curve. -/
def FailsClean (o : Outcome) : Prop :=
  o.status ≠ .ok → (∀ b ∈ o.out, b = 0) ∧ ∀ c ∈ o.changes, c = .challengeUsed ∨ ∃ i n, c = .curveRejected i n

/-- Opcodes whose declared interval the entry alone gives, with the length of the staged input. -/
def fixedTime : Instr → Bool
  | .mlKemKeygen _ => true
  | .mlKemEncaps _ => true
  | .mlKemDecaps _ => true
  | .mlDsaKeygen _ => true
  | .mlDsaVerify _ => true
  | .hashmlDsaVerify _ => true
  | .falconVerify _ => true
  | .hybridKemKeygen _ => true
  | .hybridKemEncaps _ => true
  | .hybridKemDecaps _ => true
  | .slhDsaKeygen _ => true
  | .slhDsaSign _ => true
  | .hashslhDsaSign _ => true
  | .slhDsaVerify _ => true
  | .hashslhDsaVerify _ => true
  | .mcelieceEncaps _ => true
  | .mcelieceDecaps _ => true
  | .hqcKeygen _ => true
  | .hqcEncaps _ => true
  | .hqcDecaps _ => true
  | .rsaPrivate _ => true
  | .eddsaKeygen _ => true
  | .eddsaSign _ => true
  | .eddsaVerify _ => true
  | .x25519 _ => true
  | .x448 _ => true
  | .opModmul _ => true
  | .opModexp _ => true
  | .opModinv _ => true
  | .opDigestOneshot _ => true
  | .opKeyGenerate _ => true
  | .opKeyDerive _ => true
  | .opKeyDestroy _ => true
  | .opChallenge _ => true
  | .opRngKat _ => true
  | .opRandom _ => true
  | _ => false

/-- The verifications of chapters 05, 06 and 08. -/
def verifies : Instr → Bool
  | .mlDsaVerify _ => true
  | .hashmlDsaVerify _ => true
  | .falconVerify _ => true
  | .slhDsaVerify _ => true
  | .hashslhDsaVerify _ => true
  | .hssVerify _ => true
  | .xmssVerify _ => true
  | .ecdsaVerify _ => true
  | .eddsaVerify _ => true
  | _ => false

/-- `s` with ring context `c` as given. -/
def setRing (c : Nat) (r : Ring) (s : State) : State := { s with ush := { s.ush with rings := s.ush.rings.put c r } }

/-- `s` with seat `k` as given. -/
def setSeat (k : Nat) (x : Seat) (s : State) : State := { s with seats := s.seats.put k x }

/-- An integer operand of `w` words, the `i`-th of the input, big-endian (R225). -/
def word (input : Bytes) (w i : Nat) : Nat := beNat ((input.drop (8 * w * i)).take (8 * w))

/-- The waits of OP_VF_QUIESCE in other seats than `k`. -/
def others (k : Nat) (s : State) : List (Nat × Nat) := s.ten.quiesceWaits.filter fun w => w.1 != k

end Sys2Proof.Claims

open Sys2Proof Sys2Proof.Machine Sys2Proof.Claims

/-! ### The queue -/

/-- The step takes the command at the front of the queue and runs it with the queue's rest. -/
def Obligations.StepTakesFront : Prop :=  ∀ (i : Instr) (s : State), step { s with pending := i :: s.pending } = exec i s

/-- On an empty queue one MTICK passes (the model's choice, assumption log 2): the time advances, the operating time with it
while every supply is valid (R478), and nothing else changes. -/
def Obligations.EmptyQueueTicks : Prop :=  ∀ s : State, s.pending = [] → ∃ t, step s = .next t
    ∧ OnlyViews { s with
        now := s.now + 1,
        evr := { s.evr with time := s.evr.time
          + (if s.pwr.vault ∧ s.pwr.mains ∧ s.pwr.vhold ∧ s.pwr.pwrfailHigh then 1 else 0) } } t

/-- Every command but the read of a torn entry answers a next state, and leaves the queue alone; that read stops the model, for
the spec calls its outcome undefined (R78). -/
def Obligations.CommandsComplete : Prop :=
  (∀ (i : Instr) (s : State), (∀ c e, i ≠ .entryRead c e true) → ∃ t, exec i s = .next t ∧ t.pending = s.pending)
  ∧ (∀ (c : Nat) (e : Entry) (s : State), exec (.entryRead c e true) s = .fault (.tornEntry c))

/-! ### Fuses and reset -/

/-- The groups of the life-cycle field keep to their patterns at every step (R464). -/
def Obligations.FusePatternKept : Prop := ∀ s t : State, FusesFit s.otp → step s = .next t → FusesFit t.otp

/-- After reset the life-cycle field keeps to its patterns: it is blank, and the state is BLANK (R464, R465). -/
def Obligations.FusePatternAtReset : Prop := FusesFit State.reset.otp ∧ lc State.reset = .blank

/-- A fuse bit that reads 1 reads 1 for ever (R464), and only the steps of a transition and the losses of supply that cut one
short program any: no other command changes the life-cycle state. -/
def Obligations.FusesOneWay : Prop :=
  (∀ s t : State, step s = .next t → FusesGrow s.otp t.otp)
  ∧ (∀ (i : Instr) (s t : State), programs i = false → exec i s = .next t → t.otp = s.otp ∧ lc t = lc s)

/-! ### Opcodes: what a dispatched operation computes -/

/-- An operation that is dispatched, staged and caught up computes the outcome of its opcode, E_ENTROPY and stray handles
decided first; its seat holds it, and nothing else changes but the expansion cache (R129) and the model's free counter. Such a
row that names any other seat changes nothing (the model's choice, assumption log 8: the seat is empty, runs another opcode, or
has not come so far). -/
def Obligations.OpcodeRowsCompute : Prop :=
  (∀ i k o f, opcodeRow i = some (k, o, f) → ∀ (s : State) (x : Seat), s.seats.get? k = some x → computing x o = true →
      ∃ cache n, LeadsTo i s { s with
        free := n, keys := { s.keys with cache := cache },
        seats := s.seats.put k { x with outcome := some (settleOutcome x (f s x (fullInput s x))) } })
  ∧ (∀ i k o f, opcodeRow i = some (k, o, f) → ∀ s : State, (∀ x, s.seats.get? k = some x → computing x o = false) →
      LeadsTo i s s)

/-- An operation that does not end with S_OK leaves nothing behind: what it writes is zeros, and it makes no change but a
challenge's end. A verification answers and writes nothing at all: no output, no rounds, no change (R145, R169). -/
def Obligations.OutcomesAreClean : Prop :=
  (∀ i k o f, opcodeRow i = some (k, o, f) → ∀ (s : State) (x : Seat) (input : Bytes), FailsClean (settleOutcome x (f s x input)))
  ∧ (∀ i k o f, opcodeRow i = some (k, o, f) → verifies i = true → ∀ (s : State) (x : Seat) (b : Bytes),
      (f s x b).out = [] ∧ (f s x b).changes = [] ∧ (f s x b).rounds = 0)

/-- The declared interval is the same whatever the secrets, the message bytes and the rest of the device's state: the opcode,
the entry, its fragments, the length of its input and the width of its pair give it (R323). -/
def Obligations.FixedIntervals : Prop :=  ∀ i k o f, opcodeRow i = some (k, o, f) → fixedTime i = true →
    ∀ (s s' : State) (x x' : Seat) (b b' : Bytes), x.entry = x'.entry → x.frags = x'.frags → x.half = x'.half →
      b.length = b'.length →
      (settleOutcome x (f s x b)).interval = (settleOutcome x' (f s' x' b')).interval

/-- SLH-DSA verification answers S_OK for a valid signature and S_VERIFY_FAIL for any other, writes no output, and takes a public
key that the host supplies as it is given (R169). The same of ML-DSA (R145). What makes a signature valid is the standard's,
which the model does not open (assumption log 3). -/
def Obligations.VerificationsAnswer : Prop :=  ∀ (s : State) (k : Nat) (x : Seat) (pre : Bool), s.seats.get? k = some x → x.noEntropy = false →
    strayHandle x = false → preHashBad pre x.entry = false →
    let e := x.entry
    let b := fullInput s x
    let answers (i : Instr) (valid : Bool) : Prop :=
      ∃ t y o, exec i s = .next t ∧ t.seats.get? k = some y ∧ y.outcome = some o
        ∧ o.status = (if valid then .ok else .verifyFail) ∧ o.out = [] ∧ o.changes = []
    let verified (i : Instr) (op fam pk sig : Nat) (v : Config.Pred) : Prop := computing x op = true →
      (e.keyHandle = 0 → keySlot s x = none → answers i (Config.primHolds v
        [tag e.ps, b.take pk, (b.drop pk).take sig, messagePrime pre (e.arg 0) (e.arg 2) (b.drop (pk + sig))]))
      ∧ (∀ y, keySlot s x = some y → e.keyHandle ≠ 0 → y.family = fam → y.paramSet = e.ps →
        answers i (Config.primHolds v [tag e.ps, publicOf s fam e.ps y.form y.material, b.take sig,
          messagePrime pre (e.arg 0) (e.arg 2) (b.drop sig)]))
    (∀ pk sk sig, slhDsa e.ps = some (pk, sk, sig) →
      verified (if pre then .hashslhDsaVerify k else .slhDsaVerify k) (if pre then 0x304 else 0x302) 5 pk sig .slhValid)
    ∧ (∀ pk sk sig, mlDsa e.ps = some (pk, sk, sig) →
      verified (if pre then .hashmlDsaVerify k else .mlDsaVerify k) (if pre then 0x214 else 0x212) 2 pk sig .mlDsaValid)

/-- Keygen without SEALED asks for one new key of the submitting function, origin generated-inside, with the seed drawn for it,
in the slot that AUX_HANDLE names, and returns the public key: 64 fresh bytes d ‖ z for ML-KEM, 32 fresh bytes for ML-DSA (R127,
R132, R133). A destroyed key's slot, where a slot is named; a derived key is exportable only under an exportable one, has the
usage asked for, and origin derived (R261, R265). -/
def Obligations.KeysArePlaced : Prop :=
  (∀ (s : State) (x : Seat) (b : Bytes),
      let usage := bits (x.entry.arg 0) 6 0
      let exportable := x.entry.argBit 1 0
      let key (fam len : Nat) : NewKey :=
        { owner := x.fn, family := fam, paramSet := x.entry.ps, form := 0, usage := usage, origin := 0,
          exportable := exportable, material := fresh x 0 len, units := 1, heights := [], consts := [] }
      sealedForm x.entry = false → (bit usage 6 = true → exportable = true) →
        ((mlKemKeygen s x b).status = .ok
          ∧ (mlKemKeygen s x b).changes = [.putKey x.entry.auxHandle.toNat (key 1 64)]
          ∧ (mlKemKeygen s x b).out = publicOf s 1 x.entry.ps 0 (key 1 64).material)
        ∧ ((mlDsaKeygen s x b).status = .ok
          ∧ (mlDsaKeygen s x b).changes = [.putKey x.entry.auxHandle.toNat (key 2 32)]
          ∧ (mlDsaKeygen s x b).out = publicOf s 2 x.entry.ps 0 (key 2 32).material))
  ∧ (∀ (s : State) (x : Seat) (b : Bytes),
      (∀ n y, slotOf s x.entry.keyHandle.toNat = some (n, y) →
        (keyDestroy s x b).status = .ok ∧ (keyDestroy s x b).changes = [.destroyKey n])
      ∧ (∀ target key, (keyDerive s x b).changes = [.putKey target key] →
        target = x.entry.auxHandle.toNat ∧ key.owner = x.fn ∧ key.origin = 3 ∧ key.usage = bits (x.entry.arg 0) 6 0
          ∧ (key.exportable = true → ∃ y, keySlot s x = some y ∧ y.exportable = true)))

/-- A decapsulation from a private ML-KEM slot always succeeds (implicit rejection, R138): the secret is returned, or with
DEPOSIT it becomes a key of usage derive and origin derived, and the output does not hold it (R134). -/
def Obligations.DecapsulationRejectsImplicitly : Prop :=  ∀ (s : State) (x : Seat) (b : Bytes) (y : Slot), sealedForm x.entry = false → privateKey s x 1 = some y →
    let secret := mlKemDecapsulate x.entry.ps y.form y.material b
    (mlKemDecaps s x b).status = .ok
      ∧ (deposits x.entry = false → (mlKemDecaps s x b).out = secret ∧ (mlKemDecaps s x b).changes = [])
      ∧ (deposits x.entry = true → (mlKemDecaps s x b).out = [] ∧ ∃ key : NewKey,
          (mlKemDecaps s x b).changes = [.putKey x.entry.auxHandle.toNat key] ∧ key.material = secret ∧ key.usage = 8
            ∧ key.origin = 3 ∧ key.owner = x.fn ∧ key.exportable = depExportable x.entry)

/-- Raw results for an odd modulus: a·b mod m, a^e mod m, and the inverse in [0, m) where there is one, 0 otherwise, always with
S_OK; operands at or above m are accepted (R224, R226). -/
def Obligations.RawResults : Prop :=  ∀ (s : State) (x : Seat) (b : Bytes),
    let w := x.entry.ps
    let m := word b w 0
    let a := word b w 1
    x.frags.any Fragment.isKey = false → m % 2 = 1 →
      ((modMul s x b).status = .ok ∧ (modMul s x b).out = beBytes (8 * w) (a * word b w 2 % m))
      ∧ ((modExp s x b).status = .ok ∧ (modExp s x b).out = beBytes (8 * w) (a ^ beNat (b.drop (16 * w)) % m))
      ∧ ((modInv s x b).status = .ok
        ∧ (Nat.gcd a m = 1 → ∃ r, r < m ∧ a * r % m = 1 % m ∧ (modInv s x b).out = beBytes (8 * w) r)
        ∧ (Nat.gcd a m ≠ 1 → (modInv s x b).out = beBytes (8 * w) 0))

/-- OP_RANDOM returns the first LENGTH bytes of what its DRBG instance generates for it, at 400 + 32 · ceil(LENGTH / 16) CCLK,
and E_INVALID_INPUT at the interval of LENGTH 1 outside 1 to 65,536 (R298). -/
def Obligations.RandomReturnsItsReservation : Prop :=  ∀ (s : State) (x : Seat) (b : Bytes),
    let n := x.entry.argN 0 4
    let good : Outcome :=
      { status := .ok, out := x.gen.output 0 n, rounds := 0,
        interval := 400 + 32 * ((n + 15) / 16), changes := [] }
    let bad : Outcome := { status := .invalidInput, out := [], rounds := 0, interval := 432, changes := [] }
    (1 ≤ n ∧ n ≤ 65536 → random s x b = good) ∧ (n = 0 ∨ 65536 < n → random s x b = bad)

/-- What the stream operations do to a stream in each of its states (R234, R240, R241): ABSORB, FINISH and SUSPEND serve an OPEN
stream only, READ of an OPEN one writes zeros with E_NOT_FINISHED, and CLOSE closes any. -/
def Obligations.StreamStates : Prop :=  ∀ (s : State) (x : Seat) (b : Bytes) (n : Nat) (t : Stream), streamOf s x.entry.auxHandle.toNat = some (n, t) →
    (t.state = .finished →
      (streamAbsorb s x b).status = .invalidInput ∧ (streamFinish s x b).status = .invalidInput
        ∧ (streamSuspend s x b).status = .invalidInput)
    ∧ (t.state = .opened →
      ((streamSuspend s x b).status = .ok ∧ (streamSuspend s x b).changes = [.closeStream n])
      ∧ (fragmentRefused s x = false → (streamAbsorb s x b).status = .ok ∧ ∃ u,
          (streamAbsorb s x b).changes = [.setStream n u] ∧ u.state = .opened ∧ u.count = t.count + b.length)
      ∧ (fragmentRefused s x = false → dlenOk t.alg (x.entry.argN 0 4) (2 ^ 32 - 1) = true →
          (streamFinish s x b).status = .ok ∧ ∃ u,
          (streamFinish s x b).changes = [.setStream n u] ∧ u.state = .finished ∧ u.pos = 0)
      ∧ (readArgsBad x.entry t.alg = false →
          (digestRead s x b).status = .notFinished ∧ (digestRead s x b).changes = [] ∧ ∀ c ∈ (digestRead s x b).out, c = 0))
    ∧ ((streamClose s x b).status = .ok ∧ (streamClose s x b).changes = [.closeStream n])

/-! ### Rings (chapter 03) -/

/-- A poll of a ring that is read, is not hot and has no live read outstanding issues one read, and counts, while the device has
fewer than 768 reads outstanding (R48); an entry whose PHASE is
not EXP_PHASE is not valid and ends the hot state, and a read issued after it is discarded unexamined (R77, R85). -/
def Obligations.RingReads : Prop :=
  (∀ (s : State) (c : Nat) (r : Ring), s.ush.rings.get? c = some r → readable s r = true → r.hot = false →
      r.reads = r.stale → r.frag = none → readsOut s < 768 →
      LeadsTo (.usherPoll c) s (bump Ctr.polls 1 (setRing c { r with reads := r.reads + 1, held := false } s)))
  ∧ (∀ (s : State) (c : Nat) (r : Ring) (e : Entry), s.ush.rings.get? c = some r → r.frag = none →
      (r.reads ≠ 0 → r.stale ≠ 0 → LeadsTo (.entryRead c e false) s
        (setRing c { r with reads := r.reads - 1, stale := r.stale - 1 } s))
      ∧ (r.reads ≠ 0 → r.stale = 0 → e.phase ≠ r.expPhase → LeadsTo (.entryRead c e false) s
        (setRing c { r with reads := r.reads - 1, stale := r.reads - 1, hot := false, held := false } s)))

/-- A valid entry that fails a structural check halts its function: the halt record names the check, its code, the ring and the
index, every ring of the function stops being read, and no entry is consumed (R89, R90, R91). -/
def Obligations.MalformationHalts : Prop :=  ∀ (s : State) (c : Nat) (r : Ring) (e : Entry) (n : Nat) (code : HaltCode), s.ush.rings.get? c = some r → r.frag = none →
    r.reads ≠ 0 → r.stale = 0 → readable s r = true → e.phase = r.expPhase → structural s r.owner e = some (n, code) →
    ∃ t h, exec (.entryRead c e false) s = .next t ∧ t.ush.halts.get? r.owner = some h ∧ h.code = code ∧ h.check = n
      ∧ h.ringId = r.ringId ∧ h.index = r.sqNext ∧ h.addr = r.sqBase + 128 * r.sqNext
      ∧ r.owner ∈ t.ush.halted ∧ t.seats = s.seats ∧ t.writer = s.writer
      ∧ ∃ q, t.ush.rings.get? c = some q ∧ q.sqNext = r.sqNext ∧ q.hot = false ∧ q.stale = q.reads

/-- An entry that passes the structural checks and fails an admission check completes at once with the status of the first
failure: it takes no seat, and its record waits for the writer (R76, R93). -/
def Obligations.RefusedEntriesCompleteAtOnce : Prop :=  ∀ (s : State) (c : Nat) (r : Ring) (e : Entry) (st : Status) (n : Nat) (p : OpEntry), s.ush.rings.get? c = some r →
    r.frag = none → r.reads ≠ 0 → r.stale = 0 → readable s r = true → e.phase = r.expPhase →
    structural s r.owner e = none → e.fragCount = 0 → planEntry s e.opc e.ps = some p →
    admissionCheck s r.owner r.ringId e [] = some (st, n) →
    ∃ t i, exec (.entryRead c e false) s = .next t ∧ t.seats = s.seats ∧ t.writer = s.writer ++ [i]
      ∧ i.ring = c ∧ i.index = r.sqNext ∧ i.seat = none ∧ i.out = [] ∧ i.record.status = st ∧ i.record.outLen = n
      ∧ i.record.userTag = e.userTag ∧ i.record.units = 0 ∧ i.record.exec = 0
      ∧ ∃ q, t.ush.rings.get? c = some q ∧ q.sqNext = (r.sqNext + 1) % 2 ^ r.log2

/-- An entry that passes every check takes a free seat, fixed to the bank now active, and SQ_NEXT moves past it, EXP_PHASE
toggling at the wrap (R22, R24, R77). With a fragment list it does so when the list arrives and passes its checks. -/
def Obligations.AdmittedEntriesTakeASeat : Prop :=  ∀ (s : State) (c : Nat) (r : Ring) (e : Entry) (k : Nat) (p : OpEntry) (fs : List Fragment),
    s.ush.rings.get? c = some r → readable s r = true → planEntry s e.opc e.ps = some p →
    admissionCheck s r.owner r.ringId e fs = none → freeSeat s r.owner = some k →
    let taken (t : State) : Prop :=
      s.seats.get? k = none ∧ t.writer = s.writer ∧ ∃ x, t.seats = s.seats.put k x ∧ x.fn = r.owner ∧ x.ring = c ∧ x.entry = e ∧ x.frags = fs
        ∧ x.index = r.sqNext ∧ x.phase = .waiting ∧ x.bank = s.stg.active ∧ x.table = p ∧ x.outcome = none
        ∧ ∃ q, t.ush.rings.get? c = some q ∧ q.sqNext = (r.sqNext + 1) % 2 ^ r.log2
          ∧ (q.expPhase = r.expPhase ↔ q.sqNext ≠ 0)
    (r.frag = none → r.reads ≠ 0 → r.stale = 0 → e.phase = r.expPhase → structural s r.owner e = none → e.fragCount = 0 →
      fs = [] → ∃ t, exec (.entryRead c e false) s = .next t ∧ taken t)
    ∧ (r.frag = some e → fs.length = e.fragCount.toNat → fragmentChecks e fs = none →
      ∃ t, exec (.fragmentListRead c fs) s = .next t ∧ taken t)

/-- The usher's registers: INTERVAL, with 1 to 3 stored as 4; BUDGET, within 1 to 256; and the restart of PF rings, which clears
the PF's halt and resets its rings (R86, R92, R97). With ENABLE written and no PF ring 0, USH_ADMIN_CFG creates it in context 0
from the three admin registers, or sets SETUP_ERR where a check of R68 fails (R70). -/
def Obligations.UsherRegisters : Prop :=
  (∀ s : State, Takes s →
      (∀ c r v, s.ush.rings.get? c = some r → v < 2 ^ 18 → LeadsTo (.ringIntervalWrite c v) s
        (setRing c { r with interval := if v = 0 then 0 else if v < 4 then 4 else v } s))
      ∧ (∀ v, v < 512 → s.tmp.shadowBad = [] → LeadsTo (.ushBudgetWrite v) s
        { s with ush := { s.ush with budget := max 1 (min 256 v) } })
      ∧ (∀ v : BitVec 64, v.getLsbD 0 = true → ∃ t, exec (.ushPfRestart v) s = .next t ∧ halted t 0 = false
        ∧ ∀ c r, s.ush.rings.get? c = some r →
          (r.owner ≠ 0 → t.ush.rings.get? c = some r)
          ∧ (r.owner = 0 → ∃ q, t.ush.rings.get? c = some q ∧ q.sqNext = 0 ∧ q.cqNext = 0 ∧ q.expPhase = true
              ∧ q.cqPhase = true ∧ q.interval = 0 ∧ q.sqBase = r.sqBase ∧ q.ringId = r.ringId)))
  ∧ (∀ (s : State) (v : BitVec 64), Takes s → ringContext s 0 0 = none → v.getLsbD 16 = true →
      let spec := adminSpec s v.toNat
      (spec.log2 ≠ 0 → ringSetupCheck s spec true = none → ∃ t q, exec (.ushAdminCfgWrite v) s = .next t
        ∧ t.ush.setupErr = false ∧ t.ush.rings = s.ush.rings.put 0 q ∧ q.owner = 0 ∧ q.ringId = 0
        ∧ q.sqBase = s.ush.adminSq ∧ q.cqBase = s.ush.adminCq ∧ q.log2 = v.toNat % 32 ∧ q.expPhase = true)
      ∧ (spec.log2 = 0 ∨ ringSetupCheck s spec true ≠ none → ∃ t, exec (.ushAdminCfgWrite v) s = .next t
        ∧ t.ush.setupErr = true ∧ t.ush.rings = s.ush.rings))

/-! ### Staging, dispatch and the end of an interval (chapters 01, 03, 12) -/

/-- The seat that receives pages is one that waits, whose demand fits the free pages and its function's quota at admission; it
can be staged from then on, and no other seat changes (R95, R107). -/
def Obligations.PagesAreGranted : Prop :=  ∀ (s : State) (k : Nat) (x : Seat), nextGrant s = some (k, x) →
    pagesHeld s + x.demand ≤ wingsTotal s ∧ (x.fn ≠ 0 → pagesOf s x.fn + x.demand ≤ x.quota.pages)
    ∧ x.phase = .waiting
    ∧ ∃ t y, exec .pageGrant s = .next t ∧ t.seats.get? k = some y ∧ y.phase = .granted ∧ t.ush.granted = x.fn
      ∧ t.writer = s.writer ∧ ∀ j, j ≠ k → t.seats.get? j = s.seats.get? j

/-- A seat that holds pages, and whose read was issued, takes its input once, whole; a streamed one chunk by chunk of 65,536
bytes, the host's part of each, at most two of them staged beyond those processed; the pair of a McEliece key processes them in
turn. The next reads are issued while the function may master the bus (R50, R198, R237, R307). -/
def Obligations.OperandsAreStaged : Prop :=  ∀ (s : State) (k : Nat) (x : Seat), s.seats.get? k = some x →
    (∀ input, stagingOpen x = true → x.input = none → streamedInput x.header x.entry = false → x.asked ≠ 0 →
      input.length = hostLen x →
      LeadsTo (.operandStaged k input) s (setSeat k { x with input := some input } s))
    ∧ (∀ chunk, stagingOpen x = true → streamedInput x.header x.entry = true → x.input = none → x.staged < chunkCount x →
      x.staged < x.processed + 2 → x.staged < x.asked → chunk.length = chunkLen x x.staged →
      let processed := if x.phase = .executing ∧ absorbsAtOnce x = true then x.staged + 1 else x.processed
      LeadsTo (.streamChunkStaged k chunk) s (setSeat k { x with
        chunks := x.chunks ++ chunk, staged := x.staged + 1, processed := processed,
        asked := if canMaster s x.fn = true then processed + 2 else x.asked,
        input := if x.staged + 1 = chunkCount x then some (x.chunks ++ chunk) else none } s))
    ∧ (∀ chunk, x.processed + 2 ≤ x.staged → LeadsTo (.streamChunkStaged k chunk) s s)
    ∧ (x.phase = .executing → x.entry.opc = 0x401 → x.processed < x.staged →
      LeadsTo (.chunkProcessed k) s (setSeat k { x with
        processed := x.processed + 1, asked := if canMaster s x.fn = true then x.processed + 3 else x.asked } s))

/-- The seat that the dispatcher serves starts to run, on two tiles of its pool that are not the same one, where its opcode
needs a pair (R305, R306); what is decided at dispatch ends the operation there with its status, no output and no charge (R76,
R228, R511). -/
def Obligations.Dispatch : Prop :=
  (∀ (s : State) (k : Nat) (x : Seat), s.seats.get? k = some x → servedNext s k x = true → dispatchCheck s x = none →
      ∃ t y, exec (.dispatch k) s = .next t ∧ t.seats.get? k = some y ∧ y.phase = .executing ∧ y.entry = x.entry
        ∧ t.til.served = x.fn ∧ t.writer = s.writer
        ∧ (needsPair x = true → ∃ a b, y.tileA = some a ∧ y.tileB = some b ∧ a / 2 ≠ b / 2
            ∧ (tileAt s (a / 2)).pool = poolOf x ∧ (tileAt s (b / 2)).pool = poolOf x
            ∧ (tileAt s (a / 2)).state = .active ∧ (tileAt s (b / 2)).state = .active))
  ∧ (∀ (s : State) (k : Nat) (x : Seat) (st : Status), s.seats.get? k = some x → servedNext s k x = true →
      dispatchCheck s x = some (.status st) → x.detached = false →
      ∃ t i, exec (.dispatch k) s = .next t ∧ t.writer = s.writer ++ [i] ∧ i.seat = some k ∧ i.out = []
        ∧ i.record.status = st ∧ i.record.units = 0 ∧ i.record.exec = 0 ∧ i.record.userTag = x.entry.userTag)

/-- The steps of a run: the recompute of an overwritten checkpoint leads to the catch-up, the catch-up to the interval
(R182, R256); a side stopped at its deadline is marked (R344). Nothing else of the seat changes. -/
def Obligations.StepsOfARun : Prop :=  ∀ (s : State) (k : Nat) (x : Seat), s.seats.get? k = some x → x.phase = .executing →
    (x.catchUp = .advance → LeadsTo (.catchUpComplete k) s (setSeat k { x with catchUp := .done } s))
    ∧ (x.catchUp = .recompute →
      LeadsTo (.checkpointRecompute k) s (bump Ctr.ktRebuilds 1 (setSeat k { x with catchUp := .advance } s)))
    ∧ (s.scr.sides.get? k = none →
      LeadsTo (.scriptOverrun k .a) s (setSeat k { x with overA := true } s)
      ∧ LeadsTo (.scriptOverrun k .b) s (setSeat k { x with overB := true } s))

/-- The sides match at the end of the declared interval: the operation commits. Its record carries its status, its output length,
ROUNDS, the units of its table entry and the interval as EXEC_CCLK, and stands at the end of the writer's queue (R27, R75,
R116, R323). Where no chapter fixes an interval, the row that ends it gives the time (R326). -/
def Obligations.MatchingRunsCommit : Prop :=  ∀ (s : State) (k a b cclk : Nat) (x : Seat) (o : Outcome), s.seats.get? k = some x → x.phase = .executing →
    x.outcome = some o → x.overA = false → mismatched s k x a b = false → x.detached = false → sharing s = false →
    o.changes = [] → o.status ≠ .quota → o.interval < 2 ^ 32 → cclk < 2 ^ 32 →
    let commits (t : State) (time : Nat) : Prop :=
      ∃ i rest, t.writer = s.writer ++ i :: rest ∧ i.seat = some k ∧ i.ring = x.ring ∧ i.index = x.index ∧ i.out = o.out
        ∧ i.record.status = o.status ∧ i.record.outLen = o.out.length ∧ i.record.rounds = o.rounds
        ∧ i.record.userTag = x.entry.userTag ∧ i.record.seatHint = k ∧ i.record.exec = time ∧ i.record.scale = false
        ∧ i.record.units = chargeUnits x.header x.table x.entry.ps
        ∧ ∃ y, t.seats.get? k = some y ∧ y.phase = .committed ∧ y.tileA = none ∧ y.tileB = none
    (unfixedOpcodes.contains x.entry.opc = false →
      ∃ t, exec (.intervalEnd k a b) s = .next t ∧ commits t o.interval)
    ∧ (unfixedOpcodes.contains x.entry.opc = true → mismatched s k x 0 0 = false →
      ∃ t, exec (.unfixedIntervalCommit k cclk) s = .next t ∧ commits t cclk)

/-- The sides mismatch: the run is discarded, uncommitted, and the operation waits for a fresh pair; the third mismatch ends it
with E_FAULT_REPEAT, uncharged (R316, R317). Channel 40, which counts the mismatch, stays below its K here, for its firing may
drop the curtain. -/
def Obligations.MismatchesRunAgain : Prop :=  ∀ (s : State) (k a b : Nat) (x : Seat) (o : Outcome), s.seats.get? k = some x → x.phase = .executing →
    x.outcome = some o → mismatched s k x a b = true → unfixedOpcodes.contains x.entry.opc = false → x.detached = false →
    (monAt s 40).stamps.length + 1 < (monAt s 40).k →
    (x.run < 2 → ∃ t y, exec (.intervalEnd k a b) s = .next t ∧ t.writer = s.writer ∧ t.seats.get? k = some y
      ∧ y.phase = .granted ∧ y.run = x.run + 1 ∧ y.outcome = none ∧ y.tileA = none ∧ y.tileB = none ∧ y.used = x.used)
    ∧ (2 ≤ x.run → ∃ t i, exec (.intervalEnd k a b) s = .next t ∧ t.writer = s.writer ++ [i] ∧ i.seat = some k ∧ i.out = []
      ∧ i.record.status = .faultRepeat ∧ i.record.units = 0)

/-! ### Tenants (chapter 04) -/

/-- OP_VF_RESET starts the reset of an existing VF, which OP_VF_RESET given meanwhile joins, and its own result waits for the
end of the reset; any other FUNCTION ends it with E_INVALID_INPUT (R112). A VF reset squashes the VF's operations that were not
dispatched, with no record and no charge, detaches those that were, and none of its output or records is written any more; as it
ends, the VF's rings take their reset values, its halt and mailbox clear, other functions' rings stay, the operations that
joined it complete, and after an FLR the FRS message is sent (R92, R109). -/
def Obligations.VfResets : Prop :=
  (∀ (s : State) (k : Nat) (x : Seat), s.seats.get? k = some x → computing x 0x012 = true → strayHandle x = false →
      let f := x.entry.argN 0 2
      (f = 0 ∨ fnExists s f = false → LeadsTo (.opVfReset k) s (setSeat k { x with outcome := some (ended .invalidInput 0) } s))
      ∧ (f ≠ 0 → fnExists s f = true → ∀ r, s.ten.resets.get? f = some r →
        (s.ten.resets.any fun q => q.2.joined.contains k) = false →
        LeadsTo (.opVfReset k) s { s with ten := { s.ten with resets := s.ten.resets.put f { r with joined := r.joined ++ [k] } } })
      ∧ (f ≠ 0 → fnExists s f = true → s.ten.resets.get? f = none →
        (s.ten.resets.any fun q => q.2.joined.contains k) = false →
        ∃ t, exec (.opVfReset k) s = .next t ∧ t.ten.resets.get? f = some { cause := 1, joined := [k], vanishes := false }))
  ∧ (∀ (s : State) (f : Nat), f ≠ 0 → fnExists s f = true → s.ten.resets.get? f = none →
      ∃ t, exec (.vfFlr f) s = .next t ∧ t.ten.resets.get? f = some { cause := 0, joined := [], vanishes := false }
        ∧ t.writer = s.writer.filter (fun i => i.fn != f) ∧ t.box.counters = s.box.counters
        ∧ (∀ k x, t.seats.get? k = some x → x.fn = f → x.detached = true ∧ x.phase ≠ .waiting ∧ x.phase ≠ .committed
          ∧ (x.phase = .granted → x.run ≠ 0))
        ∧ ∀ c r, s.ush.rings.get? c = some r → r.owner ≠ f → t.ush.rings.get? c = some r)
  ∧ (∀ (s : State) (f : Nat) (r : VfReset), s.ten.resets.get? f = some r →
      ∃ t, exec (.vfResetComplete f) s = .next t ∧ t.ten.resets.get? f = none ∧ t.ten.mail.get? f = none ∧ halted t f = false
        ∧ t.writer = s.writer
        ∧ (∀ c q, s.ush.rings.get? c = some q →
          (q.owner ≠ f → t.ush.rings.get? c = some q)
          ∧ (q.owner = f → ∃ p, t.ush.rings.get? c = some p ∧ p.sqNext = 0 ∧ p.cqNext = 0 ∧ p.expPhase = true
            ∧ p.cqPhase = true ∧ p.interval = 0 ∧ p.sqBase = q.sqBase ∧ p.ringId = q.ringId))
        ∧ (∀ k x, k ∈ r.joined → s.seats.get? k = some x → computing x 0x012 = true → x.entry.argN 0 2 = f →
          ∃ y, t.seats.get? k = some y ∧ y.outcome = some (done [] 0 []))
        ∧ (r.cause = 0 → fnExists s f = true → Emit.frs f ∈ t.host))

/-- A VF reset, from its start by FLR, by OP_VF_RESET or by VF Enable to its completion, does not touch tenant custody: the
tenant table, the key slots, the reservations of stateful keys and the open streams remain, and so does QUIESCING (R111). A
stream whose absorb is cut off with its input unread is then BROKEN (assumption log 31). -/
def Obligations.CustodyOutlivesVfResets : Prop :=  ∀ (s : State) (f k : Nat) (ari : Bool) (i : Instr), i ∈ [.vfFlr f, .opVfReset k, .vfEnable false f ari, .vfResetComplete f] →
    ∃ t, exec i s = .next t ∧ t.ten.table = s.ten.table ∧ t.keys.slots = s.keys.slots ∧ t.ten.quiescing = s.ten.quiescing
      ∧ (∀ n y, s.keys.stateful.get? n = some y → ∃ z, t.keys.stateful.get? n = some z
        ∧ z = { y with forfeited := z.forfeited })
      ∧ (∀ n u, s.dig.streams.get? n = some u → t.dig.streams.get? n = some u
        ∨ t.dig.streams.get? n = some { u with state := .broken })

/-- OP_VF_QUIESCE sets QUIESCING at once, ends when the VF holds no seat and no seat references its streams, the release of the
last such seat ending its wait, or after its time with E_BUSY, QUIESCING kept; with RELEASE it asks for QUIESCING to be cleared
(R113). The mailbox: a write stores LENGTH, at most 2,032 (the model's choice, assumption log 103), and SEND with BUSY clear
sets BUSY; the PF's ACK clears BUSY, its SEND delivers while FULL is clear, and the VF's ACK frees the inbound message, LENGTH
with it (the model's choice, the same entry; R105). -/
def Obligations.QuiesceAndMailboxes : Prop :=
  (∀ (s : State) (k : Nat) (x : Seat), s.seats.get? k = some x → computing x 0x014 = true → strayHandle x = false →
      let f := x.entry.argN 0 2
      1 ≤ f → f ≤ 4096 →
      (x.entry.argBit 2 0 = true →
        LeadsTo (.opVfQuiesce k) s (setSeat k { x with outcome := some (done [] 0 [.unquiesce f]) } s))
      ∧ (x.entry.argBit 2 0 = false → quiet s f = true ∨ fnExists s f = false →
        LeadsTo (.opVfQuiesce k) s (setSeat k { x with outcome := some (done [] 0 []) }
          { s with ten := { s.ten with quiescing := insertSorted f s.ten.quiescing, quiesceWaits := others k s } }))
      ∧ (x.entry.argBit 2 0 = false → fnExists s f = true → quiet s f = false →
        LeadsTo (.opVfQuiesce k) s { s with ten := { s.ten with
          quiescing := insertSorted f s.ten.quiescing, quiesceWaits := others k s ++ [(k, f)] } })
      ∧ ((s.ten.quiesceWaits.find? fun w => w.1 = k) = some (k, f) →
        LeadsTo (.quiesceTimeout k) s (setSeat k { x with outcome := some (ended (if quiet s f then .ok else .busy) 0) }
          { s with ten := { s.ten with quiesceWaits := others k s } }))
      ∧ ((s.ten.quiesceWaits.find? fun w => w.1 = k) = none → LeadsTo (.quiesceTimeout k) s s))
  ∧ (∀ (s : State) (k f j : Nat) (x y : Seat), s.ten.quiesceWaits = [(k, f)] → s.seats.get? k = some x → s.seats.get? j = some y →
      j ≠ k → quiet { s with seats := s.seats.del j } f = true →
      ∃ z, (releaseSeat j s).seats.get? k = some z ∧ z.outcome = some (done [] 0 []) ∧ (releaseSeat j s).ten.quiesceWaits = [])
  ∧ (∀ (s : State) (f : Nat), f ≠ 0 → fnExists s f = true →
      let m := mailOf s f
      let put (n : Mailbox) : State := { s with ten := { s.ten with mail := s.ten.mail.put f n } }
      (∀ v : BitVec 32, LeadsTo (.vfcMbxOutSend f v) s
        (put { m with outLen := min 2032 (v.toNat % 4096), busy := m.busy || v.getLsbD 16 }))
      ∧ LeadsTo (.vfcMbxInAck f) s (put { m with full := false, inLen := 0 })
      ∧ (Takes s → s.ten.mailSel + 1 = f →
        LeadsTo .vfcPfMbxRxAck s (put { m with busy := false })
        ∧ (∀ v : BitVec 32, v.getLsbD 16 = true → m.full = false → ∃ t, exec (.vfcPfMbxTxSend v) s = .next t
          ∧ mailOf t f = { m with txLen := min 2032 (v.toNat % 4096), full := true, inLen := min 2032 (v.toNat % 4096) })
        ∧ (∀ v : BitVec 32, v.getLsbD 16 = true → m.full = true → LeadsTo (.vfcPfMbxTxSend v) s
          (put { m with txLen := min 2032 (v.toNat % 4096) }))))

/-! ### The PCIe controller, SMBus and DOE (chapter 02) -/

/-- VF Enable without ARI brings no VF into existence; with it, the lower of NumVFs and the offer do, without bus mastering and
with every vector masked (R43, R50). Bus Master Enable, D0, the unmasking of a vector, errors of the link and of the windows,
and the PTM dialogs leave the status the spec gives each of them (R50, R51, R53, R63). -/
def Obligations.BusAndLink : Prop :=
  (∀ (s : State) (n : Nat), s.pcie.cfgRetry = false → s.pcie.vfEnable = false →
      (∃ t, exec (.vfEnable true n false) s = .next t ∧ t.pcie.vfs = s.pcie.vfs ∧ t.pcie.vfEnable = true
        ∧ t.glb.trouble.getLsbD 3 = true)
      ∧ (∃ t, exec (.vfEnable true n true) s = .next t ∧ t.pcie.vfs = min n (vfOffer s) ∧ t.pcie.vfEnable = true
        ∧ t.pcie.numVfs = n
        ∧ ∀ f, 1 ≤ f → f ≤ min n (vfOffer s) → canMaster t f = false ∧ ∀ v, v < 256 → 256 * f + v ∉ t.pcie.unmasked))
  ∧ (∀ s : State, s.pcie.cfgRetry = false →
      (∀ f, fnExists s f = true → (∃ t, exec (.busMasterEnable f true true) s = .next t ∧ canMaster t f = true)
        ∧ (∃ t, exec (.busMasterEnable f false true) s = .next t ∧ canMaster t f = false)
        ∧ (∀ v, hasVector f v = true → ∃ t, exec (.msixUnmask f v) s = .next t ∧ 256 * f + v ∈ t.pcie.unmasked)
        ∧ (∀ r, ∃ t, exec (.poisonedWindowRequest f r) s = .next t ∧ Aer.poisoned ∈ t.pcie.aer.getD f []
            ∧ t.ten = s.ten ∧ t.ush = s.ush ∧ t.seats = s.seats))
      ∧ (∃ t, exec .ecrcError s = .next t ∧ Aer.ecrc ∈ t.pcie.aer.getD 0 [])
      ∧ (s.pcie.ptmEnable = true →
        LeadsTo .ptmDialog s { s with pcie := { s.pcie with
          ptmDialog := true, ptmRun := if s.pcie.ptmDialog then 0 else s.pcie.ptmRun } }
        ∧ (s.pcie.ptmDialog = true → s.pcie.ptmLost = true → ∀ time,
          (s.pcie.ptmRun = 0 → LeadsTo (.ptmDialogComplete time) s
            { s with pcie := { s.pcie with ptmDialog := false, ptmRun := 1 } })
          ∧ (s.pcie.ptmRun ≠ 0 → ∃ t, exec (.ptmDialogComplete time) s = .next t ∧ t.pcie.ptmLost = false)))
      ∧ (s.pcie.ptmLost = false → ∃ t, exec .ptmLoss s = .next t ∧ t.pcie.ptmLost = true ∧ t.box.ptmLost = true
          ∧ t.glb.trouble.getLsbD 9 = true))

/-- A reset of the PF (PF_FLR, HOT_RESET) takes the PF's rings back to their reset values and ends its halt, leaves no VF,
writes nothing more of the PF's, and clears event enables and pending pairs, while READY, the keys and the plan stay; a hot
reset also ends the SPDM session and makes every IDE stream insecure (R49, R56, R92, R499, R506). PERST_N_ASSERT with PERST_N
high loses every operation and all that waits to be written, clears READY and resets GLB_SCRATCH, pins, pairs and the epoch's
run; low already, it does nothing (R31, R56, R123, R495). -/
def Obligations.ResetsOfThePf : Prop :=  ∀ s : State,
    let reset (t : State) : Prop := t.pcie.vfEnable = false ∧ t.pcie.vfs = 0 ∧ t.glb.evtEnable = [] ∧ t.glb.pairs = []
      ∧ t.pcie.ready = s.pcie.ready ∧ t.keys.mkPresent = s.keys.mkPresent ∧ t.keys.slots = s.keys.slots
      ∧ t.stg.active = s.stg.active ∧ t.stg.bankA = s.stg.bankA ∧ t.stg.bankB = s.stg.bankB ∧ t.glb.scratch = s.glb.scratch
      ∧ halted t 0 = false ∧ (∀ i ∈ t.writer, i ∈ s.writer ∧ i.fn ≠ 0)
      ∧ (∀ c r, s.ush.rings.get? c = some r → r.owner = 0 → ∃ q, t.ush.rings.get? c = some q ∧ q.sqNext = 0 ∧ q.cqNext = 0
        ∧ q.expPhase = true ∧ q.cqPhase = true ∧ q.interval = 0 ∧ q.sqBase = r.sqBase ∧ q.ringId = r.ringId)
    (∃ t, exec .pfFlr s = .next t ∧ reset t ∧ t.pcie.spdmSession = s.pcie.spdmSession ∧ t.pcie.ide = s.pcie.ide)
    ∧ (∃ t, exec .hotReset s = .next t ∧ reset t ∧ t.pcie.spdmSession = false ∧ ∀ i ∈ t.pcie.ide, i.secure = false)
    ∧ (s.pcie.perstHigh = true → ∃ t, exec .perstNAssert s = .next t ∧ t.pcie.perstHigh = false ∧ t.pcie.ready = false
      ∧ t.pcie.cfgRetry = true ∧ t.pcie.vfs = 0 ∧ t.seats = [] ∧ t.writer = [] ∧ t.glb.scratch = 0 ∧ t.glb.pairs = []
      ∧ t.keys.pins = [] ∧ t.box.running = false ∧ t.stg.bankA = s.stg.bankA ∧ t.stg.bankB = s.stg.bankB)
    ∧ (s.pcie.perstHigh = false → LeadsTo .perstNAssert s s)

/-- The way to READY: PERST_N is released, the link trains at the highest common speed and the widest common width, a partner
with two lanes getting one, and in SCRAPPED at 2.5 GT/s and one lane; with every supply valid the compute die starts.
Configuration is answered and the message sent, and READY follows, the images of the plan in force in the control store and an
epoch begun (R35, R54, R119, R474, R522). What the partner offers is free (assumption log 128). -/
def Obligations.WayToReady : Prop :=  ∀ s : State,
    (s.pcie.perstHigh = false →
      let up : Pcie := { s.pcie with perstHigh := true, cfgRetry := true, link := trainLink s (linkPartner s) }
      (vaultValid s = true → LeadsTo .perstNRelease s { s with
        free := s.free + 1, pcie := up, pwr := { s.pwr with mains := true }, keys := { s.keys with cache := [] } })
      ∧ (vaultValid s = false → LeadsTo .perstNRelease s { s with free := s.free + 1, pcie := up }))
    ∧ (s.pcie.perstHigh = true → LeadsTo .perstNRelease s s)
    ∧ (∀ p, p.speed ≠ 0 →
      (lc s ≠ .scrapped → (∀ l, trainLink s p = some l → l.speed = min p.speed 5 ∧ l.lanes ∈ [1, 4, 8, 16] ∧ l.lanes ≤ p.lanes
          ∧ ∀ w ∈ [1, 4, 8, 16], w ≤ p.lanes → w ≤ l.lanes)
        ∧ (p.lanes = 2 → trainLink s p = some { speed := min p.speed 5, lanes := 1 }))
      ∧ (lc s = .scrapped → p.lanes ≠ 0 → trainLink s p = some { speed := 1, lanes := 1 }))
    ∧ (s.pcie.perstHigh = true → s.pcie.link ≠ none → s.pwr.mains = true → s.pcie.drsSent = false →
      LeadsTo .drsMessage s { s with pcie := { s.pcie with cfgRetry := false, drsSent := true } })
    ∧ (s.pcie.perstHigh = true → s.pcie.cfgRetry = false → s.pwr.up = true → s.pwr.mains = true → vaultValid s = true →
      s.pcie.ready = false → ∀ ptm, ∃ t, exec (.ready ptm) s = .next t ∧ t.pcie.ready = true ∧ t.box.running = true
      ∧ (∀ p, activePlan s = some p → t.scr.maker = some p.maker ∧ t.scr.customer = p.customer))

/-- The SMBus port answers at its own address only: a block read of 80h with the count and 28 bytes, and a write with a NACK; a
read of a byte or word at an offset of the block answers those bytes of it; each answer ends with the packet error code over the
whole transfer. The alert response clears ALERTS, and a temperature that rises above its limit sets its bit (R64, R65). A DOE
request is answered after READY, and waits before it; IDE keys are programmed within a secured session only (R55, R57, R60). -/
def Obligations.PortsAnswer : Prop :=
  (∀ s : State, s.smb.up = true →
      let reads (i : Instr) (d : Option Bytes) : Prop :=
        ∃ t rest, exec i s = .next t ∧ t.host = s.host ++ .smbus d :: rest ∧ OnlyViews { s with free := s.free + 1 } t
      let a := 0x58 + s.smb.strap
      let reply (c : Nat) (d : Bytes) : Option Bytes :=
        some (d ++ [pec ([byte (2 * a), byte c, byte (2 * a + 1)] ++ d)])
      (telemetry s).length = 28
      ∧ reads (.smbusBlockRead ⟨a, 0x80⟩) (reply 0x80 (byte 28 :: telemetry s))
      ∧ (∀ c d, reads (.smbusWrite ⟨a, c⟩ d) none)
      ∧ (∀ c, c < 28 → reads (.smbusReadByte ⟨a, c⟩) (reply c (((telemetry s).drop c).take 1)))
      ∧ (∀ c, c < 27 → reads (.smbusReadWord ⟨a, c⟩) (reply c (((telemetry s).drop c).take 2)))
      ∧ (∀ b c d, b ≠ a → ∀ i ∈ [Instr.smbusBlockRead ⟨b, c⟩, .smbusWrite ⟨b, c⟩ d, .smbusReadByte ⟨b, c⟩, .smbusReadWord ⟨b, c⟩], LeadsTo i s s)
      ∧ (∃ t, exec .alertResponseAddressRead s = .next t ∧ Emit.smbus (some [byte a, pec [byte 0x19, byte a]]) ∈ t.host
          ∧ (s.smb.hotCompute = false → s.smb.hotVault = false → (monAt s 42).asserted = false → t.smb.alerts = 0))
      ∧ (lc s ≠ .scrapped → ∀ v, ∃ t, exec (.temperatureAlert v) s = .next t ∧ t.smb.alerts.getLsbD (if v then 1 else 0) = true))
  ∧ (∀ (s : State) (o : DoeObject), s.pcie.cfgRetry = false → lc s ≠ .scrapped →
      (s.pcie.ready = false → LeadsTo (.doeRequest o) s { s with pcie := { s.pcie with doeWaiting := s.pcie.doeWaiting ++ [o] } })
      ∧ (s.pcie.ready = true → ∃ t d, exec (.doeRequest o) s = .next t ∧ Emit.doe d ∈ t.host
        ∧ (∀ n key, o = .ideKeyProg n key → t.pcie.ide
          = if s.pcie.spdmSession then updAt s.pcie.ide n (fun x => { x with key := key }) else s.pcie.ide)
        ∧ (o = .keyExchange 0 → t.pcie.spdmSession = true) ∧ (o = .endSession → t.pcie.spdmSession = false)))

/-! ### The box office (chapter 04) -/

/-- BOX_CFG stores COUNT within 1 to 64 and PERIOD within 1 to 3,600, for the next boundary (R120, R124). At a boundary the
counters freeze into a page of the epoch that ends, and the next epoch starts with counters at zero under a greater number
(R117, R118, R120); with a bank still unwritten the epoch is extended instead (R122). A frozen page is written whole to the
buffer of its epoch, while the PF may master the bus and ENABLE is set; otherwise it waits (R121). -/
def Obligations.BoxOffice : Prop :=
  (∀ (s : State) (v : BitVec 64), Takes s → LeadsTo (.boxCfgWrite v) s
      { s with box := { s.box with count := max 1 (min 64 (v.toNat % 128)), enable := v.getLsbD 8,
                                   period := max 1 (min 3600 (v.toNat / 2 ^ 32 % 4096)) } })
  ∧ (∀ (s : State) (time : Nat), s.box.running = true → (s.pcie.ptmLost = true ∨ time % (s.box.inForce * 1000000000) = 0) →
      (s.box.frozen = [] → ∃ t p, exec (.epochBoundary time) s = .next t ∧ t.box.frozen = [p] ∧ p.epoch = s.box.epoch
        ∧ p.counters = pageCounters s ∧ p.period = s.box.inForce ∧ t.box.counters = [] ∧ t.box.inForce = s.box.period
        ∧ s.box.stored < t.box.epoch ∧ t.box.stored = t.box.epoch)
      ∧ (s.box.frozen ≠ [] → s.box.extended = false → ∃ t, exec (.epochBoundary time) s = .next t
        ∧ t.box = { s.box with extended := true }))
  ∧ (∀ (s : State) (p : MeterPage) (rest : List MeterPage), s.box.frozen = p :: rest →
      (s.pcie.ready = true → s.box.enable = true → canMaster s 0 = true → s.box.lostFrom = none →
        ∃ t, exec .meterPageWrite s = .next t ∧ t.box = { s.box with frozen := rest, lastPage := p.epoch }
          ∧ Emit.meterPage (s.box.pageBase + 1052672 * (p.epoch % s.box.count)) { p with lostFrom := 0 } ∈ t.host)
      ∧ (s.pcie.ready = false ∨ s.box.enable = false ∨ canMaster s 0 = false → LeadsTo .meterPageWrite s s))

/-! ### Failed reads, the writer, memory errors and understudies (chapters 01 to 03, 12) -/

/-- A DMA read that fails, or times out where the timeout is enabled, logs its error for the function: an entry's or a fragment
list's read stops its ring with E_HOST_READ, an operand's ends its operation with it, without output and uncharged (R49, R51). An
uncorrectable SRAM error: in a run it waits for the run's end as a mismatch, in a ring context it stops the ring with
E_FAULT_REPEAT, in a stream context it breaks the stream, in a meter counter it marks the counter lost (R17, R18, R316). -/
def Obligations.ReadAndSramErrors : Prop :=
  (∀ (s : State) (kind : ReadError),
      (∀ c r, s.ush.rings.get? c = some r → r.stale < r.reads → ∃ t q, exec (.dmaReadError (.entry c) kind) s = .next t
        ∧ t.ush.rings.get? c = some q ∧ q.stop = some .hostRead ∧ q.hot = false ∧ ReadError.aer kind ∈ t.pcie.aer.getD r.owner [])
      ∧ (∀ c r e, s.ush.rings.get? c = some r → r.frag = some e → ∃ t q, exec (.dmaReadError (.fragments c) kind) s = .next t
        ∧ t.ush.rings.get? c = some q ∧ q.stop = some .hostRead ∧ q.frag = none)
      ∧ (∀ k x, s.seats.get? k = some x → stagingOpen x = true → x.input = none → x.detached = false →
        ∃ t i, exec (.dmaReadError (.operand k) kind) s = .next t ∧ t.writer = s.writer ++ [i] ∧ i.seat = some k
          ∧ i.record.status = .hostRead ∧ i.out = [] ∧ i.record.units = 0 ∧ ReadError.aer kind ∈ t.pcie.aer.getD x.fn [])
      ∧ (∀ c r, s.ush.rings.get? c = some r → r.stale < r.reads →
        (timeoutOff s r.owner = true → LeadsTo (.completionTimeout (.entry c)) s s)
        ∧ (timeoutOff s r.owner = false → ∃ t q, exec (.completionTimeout (.entry c)) s = .next t
          ∧ t.ush.rings.get? c = some q ∧ q.stop = some .hostRead
          ∧ Aer.completionTimeout ∈ t.pcie.aer.getD r.owner [])))
  ∧ (∀ (s : State) (a : Nat),
      (∀ k x u, s.seats.get? k = some x → x.phase = .executing → x.tileA = some u → x.ue = none →
        (∃ t, exec (.sramUe (.scratch k .a) a) s = .next t ∧ t.seats = s.seats.put k { x with ue := some (u / 2) })
        ∧ (∃ t, exec (.sramUe (.wings k) a) s = .next t ∧ t.seats = s.seats.put k { x with ue := some 34 }))
      ∧ (∀ c r, s.ush.rings.get? c = some r → ∃ t q, exec (.sramUe (.ringContext c) a) s = .next t
        ∧ t.ush.rings.get? c = some q ∧ q.stop = some .faultRepeat ∧ t.glb.trouble.getLsbD 1 = true)
      ∧ (∀ n u, s.dig.streams.get? n = some u → ∃ t, exec (.sramUe (.streamContext n) a) s = .next t
        ∧ t.dig.streams.get? n = some { u with state := .broken } ∧ t.seats = s.seats)
      ∧ (∀ f c, ∃ t, exec (.sramUe (.meter f c false) a) s = .next t ∧ 32 * f + c ∈ t.box.ue ∧ t.seats = s.seats)
      ∧ (∃ t, exec (.sramUe .miscellaneous a) s = .next t ∧ t.glb.trouble.getLsbD 1 = true ∧ t.seats = s.seats))

/-- WRITE_OUT: the writer takes the first item of a ring. On a split ring its output and its record are written, the record at
CQ_NEXT in the phase of the ring, CQ_NEXT moves on and the seat is free (R28, R29, R79); while the function may not master the
bus the item waits (R50). On an inline ring the item of an entry that does not end its batch frees its seat, and its record
waits in the batch; when the entry that ends the batch comes last, one record is written over that entry, with the numerically
largest status of the batch (R80, R81). -/
def Obligations.WriterServesRings : Prop :=
  (∀ (s : State) (c : Nat) (r : Ring) (i : Item), s.writer.find? (fun j => j.ring = c) = some i →
      s.ush.rings.get? c = some r → r.owner = i.fn →
      (canMaster s i.fn = false → LeadsTo (.writeOut c) s s)
      ∧ (canMaster s i.fn = true → r.split = true → ∃ t q, exec (.writeOut c) s = .next t ∧ t.writer = dropItem c s.writer
        ∧ Emit.record r.owner (r.cqBase + 32 * r.cqNext) { i.record with phase := r.cqPhase, batch := false } ∈ t.host
        ∧ (i.stopped = false → i.out ≠ [] → Emit.output i.fn i.outPtr i.out ∈ t.host)
        ∧ t.ush.rings.get? c = some q ∧ q.cqNext = (r.cqNext + 1) % 2 ^ r.log2 ∧ (q.cqPhase = r.cqPhase ↔ q.cqNext ≠ 0)
        ∧ (i.record.seatHint ≠ 0xFFFF → t.seats.get? i.record.seatHint = none)))
  ∧ (∀ (s : State) (c : Nat) (r : Ring) (i : Item), s.writer.find? (fun j => j.ring = c) = some i →
      s.ush.rings.get? c = some r → r.owner = i.fn → r.split = false → canMaster s i.fn = true →
      let fill (b : BatchItem) : BatchItem := if b.seq = i.seq then { b with done := some i.record } else b
      (i.batchEnd = false → (∀ b ∈ r.batch, b.batchEnd = true → b.done = none ∧ b.seq ≠ i.seq) →
        ∃ t q, exec (.writeOut c) s = .next t ∧ t.writer = dropItem c s.writer ∧ t.ush.rings.get? c = some q
          ∧ q.batch = r.batch.map fill ∧ (i.record.seatHint ≠ 0xFFFF → t.seats.get? i.record.seatHint = none)
          ∧ ∀ f a rc, Emit.record f a rc ∈ t.host → Emit.record f a rc ∈ s.host)
      ∧ (∀ front b, i.batchEnd = true → r.batch = front ++ [b] → b.seq = i.seq → b.batchEnd = true →
        (∀ a ∈ front, a.batchEnd = false ∧ a.seq ≠ i.seq ∧ a.done ≠ none) →
        ∃ t q rc, exec (.writeOut c) s = .next t ∧ t.writer = dropItem c s.writer ∧ t.ush.rings.get? c = some q ∧ q.batch = []
          ∧ Emit.record r.owner (r.sqBase + 128 * b.index) rc ∈ t.host
          ∧ rc = { i.record with phase := b.phase, batch := true, status := rc.status }
          ∧ i.record.status.code ≤ rc.status.code ∧ (∀ a ∈ front, ∀ d, a.done = some d → d.status.code ≤ rc.status.code)
          ∧ (rc.status = i.record.status ∨ ∃ a ∈ front, ∃ d, a.done = some d ∧ rc.status = d.status)))

/-- Tiles: an understudy takes the position of the tile it replaces, one that fails its self-test is retired, and TIL_RETIRE
retires a free tile at once and a busy one at its release (R319, R320, R329). -/
def Obligations.TilesComeAndGo : Prop :=  ∀ s : State, s.til.tiles.length = 34 →
    (∀ p u, (s.til.coming.find? fun c => c.2 = p) = some (u, p) → u < 34 → (tileAt s u).state = .understudy →
      ∃ t, exec (.understudyIn p) s = .next t ∧ (tileAt t u).state = .active ∧ (tileAt t u).position = some p
        ∧ ∀ c ∈ t.til.coming, c.2 ≠ p)
    ∧ (∀ u, u < 34 → (tileAt s u).state = .understudy → (s.til.coming.any fun c => c.1 = u) = false →
      ∃ t, exec (.understudySelfTest [u]) s = .next t ∧ (tileAt t u).state = .retired)
    ∧ (Takes s → ∀ u, u < 34 → (tileAt s u).state = .active →
      ((tileAt s u).busy = 0 → ∃ t, exec (.tilRetireWrite u) s = .next t ∧ (tileAt t u).state = .retired ∧ t.til.retire = u)
      ∧ ((tileAt s u).busy ≠ 0 → ∃ t, exec (.tilRetireWrite u) s = .next t ∧ (tileAt t u).state = .active
        ∧ (tileAt t u).retireWanted = true))

/-! ### Tamper response (chapter 18) -/

/-- An event of a channel that does not reach K in its window is counted and changes nothing else that protects the device; one
that does fires the channel: RECORD and NOTE leave HOLD and curtain as they are, HOLD sets the hold, CURTAIN drops the curtain
and with it the master key, the DRBGs, every stream and every operation before its commit instant (R31, R449 to R451, R456).
Channel 45 and the level channels have no such event. A level condition counts one event as it asserts, and asserts once; it
releases, channel 39 only when no shadow differs (R446, R453); its chatter clears; its held event is raised once (R447, R448).
-/
def Obligations.ChannelEvents : Prop :=
  (∀ (s : State) (n : Nat), monitorsRun s = true → eventChannel n = true → n ≠ 45 → s.tmp.mons.length = 48 →
      let m := monAt s n
      let stamps := within (m.stamps ++ [s.now]) s.now (2 ^ 24)
      let count := (within stamps s.now m.w).length
      (count < m.k → LeadsTo (.channelEvent n) s (bump (Ctr.tmpEvents n) 1 (updMon n (fun m => { m with stamps := stamps }) s)))
      ∧ (m.k ≤ count → ∃ t, exec (.channelEvent n) s = .next t ∧ (monAt t n).stamps = []
        ∧ (monAt t n).lastFire = some (s.now, m.policy)
        ∧ (m.policy ≤ 1 → t.tmp.hold = s.tmp.hold ∧ t.tmp.curtainDown = s.tmp.curtainDown)
        ∧ (2 ≤ m.policy → t.tmp.hold = true)
        ∧ (3 ≤ m.policy → s.tmp.dropTick ≠ some s.now → t.tmp.curtainDown = true ∧ t.keys.mkPresent = false
            ∧ t.keys.sealPresent = false ∧ t.dig.streams = [] ∧ t.rng.insts = List.replicate 8 Drbg.first
            ∧ (s.tmp.curtainDown = false → t.keys.overwriteBusy = true)
            ∧ ∀ k x, t.seats.get? k = some x → x.phase = .committed)))
  ∧ (∀ (s : State) (n : Nat), monitorsRun s = false ∨ eventChannel n = false ∨ n = 45 → LeadsTo (.channelEvent n) s s)
  ∧ (∀ (s : State) (n : Nat), monitorsRun s = true → levelChannel n = true → s.tmp.mons.length = 48 →
      let m := monAt s n
      let stamps := within (m.stamps ++ [s.now]) s.now (2 ^ 24)
      let count := (within stamps s.now m.w).length
      (m.asserted = true → LeadsTo (.levelAssert n) s s)
      ∧ (m.asserted = false → n ≠ 39 → count < m.k → LeadsTo (.levelAssert n) s (bump (Ctr.tmpEvents n) 1
          (updMon n (fun m => { m with asserted := true, raw := true, heldRaised := false, stamps := stamps }) s)))
      ∧ (m.asserted = false → ∃ t, exec (.levelAssert n) s = .next t ∧ (monAt t n).asserted = true
        ∧ (m.k ≤ count → (monAt t n).stamps = [] ∧ (monAt t n).lastFire = some (s.now, m.policy)))
      ∧ (n ≠ 39 ∨ (s.tmp.pointerBad = false ∧ s.tmp.shadowBad = []) →
        LeadsTo (.levelRelease n) s (updMon n (fun m => { m with asserted := false, raw := false, heldRaised := false }) s))
      ∧ (n = 39 → s.tmp.pointerBad = true ∨ s.tmp.shadowBad ≠ [] → LeadsTo (.levelRelease n) s s)
      ∧ LeadsTo (.chatterClear n) s (updMon n (fun m => { m with chatter := 0 }) s)
      ∧ (∃ t, exec (.chatterEvent n) s = .next t ∧ (monAt t n).chatter = 0)
      ∧ (m.asserted = true → m.heldRaised = false →
        ∃ t, exec (.heldEvent n) s = .next t ∧ (monAt t n).heldRaised = true ∧ t.seats = s.seats ∧ t.keys = s.keys)
      ∧ (m.asserted = false ∨ m.heldRaised = true → LeadsTo (.heldEvent n) s s))

/-- HOLD ends once HOLD_MIN has passed since the last firing with HOLD or CURTAIN and no channel that fired so is still asserted
(R452); stage 3 empties the key table (R272); a write of 1 to DROP of TMP_CURTAIN drops the curtain by channel 45, one to RAISE
is answered with the first condition that stands in the way, with the missing approval, or accepted, and an approval it needed is
used up (R456, R458, R459); the accepted raise makes a new master key once a DRBG serves and stage 3 is over (R253, R458). -/
def Obligations.HoldAndCurtain : Prop :=  ∀ s : State,
    (holdStands s = false → LeadsTo .holdEnd s { s with tmp := { s.tmp with hold := false } })
    ∧ (holdStands s = true → LeadsTo .holdEnd s s)
    ∧ (s.keys.overwriteBusy = true → (∀ i y, s.keys.slots.get? i = some y → y.owner ≤ Config.vfTotal) →
      ∃ t, exec .curtainStage3Done s = .next t ∧ t.keys.overwriteBusy = false
        ∧ ∀ i y, t.keys.slots.get? i = some y → y.occupied = false)
    ∧ (s.keys.overwriteBusy = false → LeadsTo .curtainStage3Done s s)
    ∧ (Takes s → s.tmp.mons.length = 48 → (monAt s 45).policy = 3 → (monAt s 45).k = 1 → (monAt s 45).w = 1 →
      s.tmp.dropTick ≠ some s.now →
      ∃ t, exec .tmpCurtainDrop s = .next t ∧ t.tmp.curtainDown = true ∧ t.keys.mkPresent = false)
    ∧ (Takes s → s.tmp.shadowBad = [] →
      (∀ r, raiseBlocked s = some r → LeadsTo .tmpCurtainRaise s { s with tmp := { s.tmp with curtainResult := r } })
      ∧ (raiseBlocked s = none → raiseNeedsApproval s = false →
        LeadsTo .tmpCurtainRaise s { s with tmp := { s.tmp with curtainResult := 1, raising := true } })
      ∧ (raiseBlocked s = none → raiseNeedsApproval s = true →
        (consumeApproval 1 [] s = none →
          LeadsTo .tmpCurtainRaise s { s with tmp := { s.tmp with curtainResult := 2 } })
        ∧ (∀ u, consumeApproval 1 [] s = some u →
          LeadsTo .tmpCurtainRaise s { s with tmp := { s.tmp with curtainResult := 1, raising := true },
                                              tkb := { s.tkb with approval := .none } })))
    ∧ (s.tmp.raising = true → s.tmp.curtainDown = true → s.keys.overwriteBusy = false → (drawBytes 32 s).isSome = true →
      ∃ t, exec .curtainRaise s = .next t ∧ t.tmp.curtainDown = false ∧ t.keys.mkPresent = true
        ∧ t.keys.mkGen = s.keys.mkGen + 1)
    ∧ (s.tmp.raising = false → LeadsTo .curtainRaise s s)

/-- A policy below its channel's floor is refused with RESULT 1 and one that loosens without an approval with RESULT 2, both
without effect; any other takes effect, one that loosens using its approval up. A filter that loosens is held to its approval
alike; channel 45 takes neither (R454, R455). -/
def Obligations.PoliciesKeepToFloors : Prop :=  ∀ (s : State) (n v : Nat), Takes s → n < 48 → n ≠ 45 → v < 4 → s.tmp.mons.length = 48 →
    (v < floorOf s n → ∃ t, exec (.tmpPolicyWrite n v) s = .next t ∧ t.tmp.mons = s.tmp.mons ∧ t.tmp.policyResult = 1)
    ∧ (floorOf s n ≤ v → v < (monAt s n).policy →
      (consumeApproval 8 [byte n, byte v] s = none →
        ∃ t, exec (.tmpPolicyWrite n v) s = .next t ∧ t.tmp.mons = s.tmp.mons ∧ t.tmp.policyResult = 2)
      ∧ (∀ u, consumeApproval 8 [byte n, byte v] s = some u → ∃ t, exec (.tmpPolicyWrite n v) s = .next t
        ∧ (monAt t n).policy = v ∧ t.tmp.policyResult = 0 ∧ t.tkb.approval = .none))
    ∧ (floorOf s n ≤ v → (monAt s n).policy ≤ v →
      ∃ t, exec (.tmpPolicyWrite n v) s = .next t ∧ (monAt t n).policy = v ∧ t.tmp.policyResult = 0)
    ∧ (∃ t, exec (.tmpPolicyWrite 45 v) s = .next t ∧ t.tmp.mons = s.tmp.mons ∧ t.tmp.policyResult = 3)
    ∧ (∀ f : BitVec 64,
      let k := max 1 (f.toNat % 256)
      let w := min (2 ^ 24) (max 1 (f.toNat / 256 % 2 ^ 25))
      (k ≤ (monAt s n).k → (monAt s n).w ≤ w → (monAt s n).stamps = [] →
        ∃ t, exec (.tmpFilterWrite n f) s = .next t ∧ (monAt t n).k = k ∧ (monAt t n).w = w ∧ t.tmp.policyResult = 0)
      ∧ ((monAt s n).k < k ∨ w < (monAt s n).w → (monAt s n).stamps = [] →
        (consumeApproval 8 [byte n, byte (monAt s n).policy] s = none →
          ∃ t, exec (.tmpFilterWrite n f) s = .next t ∧ t.tmp.mons = s.tmp.mons ∧ t.tmp.policyResult = 2)
        ∧ (∀ u, consumeApproval 8 [byte n, byte (monAt s n).policy] s = some u → ∃ t, exec (.tmpFilterWrite n f) s = .next t
          ∧ (monAt t n).k = k ∧ (monAt t n).w = w ∧ t.tmp.policyResult = 0 ∧ t.tkb.approval = .none))
      ∧ (∃ t, exec (.tmpFilterWrite 45 f) s = .next t ∧ t.tmp.mons = s.tmp.mons ∧ t.tmp.policyResult = 3))

/-- On VBAT alone an armed condition clears the master key and enters the latch, which past its sixteenth entry keeps the first
fifteen and the last assertion (R460, R461); the watch begins as both supplies are gone, when the key stays; the loss of BCLK
and the repair of the bank pointer change what they name (R453, R519, R521). -/
def Obligations.BackupDomain : Prop :=  ∀ s : State,
    (∀ n b, onBackup s = true → backupArmed s n = true →
      (s.tmp.latch.length < 16 → LeadsTo (.backupAlarm n b) s { s with
        tmp := { s.tmp with latch := s.tmp.latch
          ++ [{ channel := n, cleared := s.keys.mkPresent, bclk := b % 2 ^ 48, unkept := 0 }] },
        keys := { s.keys with mkPresent := false, master := [] } })
      ∧ (s.tmp.latch.length = 16 → ∃ t e, exec (.backupAlarm n b) s = .next t ∧ t.keys.mkPresent = false ∧ t.keys.master = []
        ∧ t.tmp.latch = s.tmp.latch.take 15 ++ [e] ∧ e.channel = n ∧ e.cleared = s.keys.mkPresent ∧ e.bclk = b % 2 ^ 48
        ∧ 1 ≤ e.unkept))
    ∧ (∀ n b, onBackup s = false ∨ backupArmed s n = false → LeadsTo (.backupAlarm n b) s s)
    ∧ (s.tmp.onBackup = false → ∃ t, exec .backupSwitchover s = .next t ∧ t.tmp.onBackup = true ∧ t.pwr.vault = false
      ∧ t.pwr.vhold = false ∧ t.tmp.armed = armedLines s ∧ t.keys.mkPresent = s.keys.mkPresent ∧ t.keys.master = s.keys.master)
    ∧ (s.tmp.onBackup = true → LeadsTo .backupSwitchover s s)
    ∧ LeadsTo .bclkLoss s { s with pwr := { s.pwr with bclk := false } }
    ∧ LeadsTo .bankPointerRepair s { s with tmp := { s.tmp with pointerBad := false } }

/-! ### Random numbers (chapter 11) -/

/-- Entropy sources: a block that passes on a running source enters the pool as 512 conditioned bits, up to 8,192; one that
fails, during a restart or a start-up too, restarts the source in its next configuration, and the fourth failure within 1 s is
fatal; a restart leads to the start-up test, which conditions nothing and lets the source run; the manager revives a fatal
source (R281 to R287). A DRBG takes 512 bits of the pool to instantiate, after the known-answer tests, and 384 to reseed, which
falls due after 2^20 requests or 1 s; without them, or behind a lower-numbered instance that stopped, the reseed is deferred,
and the DRBG serves on unless both sources are fatal. A mask generator that is due takes a new seed, or, with no DRBG serving,
expires (R288, R290 to R294). -/
def Obligations.EntropyAndDrbgs : Prop :=
  (∀ (s : State) (i : Nat) (b : RawBlock), i < 2 → s.rng.srcs.length = 2 →
      let x := sourceAt s i
      let bad (cause : Nat) (j : Instr) : Prop :=
        let fails := within (x.fails ++ [s.now]) s.now 1000000
        ∃ t, exec j s = .next t ∧ (sourceAt t i).cause = cause ∧ (sourceAt t i).fails = fails
          ∧ (fails.length < 4 → (sourceAt t i).state = .restarting ∧ (sourceAt t i).config = (x.config + 1) % 4
              ∧ t.rng.pool = s.rng.pool)
          ∧ (4 ≤ fails.length → (sourceAt t i).state = .fatal)
      (x.state = .running → blockFail x b = none → ∃ t, exec (.rngBlock i b) s = .next t
        ∧ t.rng.pool = (s.rng.pool ++ conditioned b).take 1024 ∧ (sourceAt t i).state = .running ∧ t.rng.insts = s.rng.insts)
      ∧ (∀ c p, x.state ≠ .off → x.state ≠ .fatal → blockFail x b = some (c, p) → bad c (.rngBlock i b))
      ∧ (x.state = .off ∨ x.state = .fatal ∨ (x.state ≠ .running ∧ blockFail x b = none) → LeadsTo (.rngBlock i b) s s)
      ∧ (x.state = .restarting → ∃ t, exec (.sourceRestart i) s = .next t ∧ (sourceAt t i).state = .startUp
        ∧ t.rng.pool = s.rng.pool)
      ∧ (x.state = .startUp → blockFail { x with runLength := 0 } b = none → ∃ t, exec (.startUpTest i b) s = .next t
        ∧ (sourceAt t i).state = .running ∧ t.rng.pool = s.rng.pool)
      ∧ (∀ c p, x.state = .startUp → blockFail { x with runLength := 0 } b = some (c, p) → bad 5 (.startUpTest i b))
      ∧ (Takes s → x.state = .fatal → ∃ t, exec (.rngRevive (2 ^ i)) s = .next t ∧ (sourceAt t i).state = .restarting
        ∧ (sourceAt t i).fails = [] ∧ (sourceAt t i).config = (x.config + 1) % 4))
  ∧ (∀ (s : State) (i : Nat), i < 8 → s.rng.insts.length = 8 →
      let d := instAt s i
      (s.rng.katDone = true → s.rng.katFail = false → d.live = false → 512 ≤ poolBits s → s.lcs.newWanted = false →
        ∃ t, exec (.drbgInstantiate i) s = .next t ∧ (instAt t i).live = true ∧ (instAt t i).serving = true
          ∧ (instAt t i).requests = 0 ∧ t.rng.pool = s.rng.pool.drop 64
          ∧ (instAt t i).gen = CtrDrbg.instantiate (s.rng.pool.take 48) ((s.rng.pool.drop 48).take 16) (personalisation s i))
      ∧ (s.rng.katDone = false ∨ s.rng.katFail = true ∨ d.live = true ∨ poolBits s < 512 → LeadsTo (.drbgInstantiate i) s s)
      ∧ (d.live = true → 2 ^ 20 ≤ d.requests ∨ d.reseedTick + 1000000 ≤ s.now →
        (384 ≤ poolBits s → reseedTurn s i = true → ∃ t, exec (.drbgReseed i) s = .next t ∧ (instAt t i).requests = 0
          ∧ (instAt t i).serving = true ∧ (instAt t i).reseedTick = s.now ∧ t.rng.pool = s.rng.pool.drop 48
          ∧ (instAt t i).gen = d.gen.reseed (s.rng.pool.take 48) [])
        ∧ (poolBits s < 384 ∨ reseedTurn s i = false → ∃ t, exec (.drbgReseed i) s = .next t ∧ (instAt t i).deferred = true
          ∧ t.rng.pool = s.rng.pool ∧ (instAt t i).serving = (d.serving && !bothFatal s)))
      ∧ (d.live = true → d.requests < 2 ^ 20 → s.now < d.reseedTick + 1000000 → LeadsTo (.drbgReseed i) s s)
      ∧ (d.deferred = true → 384 ≤ poolBits s → reseedTurn s i = true → ∃ t, exec (.deferredReseed i) s = .next t
        ∧ (instAt t i).deferred = false ∧ (instAt t i).serving = true ∧ (instAt t i).requests = 0
        ∧ t.rng.pool = s.rng.pool.drop 48)
      ∧ (d.deferred = false ∨ poolBits s < 384 ∨ reseedTurn s i = false → LeadsTo (.deferredReseed i) s s)
      ∧ (∀ n h, maskOk s (2 * n + bnat h) = false → ∃ t, exec (.maskGeneratorReseed n h) s = .next t
        ∧ (servingInst s ≠ none → maskOk t (2 * n + bnat h) = true)
        ∧ (servingInst s = none → maskDry t (2 * n + bnat h) = true))
      ∧ (∀ n h, maskOk s (2 * n + bnat h) = true → LeadsTo (.maskGeneratorReseed n h) s s))

/-! ### Life cycle (chapter 19) -/

/-- A transition is refused with the first result that applies, and nothing but its result is taken (R471). The right response
to the present challenge starts the programming of G0, whose end is the commit instant, and the device is in FACTORY with its
curtain as it was (R465, R468, R472). A wipe that is complete is marked in the WIPE group, 5Ah in [7:0] for RETURN and in [15:8]
for SCRAPPED, whose wipe also takes the maker's secret, the master key, both banks and the log; either empties the key table
(R464, R472). A new challenge ends the one before it, and its nonce is drawn at once from the DRBG instance that serves, or
awaited (R469); the diagnostic unlock is served in RETURN only, and a wrong response costs the challenge (R470). -/
def Obligations.LifeCycle : Prop :=
  ((∀ (s : State) (t : Nat), Takes s → s.tmp.shadowBad = [] → 1 ≤ t → t < 8 →
        let refused (r : Nat) : Prop := LeadsTo (.lcsRequest t) s
          { s with lcs := { s.lcs with request := t, resultTarget := t, result := r } }
        (s.lcs.transition ≠ .none → refused 6)
        ∧ (s.lcs.transition = .none → s.pwr.pwrfailHigh = false → refused 5)
        ∧ (s.lcs.transition = .none → s.pwr.pwrfailHigh = true → transitionOk s t = false → refused 2)
        ∧ (s.lcs.transition = .none → s.pwr.pwrfailHigh = true → transitionOk s t = true → noSecret s t = true → refused 7))
    ∧ (∀ s : State, lc s = .blank →
        (Takes s → s.lcs.transition = .none → s.pwr.pwrfailHigh = true → noSecret s 1 = false → responseOk s 0 1 = true →
          ∃ t, exec (.lcsRequest 1) s = .next t ∧ t.lcs.transition = .programming 1 0 ∧ t.lcs.result = 1
            ∧ t.lcs.challenge = false ∧ t.tmp.curtainDown = s.tmp.curtainDown ∧ t.otp = s.otp)
        ∧ (s.lcs.transition = .programming 1 0 → ∃ t, exec .lcGroupProgrammed s = .next t ∧ lc t = .factory
          ∧ t.lcs.transition = .none ∧ t.otp.g0 = 0xA5C3 ∧ t.tmp.curtainDown = s.tmp.curtainDown))
    ∧ (∀ s : State,
        (s.lcs.transition = .wiping 3 → ∃ t, exec .lcWipeComplete s = .next t ∧ t.otp.wipe = s.otp.wipe ||| 0x005A
          ∧ t.keys.slots = [] ∧ t.lcs.transition = .none)
        ∧ (s.lcs.transition = .wiping 4 → ∃ t, exec .lcWipeComplete s = .next t ∧ t.otp.wipe = s.otp.wipe ||| 0x5A00
          ∧ t.otp.makerSecret = List.replicate 32 0xFF ∧ t.otp.trimsErased = true ∧ t.keys.slots = [] ∧ t.keys.mkPresent = false
          ∧ t.stg.bankA = none ∧ t.stg.bankB = none ∧ t.evr.opening = [] ∧ t.evr.running = [] ∧ t.lcs.transition = .none)))
  ∧ (∀ s : State, Takes s →
      (∀ (v : BitVec 32) (i : Nat), v.getLsbD 1 = false → servingInst s = some i → ∃ t, exec (.lcsChalNew v) s = .next t
        ∧ t.lcs.challenge = true ∧ t.lcs.newWanted = false ∧ t.lcs.nonce = drawn s i 32)
      ∧ (∀ v : BitVec 32, v.getLsbD 1 = false → servingInst s = none → ∃ t, exec (.lcsChalNew v) s = .next t
        ∧ t.lcs.challenge = false ∧ t.lcs.newWanted = true)
      ∧ (lc s ≠ .ret → LeadsTo .lcsChalUnlock s s)
      ∧ (lc s = .ret → responseOk s 1 0 = true → LeadsTo .lcsChalUnlock s
        { s with lcs := { s.lcs with challenge := false, unlocked := true } })
      ∧ (lc s = .ret → responseOk s 1 0 = false → ∃ t, exec .lcsChalUnlock s = .next t ∧ t.lcs.challenge = false
        ∧ t.lcs.unlocked = s.lcs.unlocked ∧ t.lcs.result = 4))

/-! ### The event recorder (chapter 20) -/

/-- A flush moves its records from the buffer to the opening area, behind those already there, while that area has room; a bucket
that is not full gains one token; the operating time is saved as it stands (R478, R479, R481, R483). Every record that enters the
log takes the next sequence number modulo 2^32, and keeps its place behind those before it (R477). -/
def Obligations.RecorderRows : Prop :=
  (∀ s : State,
      (s.evr.flushing ≠ 0 → s.evr.opening.length + s.evr.flushing ≤ 4096 → s.evr.waiting = [] →
        ∃ t, exec .evrFlushComplete s = .next t ∧ t.evr.opening = s.evr.opening ++ s.evr.buffer.take s.evr.flushing
          ∧ t.evr.buffer = s.evr.buffer.drop s.evr.flushing ∧ t.evr.running = s.evr.running)
      ∧ (s.evr.flushing = 0 → LeadsTo .evrFlushComplete s s)
      ∧ (∀ c b, s.evr.buckets.get? c = some b → b.tokens < s.evr.burst → LeadsTo (.tokenRefill c) s
        { s with evr := { s.evr with buckets := s.evr.buckets.put c { tokens := b.tokens + 1, since := s.now } } })
      ∧ (∀ c b, s.evr.buckets.get? c = some b → s.evr.burst ≤ b.tokens → LeadsTo (.tokenRefill c) s s)
      ∧ LeadsTo .hoursSave s { s with evr := { s.evr with saved := s.evr.time } })
  ∧ (∀ (s : State) (e : Evt), (enterEvt e s).evr.buffer = s.evr.buffer ++ [{ e with sequence := s.evr.next % 2 ^ 32 }]
      ∧ (enterEvt e s).evr.next = (s.evr.next + 1) % 2 ^ 32 ∧ (enterEvt e s).evr.opening = s.evr.opening
      ∧ (enterEvt e s).evr.running = s.evr.running ∧ (enterEvt e s).seats = s.seats ∧ (enterEvt e s).keys = s.keys)

/-- OP_LOG_READ is closed to a tenant: its entry is malformed on any ring of a VF. A read for a VF, fixed at its dispatch, returns
a header of 16 bytes and records tagged with that function, and no other (R484, R485). -/
def Obligations.LogReadsKeepToTheirFunction : Prop :=  (∀ (s : State) (f : Nat) (e : Entry), f ≠ 0 → e.opc = 0x060 → structural s f e ≠ none)
  ∧ (∀ (s : State) (k : Nat) (x : Seat), s.seats.get? k = some x → servedNext s k x = true → dispatchCheck s x = none →
      x.run = 0 → x.entry.opc = 0x060 → x.entry.argBit 6 1 = false →
      let f := x.entry.argN 4 2
      f ≤ 4096 → ∃ t y head, ∃ found : List Evt, exec (.dispatch k) s = .next t ∧ t.seats.get? k = some y
        ∧ y.chunks = head ++ found.flatMap Evt.bytes ∧ head.length = 16
        ∧ (∀ r ∈ found, r ∈ logRecords s ∧ r.fn = f))
  ∧ (∀ (s : State) (k : Nat) (x : Seat), s.seats.get? k = some x → computing x 0x060 = true → x.noEntropy = false →
      strayHandle x = false → x.entry.argN 4 2 ≤ 4096 →
      ∃ t y o, exec (.opLogRead k) s = .next t ∧ t.seats.get? k = some y ∧ y.outcome = some o ∧ o.status = .ok
        ∧ o.out = x.chunks)

/-! ### The register map (chapter 21) -/

/-- A snapshot holds the counters as they stand, BOX_SNAP those of the function that BOX_SNAP_SEL names, and none is taken while
one settles (R124, R501). A bit of the trouble record that is written 1 clears, unless its cause still holds, and one written 0
stays; a source that is acknowledged is no longer pending, but for source 0, which its cause may raise anew; an enable over a
pending source signals its vector (R494, R503 to R505). Before READY a PF write outside the GLB blocks changes nothing but the
trouble record, and bit 2 of it is set (R55); the scratch register holds what is written (R493, R495). -/
def Obligations.GlbRegisters : Prop :=
  (∀ (s : State) (ptm cclk : Nat), Takes s →
      (s.glb.snapBusy = false → ∃ t, exec (.glbSnapshot ptm cclk) s = .next t ∧ t.glb.snapBusy = true
        ∧ t.glb.snapCount = s.glb.snapCount + 1 ∧ t.glb.held.getD 0x28 0 = cclk
        ∧ t.glb.held.getD 0x20 0 = (if s.pcie.ptmLost then 0 else ptm)
        ∧ (∀ c, c < 32 → t.glb.held.getD (0x180100 + 8 * c) 0 = (epochCounters s).getD (32 * s.box.snapSel + c) 0)
        ∧ (∀ off, off ≠ 0x20 → off ≠ 0x28 → ¬ (0x180100 ≤ off ∧ off < 0x180200) → off ∉ unseenCounters →
            t.glb.held.getD off 0 = s.glb.counters.getD off 0)
        ∧ t.glb.counters = s.glb.counters)
      ∧ (s.glb.snapBusy = true → LeadsTo (.glbSnapshot ptm cclk) s s)
      ∧ LeadsTo .snapshotSettled s { s with glb := { s.glb with snapBusy := false } })
  ∧ (∀ s : State, Takes s →
      (∀ (v : BitVec 32) (b : Nat), b < 32 → v.getLsbD b = true → ∃ t, exec (.glbTroubleWrite v) s = .next t
        ∧ t.glb.trouble.getLsbD b = (liveCauses s).testBit b)
      ∧ (∀ (v : BitVec 32) (b : Nat), v.getLsbD b = false → s.glb.trouble.getLsbD b = true →
        ∃ t, exec (.glbTroubleWrite v) s = .next t ∧ t.glb.trouble.getLsbD b = true)
      ∧ (∀ (g : Nat) (v : BitVec 32), g < 32 → ∃ t, exec (.glbEvtAck g v) s = .next t
        ∧ (1 ≤ g → t.glb.evtPend.getD g 0 = s.glb.evtPend.getD g 0 &&& ~~~ v)
        ∧ (g = 0 → ∀ b, 1 ≤ b → b < 32 →
            (t.glb.evtPend.getD 0 0).getLsbD b = (s.glb.evtPend.getD 0 0 &&& ~~~ v).getLsbD b))
      ∧ (∀ (g : Nat) (v : BitVec 32), g < 32 → ∃ t, exec (.glbEvtEnableWrite g v) s = .next t ∧ t.glb.evtEnable.getD g 0 = v
        ∧ (v &&& ~~~ (s.glb.evtEnable.getD g 0) &&& s.glb.evtPend.getD g 0 ≠ 0 →
            msixMessage s 0 (2 + g) ∈ t.host ∨ 2 + g ∈ t.pcie.msixPending)))
  ∧ (∀ s : State, s.pcie.cfgRetry = false → lc s ≠ .scrapped →
      (s.pcie.ready = false → ∀ off width v, accessOk off width = true → 2 < blockOf off → off < 0x800000 →
        LeadsTo (.registerWrite (.ctl off) width v) s s
        ∧ ∃ t, exec (.registerWrite (.ctl off) width v) s = .next t ∧ t.glb.trouble.getLsbD 2 = true)
      ∧ (s.pcie.ready = false → ∀ v : BitVec 64, LeadsTo (.boxCfgWrite v) s s ∧ LeadsTo (.ushAdminCfgWrite v) s s
        ∧ LeadsTo .lcsChalUnlock s s ∧ LeadsTo .tmpCurtainDrop s s ∧ LeadsTo (.rngRevive v.toNat) s s)
      ∧ (s.glb.pairs = [] → ∀ v, v < 2 ^ 64 →
        LeadsTo (.registerWrite (.ctl 0x30) 8 v) s { s with glb := { s.glb with scratch := BitVec.ofNat 64 v } }))

/-- Guarded pairs: the value write changes no register and waits for its complement at the offset 800h higher, which must come
next in its block, with the same width; then the value takes effect. A complement that does not match and any other write to the
block discard the pair with GUARD_FAIL, as the timeout does, and a complement alone is discarded too (R10, R498, R500). -/
def Obligations.GuardedPairs : Prop :=  ∀ s : State, Takes s →
    let pending (v : Nat) : State := { s with glb := { s.glb with pairs := [(4, (0x40020, 4, v))] } }
    let discarded (t : State) : Prop := t.ush.budget = s.ush.budget ∧ t.glb.pairs = [] ∧ t.glb.failCount = s.glb.failCount + 1
      ∧ t.glb.trouble.getLsbD 0 = true
    (∀ off v, guardedOffsets.contains off = true → v < 2 ^ 32 → LeadsTo (.guardedValueWrite off 4 v) s
      { s with glb := { s.glb with pairs := [(blockOf off, (off, 4, v))] } })
    ∧ (∀ v, v < 2 ^ 32 →
      (s.tmp.shadowBad = [] → LeadsTo (.registerWrite (.ctl 0x40820) 4 (2 ^ 32 - 1 - v)) (pending v)
        { s with ush := { s.ush with budget := storedBudget (v % 512) } })
      ∧ (∀ w, w < 2 ^ 32 → w ≠ 2 ^ 32 - 1 - v →
        ∃ t, exec (.registerWrite (.ctl 0x40820) 4 w) (pending v) = .next t ∧ t.ush = s.ush ∧ discarded t
          ∧ t.glb.failOffset = 0x40020)
      ∧ (∀ w, ∃ t, exec (.registerWrite (.ctl 0x40000) 8 w) (pending v) = .next t ∧ discarded t ∧ t.glb.failOffset = 0x40020)
      ∧ (∃ t, exec (.guardPairTimeout 4) (pending v) = .next t ∧ t.ush = s.ush ∧ discarded t ∧ t.glb.failOffset = 0x40020))
    ∧ (∀ w, ∃ t, exec (.registerWrite (.ctl 0x40820) 4 w) s = .next t ∧ t.ush = s.ush ∧ discarded t
      ∧ t.glb.failOffset = 0x40820)
    ∧ LeadsTo (.guardPairTimeout 4) s s

/-! ### Power (chapter 23) -/

/-- PWRFAIL_N falls: a group in programming completes within the hold-up, everything volatile is lost, and the operating time is
saved; a supply that goes without it loses what was not flushed, and leaves a group in programming partial (R464, R473, R478,
R480, R517, R518). The power-up of the vault die: the cycle count rises when VDD_VAULT was absent, the known-answer tests let
the entropy sources start, the backup latch is imported, and a device without a plan in either bank comes up without one;
PWRFAIL_N that rises starts the sequence anew (R389, R462, R478, R517, R522). -/
def Obligations.PowerRows : Prop :=
  (∀ s : State, s.pwr.vault = true → s.pwr.vhold = true → s.pwr.pwrfailHigh = true →
      (∃ t, exec .pwrfailNFall s = .next t ∧ t.otp = programmedOtp s ∧ t.pwr.pwrfailHigh = false ∧ t.pwr.up = false
        ∧ t.pcie.ready = false ∧ t.evr.saved = t.evr.time ∧ t.evr.time = s.evr.time ∧ t.seats = [] ∧ t.writer = []
        ∧ t.ush.rings = [] ∧ t.dig.streams = [] ∧ t.box.running = false)
      ∧ (∃ t, exec .supplyLoss s = .next t ∧ t.pwr.vault = false ∧ t.pwr.mains = false ∧ t.evr.buffer = []
        ∧ t.evr.time = s.evr.saved ∧ t.seats = [] ∧ t.writer = [] ∧ t.ush.rings = [] ∧ t.dig.streams = []
        ∧ (s.twn.state ≠ .pairing → (∀ p ∈ s.seats, p.2.phase ≠ .held) → t.keys.slots = s.keys.slots)
        ∧ t.keys.mkPresent = s.keys.mkPresent
        ∧ (∀ f, s.lcs.transition = .programming 1 f → s.otp.g0 = 0 → groupPartial t.otp.g0 = true)))
  ∧ (∀ s : State,
      (s.pwr.up = false → s.pwr.vault = false → lc s ≠ .scrapped → ∀ ok, ∃ t, exec (.vaultPowerUp ok) s = .next t
        ∧ t.pwr.up = true ∧ t.pwr.vault = true ∧ t.evr.cycles = s.evr.cycles + 1 ∧ t.rng.katDone = true ∧ t.rng.katFail = !ok
        ∧ t.tmp.latch = [] ∧ t.tmp.imported = s.tmp.latch.length ∧ t.tmp.onBackup = false ∧ t.keys.replayDone = true
        ∧ (∀ i, i < 2 → (sourceAt t i).state = .startUp)
        ∧ (s.stg.bankA = none → s.stg.bankB = none → activePlan t = none))
      ∧ (s.pwr.pwrfailHigh = false → ∃ t, exec .pwrfailNRise s = .next t ∧ t.pwr.pwrfailHigh = true ∧ t.pwr.up = false
        ∧ t.pcie.vfs = 0))

/-! ### Plans and scripts (chapters 13 and 15) -/

/-- A switch is requested by OP_STAGE_SWITCH or by STG_SWITCH, one at a time, and not of a bank that is being loaded (R391); its
check ends it, with the plan's refusal, E_BUSY or nothing to do, or lets it commit at once where no class-S field changes, or
begins an intermission, whose end puts the plan in force (R392, R393). The new images become resident once what old runs still
need fits into the retention area (R354); the overlay's masks and its lower offer are taken as written, the offer in force at
once while VF Enable is 0 (R396). -/
def Obligations.PlansAndOverlay : Prop :=
  (∀ s : State,
      (∀ k x, s.seats.get? k = some x → computing x 0x031 = true → strayHandle x = false → s.stg.asker ≠ some k →
        (s.stg.switching ≠ .idle →
          LeadsTo (.opStageSwitch k) s (setSeat k { x with outcome := some (ended .busy 0) }
            { s with stg := { s.stg with resultStatus := .busy, resultKind := 0, resultUs := 0 } }))
        ∧ (s.stg.switching = .idle → (∃ l ∈ s.stg.loading, l.2 = x.entry.argBit 0 0) →
          LeadsTo (.opStageSwitch k) s (setSeat k { x with outcome := some (ended .busy 0) }
            { s with stg := { s.stg with asker := none, resultStatus := .busy, resultKind := 0, resultUs := 0 } }))
        ∧ (s.stg.switching = .idle → (∀ l ∈ s.stg.loading, l.2 ≠ x.entry.argBit 0 0) →
          LeadsTo (.opStageSwitch k) s { s with stg := { s.stg with switching := .checking, target := x.entry.argBit 0 0,
                                                                    raiseMin := x.entry.argBit 1 0, asker := some k } }))
      ∧ (Takes s → s.tmp.shadowBad = [] → ∀ v, v < 4 →
        (s.stg.switching = .idle → (∀ l ∈ s.stg.loading, l.2 ≠ bit v 0) →
          LeadsTo (.stgSwitchWrite v) s { s with stg := { s.stg with
            switchReg := v, switching := .checking, target := bit v 0, raiseMin := bit v 1, asker := none } })
        ∧ (s.stg.switching = .idle → (∃ l ∈ s.stg.loading, l.2 = bit v 0) →
          LeadsTo (.stgSwitchWrite v) s { s with stg := { s.stg with
            switchReg := v, asker := none, resultStatus := .busy, resultKind := 0, resultUs := 0 } })
        ∧ (s.stg.switching ≠ .idle → LeadsTo (.stgSwitchWrite v) s { s with stg := { s.stg with
            switchReg := v, resultStatus := .busy, resultKind := 0, resultUs := 0 } }))
      ∧ (s.stg.switching = .checking →
        let result (st : Status) : Prop := ∃ t, exec .planCheckComplete s = .next t ∧ t.stg.switching = .idle
          ∧ t.stg.resultStatus = st ∧ t.stg.resultKind = 0 ∧ t.stg.active = s.stg.active ∧ t.stg.minSvn = s.stg.minSvn
          ∧ t.stg.bankA = s.stg.bankA ∧ t.stg.bankB = s.stg.bankB ∧ t.til = s.til
        (∀ n, bankCheck s s.stg.target = some n → result (planStatus n))
        ∧ (∀ p, bankCheck s s.stg.target = none → bankOf s s.stg.target = some p →
          let tooLow := s.pcie.vfEnable = true ∧ Nat.min p.vfOffer s.stg.overlayMax < s.pcie.numVfs
          (tooLow ∨ p.pinPages < pinPagesUsed s → result .busy)
          ∧ (¬ tooLow → pinPagesUsed s ≤ p.pinPages →
            (s.stg.active = s.stg.target → s.stg.noPlan = false → result .ok)
            ∧ (s.stg.active ≠ s.stg.target ∨ s.stg.noPlan = true →
              (structuralSwitch (activePlan s) p = true →
                LeadsTo .planCheckComplete s { s with stg := { s.stg with switching := .intermission } })
              ∧ (structuralSwitch (activePlan s) p = false → ∃ t, exec .planCheckComplete s = .next t
                ∧ t.stg.active = s.stg.target ∧ t.stg.noPlan = false ∧ t.stg.switching = .idle ∧ t.stg.resultStatus = .ok
                ∧ t.stg.resultKind = 1 ∧ t.til = s.til)))))
      ∧ (s.stg.switching = .intermission → ∀ p us, bankOf s s.stg.target = some p →
        ∃ t, exec (.intermissionEnd us) s = .next t ∧ t.stg.active = s.stg.target ∧ t.stg.noPlan = false
          ∧ t.stg.switching = .idle ∧ t.stg.resultStatus = .ok ∧ t.stg.resultKind = 2 ∧ t.stg.resultUs = us
          ∧ t.til.tiles = s.til.tiles.map (reconfigure p))
      ∧ (s.stg.switching ≠ .checking → LeadsTo .planCheckComplete s s)
      ∧ (s.stg.switching ≠ .intermission → ∀ us, LeadsTo (.intermissionEnd us) s s))
  ∧ (∀ s : State,
      (∀ p, s.scr.sceneChange = true → activePlan s = some p →
        (s.scr.retainBank = none → LeadsTo .sceneChange s { s with scr := { s.scr with
          maker := some p.maker, customer := p.customer, sceneChange := false, retain := 0, retainBank := none } })
        ∧ (∀ b, s.scr.retainBank = some b → retainedWords s b ≤ 16384 → ∃ t, exec .sceneChange s = .next t
          ∧ t.scr.sceneChange = false ∧ t.scr.maker = some p.maker ∧ t.scr.customer = p.customer
          ∧ t.scr.retain = retainedWords s b)
        ∧ (∀ b, s.scr.retainBank = some b → 16384 < retainedWords s b → LeadsTo .sceneChange s s))
      ∧ (s.scr.sceneChange = false → LeadsTo .sceneChange s s)
      ∧ (Takes s → s.tmp.shadowBad = [] →
        (∀ n (v : BitVec 64), n < 64 → LeadsTo (.stgOverlayVfdenyWrite n v) s
          { s with stg := { s.stg with deny := s.stg.deny.put n v.toNat } })
        ∧ (∀ v, v < 8192 → (s.pcie.vfEnable = true → LeadsTo (.stgOverlayVfmaxWrite v) s
            { s with stg := { s.stg with overlayMaxNext := v } })
          ∧ (s.pcie.vfEnable = false → LeadsTo (.stgOverlayVfmaxWrite v) s
            { s with stg := { s.stg with overlayMaxNext := v, overlayMax := v } }))))

/-- The sides of a run issue their words one at a time, each its own, and the other side and the outcome stay (R315, R336); a word
whose cue does not hold waits. A customer opcode runs both to their ends: its outcome is that of side A, with the interval that
its header declares for the rounds it reported (R344, R347, R353). -/
def Obligations.ScriptsRun : Prop :=  ∀ (s : State) (k : Nat) (x : Seat) (h : Header), s.seats.get? k = some x → runHeader s x = some h →
    (scripting x h = true →
      let p := sidesOf s k x h
      (∀ c y n, ctxOf s x h p.1 p.2.offers = some c → stepSide c p.1 = some (y, n) →
        ∃ t q z, exec (.microwordIssue k .a) s = .next t ∧ t.scr.sides.get? k = some q ∧ q.2 = p.2
          ∧ (x.input.isSome = true → q.1 = y) ∧ t.seats.get? k = some z ∧ z.outcome = x.outcome ∧ z.phase = x.phase)
      ∧ (∀ c y n, ctxOf s x h p.2 p.1.offers = some c → stepSide c p.2 = some (y, n) →
        ∃ t q z, exec (.microwordIssue k .b) s = .next t ∧ t.scr.sides.get? k = some q ∧ q.1 = p.1
          ∧ (x.input.isSome = true → q.2 = y) ∧ t.seats.get? k = some z ∧ z.outcome = x.outcome ∧ z.phase = x.phase)
      ∧ (∀ c, ctxOf s x h p.1 p.2.offers = some c → stepSide c p.1 = none → LeadsTo (.microwordIssue k .a) s s)
      ∧ (∀ c, ctxOf s x h p.2 p.1.offers = some c → stepSide c p.2 = none → LeadsTo (.microwordIssue k .b) s s))
    ∧ (∀ i row, isCustomer x.entry.opc = true → computing x x.entry.opc = true → headerRow h x.entry.ps = some (i, row) →
      x.noEntropy = false → strayHandle x = false →
      ∃ t y a b o, exec (.customerOpcode k) s = .next t ∧ t.seats.get? k = some y ∧ t.scr.sides.get? k = some (a, b)
        ∧ a.ended ≠ .running ∧ b.ended ≠ .running ∧ y.outcome = some o ∧ o.status = a.result ∧ o.out = a.out
        ∧ o.rounds = a.r ∧ o.interval = scriptInterval h row x.entry a.r ∧ o.changes = [] ∧ t.writer = s.writer)

/-- The sequencer: a taken CALL keeps the next address, to which the RET behind it goes back where the footprint holds it; a ninth
nested call and a return without a call stop the side with E_SCRIPT_FAULT; a loop goes to its target until its counter reaches 0
(R335, R345). -/
def Obligations.SequencerRules : Prop :=  ∀ (c : Ctx) (x y : SideState) (q r : Seq), condHolds x q = true →
    (q.mode = 2 → x.stack.length < 8 → ∃ z, seqEffect c x q y = .ok z ∧ z.pc = q.target
      ∧ (r.mode = 3 → condHolds z r = true →
        (c.hdr.holds ((x.pc + 1) % 65536) = true → ∃ w, seqEffect c z r z = .ok w ∧ w.pc = (x.pc + 1) % 65536
          ∧ w.stack = x.stack)
        ∧ (c.hdr.holds ((x.pc + 1) % 65536) = false → seqEffect c z r z = .error .scriptFault)))
    ∧ (q.mode = 2 → 8 ≤ x.stack.length → seqEffect c x q y = .error .scriptFault)
    ∧ (q.mode = 3 → x.stack = [] → seqEffect c x q y = .error .scriptFault)
    ∧ (q.mode = 4 → ∃ z, seqEffect c x q y = .ok z ∧ z.lc0 = (x.lc0 + 2 ^ 32 - 1) % 2 ^ 32
      ∧ (z.lc0 = 0 → z.pc = (x.pc + 1) % 65536) ∧ (z.lc0 ≠ 0 → z.pc = q.target) ∧ z.lc1 = y.lc1)
    ∧ (q.mode = 1 → ∃ z, seqEffect c x q y = .ok z ∧ z.pc = q.target)

/-! ### The twin link (chapter 16) -/

/-- The rows of the link itself: it is lost and trained, where it is permitted; the wait for a join is over; each frame sent
counts, a heartbeat with what this device has written, applied and received, the frames that were not acknowledged, which are
sent again, and the snapshot of the meters; the twin of a paired device is declared absent once, which ends the session and
keeps the pairing (R398, R399, R405, R407, R411, R412, R418). -/
def Obligations.LinkRows : Prop :=  ∀ s : State,
    LeadsTo .linkLoss s { s with twn := { s.twn with linkUp := false } }
    ∧ (s.twn.enable = false → LeadsTo .linkTrained s s)
    ∧ (s.twn.enable = true → s.twn.session = true → LeadsTo .linkTrained s { s with twn := { s.twn with linkUp := true } })
    ∧ LeadsTo .joinWaitExpiry s { s with twn := { s.twn with joinUntil := 0 } }
    ∧ (s.twn.session = true → s.twn.linkUp = true →
      (∃ t, exec .heartbeatSend s = .next t ∧ t.twn.framesTx = s.twn.framesTx + 1 ∧ t.keys = s.keys
        ∧ ∃ h, Emit.twinHeartbeat h ∈ t.host ∧ h.journalSeq = s.keys.seq ∧ h.appliedSeq = s.twn.appliedSeq
          ∧ h.ackJournal = s.twn.journal.recvSeq ∧ h.ackCheckpoint = s.twn.checkpoint.recvSeq
          ∧ h.lcState = (lc s).code ∧ h.curtainDown = s.tmp.curtainDown)
      ∧ (∀ n, s.twn.journal.unacked = n → n ≠ 0 → ∃ t, exec (.resendTimeout true) s = .next t
        ∧ Emit.twinResend true n ∈ t.host ∧ t.twn.framesTx = s.twn.framesTx + n)
      ∧ (∀ n, s.twn.checkpoint.unacked = n → n ≠ 0 → ∃ t, exec (.resendTimeout false) s = .next t
        ∧ Emit.twinResend false n ∈ t.host ∧ t.twn.framesTx = s.twn.framesTx + n))
    ∧ (s.twn.session = false ∨ s.twn.linkUp = false → LeadsTo .heartbeatSend s s ∧ ∀ j, LeadsTo (.resendTimeout j) s s)
    ∧ (s.box.running = false ∨ sharing s = false → LeadsTo .checkpointSnapshot s s)
    ∧ (s.box.running = true → sharing s = true → s.twn.checkpoint.unacked < 256 → s.twn.checkpointQueue = [] →
      ∃ t, exec .checkpointSnapshot s = .next t ∧ t.twn.checkpoint.unacked = s.twn.checkpoint.unacked + 1
        ∧ Emit.twinCheckpoint (.snapshot s.box.epoch (pageCounters s)) ∈ t.host)
    ∧ (∀ held, paired s = true → s.twn.state ≠ .pairing → s.twn.state ≠ .absent → s.twn.state ≠ .diverged →
      ∃ t, exec (.twinAbsent held) s = .next t ∧ t.twn.state = .absent ∧ t.twn.session = false
        ∧ t.twn.record = s.twn.record)
    ∧ (∀ held, s.twn.state = .absent → ∃ t, exec (.twinAbsent held) s = .next t ∧ t.twn.state = .absent
      ∧ t.twn.session = false ∧ t.twn.record = s.twn.record)

/-- The handshake: HELLO of the expected peer is answered with REPLY, REPLY with AUTH_I, each carrying what this device is, and
AUTH_I of a running session's handshake with AUTH_R; a message that fails its checks, or a handshake that takes too long, leaves
the session that runs as it was; AUTH_I and AUTH_R that verify put new keys in place, made of what was agreed, the pairing's
secret and the transcript, or a rejoin's session, and a rejoin that finds a divergence stops at it (R402, R414, R415). -/
def Obligations.Handshakes : Prop :=  ∀ s : State,
    let dropped (i : Instr) : Prop := askerSeat s = none → s.twn.state ≠ .pairing →
      LeadsTo i s { s with twn := { s.twn with
        handshake := .idle, hello := none, reply := none, auth := none, rekeying := false, ephemeral := [], agreed := [] } }
    let asks (i : Instr) (rekey : Bool) : Prop := s.twn.handshake = .idle → mayHandshake s = true → initiates s = true →
      servingInst s ≠ none → ∃ t m, exec i s = .next t ∧ t.twn.handshake = .sentHello ∧ t.twn.hello = some m
        ∧ t.twn.rekeying = rekey ∧ t.twn.session = s.twn.session ∧ m.serial = s.otp.serial ∧ m.pairId = ownPairId s
        ∧ Emit.twinHello m ∈ t.host
    (sharing s = true → asks .rekey true)
    ∧ (sharing s = false → LeadsTo .rekey s s)
    ∧ (s.twn.state = .diverged ∨ s.twn.session = false → asks .rejoinRetry false)
    ∧ (s.twn.state ≠ .diverged → s.twn.session = true → LeadsTo .rejoinRetry s s)
    ∧ (s.twn.linkUp = true → s.twn.session = false → asks .linkTrained false)
    ∧ (∀ m, mayHandshake s = true → initiates s = false → expectedPeer s = some m.serial → helloFits s m = true →
      servingInst s ≠ none → ∃ t r, exec (.hello m) s = .next t ∧ t.twn.handshake = .sentReply ∧ t.twn.hello = some m
        ∧ t.twn.reply = some r ∧ r.serial = s.otp.serial ∧ t.twn.rekeying = sharing s ∧ t.twn.session = s.twn.session
        ∧ Emit.twinReply r ∈ t.host)
    ∧ (∀ m, askerSeat s = none → expectedPeer s ≠ some m.serial → LeadsTo (.hello m) s s)
    ∧ (∀ m h, s.twn.handshake = .sentHello → s.twn.hello = some h →
      (expectedPeer s = some m.serial →
        ∃ t a, exec (.reply m) s = .next t ∧ t.twn.handshake = .sentAuthI ∧ t.twn.reply = some m ∧ t.twn.auth = some a
          ∧ a.lcState = (lc s).code ∧ a.claims = claims s ∧ t.twn.session = s.twn.session ∧ Emit.twinAuth a ∈ t.host)
      ∧ (expectedPeer s ≠ some m.serial → dropped (.reply m)))
    ∧ (s.twn.handshake = .idle → LeadsTo .handshakeTimeout s s)
    ∧ (s.twn.handshake ≠ .idle → dropped .handshakeTimeout)
    ∧ (∀ m h r, s.twn.hello = some h → s.twn.reply = some r →
      let th (a : Option TwinAuth) := transcript h r a
      let rekeys (i : Instr) (end_ : Bytes) : Prop := s.twn.rekeying = true →
        let keys := sessionKeys s.twn.agreed (pairingSecret s false) end_
        let a := keys.take 32
        let b := (keys.drop 32).take 32
        ∃ t, exec i s = .next t ∧ t.twn.handshake = .idle ∧ t.twn.framesTx = 0 ∧ t.twn.fctrRx = 0
          ∧ t.twn.session = s.twn.session ∧ t.twn.journal = s.twn.journal
          ∧ t.twn.keyOut = (if initiates s then a else b) ∧ t.twn.keyIn = (if initiates s then b else a)
      let rejoins (i : Instr) : Prop := s.twn.rekeying = false → askerSeat s = none → m.claims ≠ [] →
        (divergedFunctions s m = [] → ∃ t, exec i s = .next t ∧ t.twn.session = true ∧ t.twn.state = .resending
          ∧ t.twn.peerState = m.lcState ∧ t.twn.diverged = [])
        ∧ (divergedFunctions s m ≠ [] → ∃ t, exec i s = .next t ∧ t.twn.session = true ∧ t.twn.state = .diverged
          ∧ t.twn.diverged = divergedFunctions s m ∧ t.keys = s.keys)
      (s.twn.handshake = .sentReply →
        (authOk (th none) m = false → dropped (.authI m))
        ∧ (authOk (th none) m = true → rekeys (.authI m) (th (some m)) ∧ rejoins (.authI m)
          ∧ (s.twn.rekeying = true → ∃ t a, exec (.authI m) s = .next t ∧ Emit.twinAuth a ∈ t.host ∧ a.lcState = (lc s).code
            ∧ a.claims = claims s)))
      ∧ (s.twn.handshake = .sentAuthI →
        (authOk (th s.twn.auth) m = false → dropped (.authR m))
        ∧ (authOk (th s.twn.auth) m = true → rekeys (.authR m) (th s.twn.auth) ∧ rejoins (.authR m))))

/-- Pairing and restore begin where their checks pass, and end by their status otherwise; a pairing whose peer does not answer in
time ends with E_BUSY and leaves the device unpaired; the peer's notice unpairs too, once no seat references a mirror slot (R400,
R403, R417). -/
def Obligations.PairingRows : Prop :=  ∀ (s : State) (k : Nat) (x : Seat), s.seats.get? k = some x →
    (computing x 0x050 = true → s.twn.asker ≠ some k →
      (∀ st, pairCheck s x = some st →
        LeadsTo (.opTwinPair k) s (setSeat k { x with outcome := some (ended st 0) } s))
      ∧ (pairCheck s x = none → x.entry.arg 0 ≠ 2 → ∃ t, exec (.opTwinPair k) s = .next t ∧ t.twn.asker = some k
        ∧ t.twn.state = .pairing ∧ t.seats = s.seats ∧ t.keys = s.keys)
      ∧ (pairCheck s x = none → x.entry.arg 0 = 2 → mirrorsNamed s = false → LeadsTo (.opTwinPair k) s
        (setSeat k { x with outcome := some (done (pairOutput s 0) 0 [.twinPair 2]) } s))
      ∧ (pairCheck s x = none → x.entry.arg 0 = 2 → mirrorsNamed s = true → LeadsTo (.opTwinPair k) s s)
      ∧ (x.noEntropy = false → strayHandle x = false → x.entry.arg 0 ≤ 1 →
        (x.approval = false → pairCheck s x = some .auth)
        ∧ (x.approval = true → s.twn.enable = false ∨ paired s = true → pairCheck s x = some .busy)))
    ∧ (computing x 0x052 = true → s.twn.asker ≠ some k →
      (∀ st, restoreCheck s x = some st →
        LeadsTo (.opTwinRestore k) s (setSeat k { x with outcome := some (ended st 0) } s))
      ∧ (restoreCheck s x = none → ∃ t, exec (.opTwinRestore k) s = .next t ∧ t.twn.asker = some k ∧ t.seats = s.seats
        ∧ t.twn.state = s.twn.state))
    ∧ (computing x 0x050 = true → s.twn.asker = some k → s.twn.state = .pairing →
      (s.twn.session = true → LeadsTo (.pairingTimeout k) s s)
      ∧ (s.twn.session = false → ∃ t y, exec (.pairingTimeout k) s = .next t ∧ t.seats.get? k = some y
        ∧ y.outcome = some (ended .busy 0) ∧ t.twn.state = .unpaired ∧ t.twn.asker = none ∧ t.twn.record = none))
    ∧ (paired s = true → s.twn.session = true →
      (mirrorsNamed s = true → LeadsTo .twinUnpairNotice s s)
      ∧ (mirrorsNamed s = false → ∃ t, exec .twinUnpairNotice s = .next t ∧ t.twn.record = none ∧ t.twn.state = .unpaired
        ∧ t.twn.session = false ∧ t.ten.homes = []))

/-- Adoption: refused where the device is not paired; given with an absent twin, or as a yield, it acts at its commit instant; a
present twin is asked for each partition, and the operation ends when all are home here; the twin's own request stops the
changes of a partition, which becomes mirror when those that run are through (R413). -/
def Obligations.AdoptionRows : Prop :=  ∀ s : State,
    (∀ k x, s.seats.get? k = some x → computing x 0x051 = true →
      let f := x.entry.argN 0 2
      (paired s = false → LeadsTo (.opTwinAdopt k) s (setSeat k { x with outcome := some (ended .invalidInput 0) } s))
      ∧ (adoptInputBad s x = false →
        (x.entry.argBit 2 0 = true →
          LeadsTo (.opTwinAdopt k) s (setSeat k { x with outcome := some (done [] 0 [.twinAdopt f true]) } s))
        ∧ (x.entry.argBit 2 0 = false →
          (twinAbsentLive s = true →
            LeadsTo (.opTwinAdopt k) s (setSeat k { x with outcome := some (done [] 0 [.twinAdopt f false]) } s))
          ∧ (twinAbsentLive s = false → adoptTargets s f = [] →
            LeadsTo (.opTwinAdopt k) s (setSeat k { x with outcome := some (done (padTo 8 x.chunks) 0 []) } s))
          ∧ (twinAbsentLive s = false → adoptTargets s f ≠ [] → x.staged ≠ 1 →
            ∃ t y, exec (.opTwinAdopt k) s = .next t ∧ t.seats.get? k = some y ∧ y.staged = 1 ∧ y.outcome = none
              ∧ (∀ g ∈ adoptTargets s f, Emit.twinAdopt g ∈ t.host) ∧ t.keys = s.keys)
          ∧ (twinAbsentLive s = false → adoptTargets s f ≠ [] → x.staged = 1 → LeadsTo (.opTwinAdopt k) s s))))
    ∧ (∀ f, (homeOf s f).twin = true ∨ s.twn.session = false → LeadsTo (.twinAdoptRequest f) s s)
    ∧ (∀ f, f ≤ Config.vfTotal → s.twn.session = true → (homeOf s f).twin = false → s.twn.yielding = [] →
      (changesInFlight s f = true ∨ changedApart s f = true →
        LeadsTo (.twinAdoptRequest f) s { s with twn := { s.twn with yielding := [f] } })
      ∧ (changesInFlight s f = false → changedApart s f = false →
        ∃ t, exec (.twinAdoptRequest f) s = .next t ∧ (homeOf t f).twin = true ∧ f ∉ t.twn.yielding))

/-- Frames: one that fails its tag, its length, its reserved fields or its counter is dropped and counted, and the 64th in a row
dropped for its tag ends the session; one out of its turn changes nothing but the counters of frames; one in its turn is
applied, unless it was before: a slot commit makes the mirror slot it describes, and a snapshot is kept; a heartbeat tells the
peer's state and what it has applied (R405 to R408, R416, R418). -/
def Obligations.FramesInTurn : Prop :=  ∀ (s : State) (f : Frame),
    let bad := !f.tagOk || !f.lenOk || !f.reservedOk || f.fctr ≤ s.twn.fctrRx
    let fails := if f.tagOk then 0 else s.twn.tagFails + 1
    let frames (i : Instr) : Prop :=
      (s.twn.session = false ∨ s.twn.linkUp = false → LeadsTo i s s)
      ∧ (s.twn.session = true → s.twn.linkUp = true → bad = true →
        (fails < 64 → LeadsTo i s (bump Ctr.dropped 1 { s with twn := { s.twn with tagFails := fails } }))
        ∧ (64 ≤ fails → ∃ t, exec i s = .next t ∧ t.twn.session = false))
    (∀ m, frames (.journalFrame f m)) ∧ (∀ m, frames (.checkpointFrame f m)) ∧ (∀ h, frames (.heartbeat f h))
    ∧ (s.twn.session = true → s.twn.linkUp = true → bad = false →
      (∀ m, f.cseq ≠ s.twn.journal.recvSeq → ∃ t, exec (.journalFrame f m) s = .next t ∧ t.twn.fctrRx = f.fctr
        ∧ t.twn.journal = s.twn.journal ∧ t.keys = s.keys ∧ t.ten = s.ten ∧ t.seats = s.seats)
      ∧ (∀ m, f.cseq ≠ s.twn.checkpoint.recvSeq → ∃ t, exec (.checkpointFrame f m) s = .next t ∧ t.twn.fctrRx = f.fctr
        ∧ t.twn.checkpoint = s.twn.checkpoint ∧ t.twn.snapshot = s.twn.snapshot ∧ t.twn.held = s.twn.held)
      ∧ (sharing s = true → f.cseq = s.twn.journal.recvSeq → ∀ q (m : SlotImage), m.occupied = true →
        (q ≠ 0 → q ≤ s.twn.appliedSeq → ∃ t, exec (.journalFrame f (.slotCommit q m)) s = .next t ∧ t.keys = s.keys
          ∧ t.twn.journal.recvSeq = s.twn.journal.recvSeq + 1)
        ∧ (s.twn.appliedSeq < q → ∃ t y, exec (.journalFrame f (.slotCommit q m)) s = .next t ∧ t.twn.appliedSeq = q
          ∧ t.twn.journal.recvSeq = s.twn.journal.recvSeq + 1
          ∧ t.keys.slots.get? m.index = some y ∧ y.mirror = true ∧ y.occupied = true ∧ y.owner = m.owner
          ∧ y.gen = m.generation ∧ y.family = m.family ∧ y.paramSet = m.paramSet ∧ y.usage = m.usage
          ∧ y.exportable = m.exportable ∧ y.material = m.material ∧ y.unitCount = m.units ∧ ∀ j, j ≠ m.index → t.keys.slots.get? j = s.keys.slots.get? j))
      ∧ (sharing s = true → f.cseq = s.twn.checkpoint.recvSeq → ∀ e c,
        ∃ t, exec (.checkpointFrame f (.snapshot e c)) s = .next t ∧ t.twn.snapshot = some (e, c)
          ∧ t.twn.checkpoint.recvSeq = s.twn.checkpoint.recvSeq + 1)
      ∧ (∀ h held, s.twn.yielding = [] → ∃ t, exec (.heartbeat f ⟨h, held⟩) s = .next t ∧ t.twn.fctrRx = f.fctr
        ∧ t.twn.peerState = h.lcState ∧ t.twn.peerCurtain = h.curtainDown
        ∧ (s.keys.ackedSeq < h.appliedSeq → h.appliedSeq ≤ s.keys.seq → t.keys.ackedSeq = h.appliedSeq)
        ∧ (s.twn.state = .resending → restoring s = false → s.twn.journalQueue = [] →
          (s.twn.journal.acked h.ackJournal).unacked = 0 → t.twn.state = .present)))

/-! ### The token bus and the quorum (chapter 17) -/

/-- A token's way onto the bus: its insertion starts an arbitration, the ID read is named with the next free address, attached,
and located in the one slot whose line pulsed; otherwise a token is FAULTY (R422, R423, R425, R426). A token that leaves its slot
leaves nothing there, and a bus reset leaves no token identified. -/
def Obligations.TokensAreIdentified : Prop :=  ∀ s : State, busRuns s = true → s.tkb.slots.length = 8 →
    (∀ i, i < 8 → (tokAt s i).present = false → ∃ t, exec (.tokenInserted i) s = .next t ∧ (tokAt t i).present = true
      ∧ (tokAt t i).state = .debouncing
      ∧ (s.tkb.bus = .idle → t.tkb.bus = .arbitrating ∧ Emit.tkFrame (commandFrame 1 s.tkb.tag 0) ∈ t.host))
    ∧ (∀ v, s.tkb.bus = .arbitrating → LeadsTo (.arbitrate v) s { s with tkb := { s.tkb with
        bus := .idle,
        winner := if v % 2 ^ 128 = 2 ^ 128 - 1 then none else some (BitVec.ofNat 128 (v % 2 ^ 128)) } })
    ∧ (∀ id r, s.tkb.winner = some id → s.tkb.bus = .idle →
      let a := freshAddr s 10 s.tkb.nextAddr
      replyOk (commandFrame 2 s.tkb.tag a) r = true → frameParam r % 65536 = a →
      ∃ t, exec (.assign r) s = .next t ∧ t.tkb.naming = some (id, a) ∧ t.tkb.winner = none ∧ t.tkb.slots = s.tkb.slots)
    ∧ (∀ a r, 0 < a → a < 65536 → s.tkb.bus = .idle →
      (faultyAddr s a = true → LeadsTo (.attach a r) s s)
      ∧ (faultyAddr s a = false → replyOk (commandFrame 3 s.tkb.tag a) r = true →
        ∃ t, exec (.attach a r) s = .next t ∧ t.tkb.attached = some a ∧ t.tkb.bus = .idle))
    ∧ (∀ id a, s.tkb.naming = some (id, a) → s.tkb.attached = some a →
      ∃ t, exec .locate s = .next t ∧ t.tkb.bus = .located none ∧ Emit.tkFrame (commandFrame 9 s.tkb.tag 0) ∈ t.host)
    ∧ (∀ id a b, s.tkb.naming = some (id, a) → s.tkb.bus = .located b →
      (∀ i, i < 8 → (tokAt s i).present = true → (tokAt s i).state = .debouncing →
        (∃ t, exec (.locateWindowEnd [i] []) s = .next t ∧ (tokAt t i).state = .identified ∧ (tokAt t i).id = some id
          ∧ (tokAt t i).addr = a ∧ t.tkb.naming = none ∧ ∀ j, j ≠ i → tokAt t j = tokAt s j)
        ∧ (∀ l, l.length ≠ 1 → ∃ t j, exec (.locateWindowEnd l []) s = .next t ∧ (tokAt t j).state = .faulty
          ∧ t.tkb.naming = none ∧ t.tkb.attached = none)))
    ∧ (∀ i, i < 8 → (tokAt s i).present = true → ∃ t, exec (.tokenRemoved i) s = .next t ∧ (tokAt t i).state = .empty
      ∧ (tokAt t i).id = none ∧ (tokAt t i).present = false ∧ (∀ j, j ≠ i → tokAt t j = tokAt s j)
      ∧ ((tokAt s i).addr ≠ 0 → s.tkb.attached = some (tokAt s i).addr → t.tkb.attached = none))
    ∧ (∃ t, exec .busReset s = .next t ∧ t.tkb.attached = none ∧ t.tkb.naming = none ∧ t.tkb.bus = .idle
      ∧ Emit.tkFrame (commandFrame 0 s.tkb.tag 0x5A5A) ∈ t.host ∧ ∀ i, (tokAt t i).state ≠ .identified)

/-- Commands: one without a valid reply is sent again with the next TAG, up to three times, and then the token is FAULTY; MODE is
asked, its report checked, and a token whose check failed is left at 400 kHz after a restart; a query of the count keeps it
(R423, R427, R432). -/
def Obligations.TokenCommands : Prop :=  ∀ s : State, busRuns s = true → s.tkb.slots.length = 8 →
    (∀ f n, s.tkb.bus = .await f n →
      let g := commandFrame (frameOpc f) s.tkb.tag (frameParam f)
      (n < 3 → ∃ t, exec .tokenReplyTimeout s = .next t ∧ t.tkb.bus = .await g (n + 1) ∧ Emit.tkFrame g ∈ t.host
        ∧ t.tkb.slots = s.tkb.slots)
      ∧ (3 ≤ n → ∀ i, attachedSlot s = some i → ∃ t, exec .tokenReplyTimeout s = .next t ∧ (tokAt t i).state = .faulty
        ∧ t.tkb.attached = none ∧ t.tkb.bus = .idle))
    ∧ (∀ i, attachedSlot s = some i →
      (∀ r, s.tkb.bus = .idle → (tokAt s i).fallback = false →
        (replyOk (commandFrame 4 s.tkb.tag (wantedMode s)) r = true → ∃ t, exec (.mode r) s = .next t
          ∧ t.tkb.bus = .modeReport (wantedMode s) ∧ t.tkb.modeAsked = wantedMode s)
        ∧ (replyOk (commandFrame 4 s.tkb.tag (wantedMode s)) r = false → ∃ t g, exec (.mode r) s = .next t
          ∧ t.tkb.bus = .await g 1 ∧ t.tkb.slots = s.tkb.slots))
      ∧ (∀ r, (tokAt s i).fallback = true → LeadsTo (.mode r) s s)
      ∧ (∀ d m, s.tkb.bus = .modeReport m →
        (∀ r, phaseBytes d = some r → reportOk s i m r = true → ∃ t, exec (.modeReport d) s = .next t
          ∧ (tokAt t i).mode = m ∧ (tokAt t i).writeCount = leAt r 20 4 ∧ t.tkb.bus = .idle)
        ∧ (phaseBytes d = none ∨ (∃ r, phaseBytes d = some r ∧ reportOk s i m r = false) →
          ∃ t, exec (.modeReport d) s = .next t ∧ (tokAt t i).fallback = true
          ∧ (tokAt t i).mode = (tokAt s i).mode ∧ t.tkb.bus = .modeReport m))
      ∧ (∀ r, s.tkb.bus = .idle →
        (replyOk (commandFrame 8 s.tkb.tag 1) r = true → ∃ t, exec (.tokenQuery true r) s = .next t
          ∧ (tokAt t i).writeCount = frameParam r ∧ t.tkb.bus = .idle)
        ∧ (replyOk (commandFrame 8 s.tkb.tag 0) r = true → ∃ t, exec (.tokenQuery false r) s = .next t
          ∧ t.tkb.slots = s.tkb.slots ∧ t.tkb.bus = .idle)))
    ∧ (∀ m, s.tkb.bus = .modeReport m → (s.tkb.slots.any fun t => t.fallback && t.mode = 0) = true →
      ∃ t, exec .modeFallbackRestart s = .next t ∧ t.tkb.bus = .arbitrating ∧ t.tkb.attached = none
        ∧ ∀ i, (tokAt t i).state ≠ .identified)

/-- Blocks: what is put and got; an I-block in sequence adds to the message and moves the sequence bit, one out of sequence does
not; an R-block acknowledges, or has the block sent again; the S-blocks do what they ask and are answered; a faulty block and
the first expiry of the waiting time are answered with an R-block, what fails again with a resynchronisation, and after two of
those a faulty block makes the token FAULTY (R424, R428 to R431). -/
def Obligations.TokenBlocks : Prop :=  ∀ (s : State) (i : Nat), busRuns s = true → s.tkb.slots.length = 8 → attachedSlot s = some i →
    let sends (t : State) (b : Bytes) : Prop := Emit.tkData (b ++ leBytes 2 (phaseCheck b)) ∈ t.host
    (∀ b r, s.tkb.bus = .idle → replyOk (commandFrame 6 s.tkb.tag b.length) r = true →
      ∃ t, exec (.putBlock b r) s = .next t ∧ sends t b ∧ t.tkb.bus = .idle
        ∧ (blockPcb b < 0x80 → t.tkb.sent = some b ∧ t.tkb.ackPending = true))
    ∧ (∀ d r, s.tkb.bus = .idle → replyOk (commandFrame 7 s.tkb.tag 0) r = true →
      (phaseBytes d ≠ none → ∃ t, exec (.getBlock r d) s = .next t ∧ t.tkb.bus = .idle ∧ t.tkb.faulty = s.tkb.faulty
        ∧ t.tkb.message = s.tkb.message)
      ∧ (phaseBytes d = none → s.tkb.faulty < 2 → ∃ t, exec (.getBlock r d) s = .next t
        ∧ t.tkb.faulty = s.tkb.faulty + 1 ∧ sends t (mkBlock (0x82 + fld (bnat s.tkb.recvNs) 4) [])))
    ∧ (∀ b, blockError b = 0 →
      let p := blockPcb b
      (p < 0x80 → ∃ t, exec (.iBlock b) s = .next t ∧ t.tkb.faulty = 0
        ∧ (bit p 6 = s.tkb.recvNs → t.tkb.message = s.tkb.message ++ blockInf b ∧ t.tkb.recvNs = !s.tkb.recvNs)
        ∧ (bit p 6 ≠ s.tkb.recvNs → t.tkb.message = s.tkb.message ∧ t.tkb.recvNs = s.tkb.recvNs)
        ∧ (s.tkb.ackPending = true → (tokAt t i).nextNs = !(tokAt s i).nextNs ∧ t.tkb.ackPending = false))
      ∧ (0x80 ≤ p → p < 0xA0 → ∀ own, s.tkb.sent = some own →
        (bit p 4 ≠ bit (blockPcb own) 6 → ∃ t, exec (.rBlock b) s = .next t ∧ t.tkb.ackPending = false)
        ∧ (bit p 4 = bit (blockPcb own) 6 → ∃ t, exec (.rBlock b) s = .next t ∧ sends t own
          ∧ t.tkb.ackPending = s.tkb.ackPending))
      ∧ (p = 0xE0 ∨ p = 0xC0 → ∃ t, exec (.sResynch b) s = .next t ∧ t.tkb.recvNs = false ∧ t.tkb.sent = none
        ∧ t.tkb.message = [] ∧ (tokAt t i).nextNs = false ∧ (p = 0xC0 → sends t (mkBlock 0xE0 [])))
      ∧ (p = 0xC1 → (blockInf b).length = 1 → 16 ≤ leNat (blockInf b) → leNat (blockInf b) ≤ 254 →
        ∃ t, exec (.sIfs b) s = .next t ∧ (tokAt t i).ifsc = leNat (blockInf b) ∧ sends t (mkBlock 0xE1 (blockInf b)))
      ∧ (p = 0xC2 → ∃ t, exec (.sAbort b) s = .next t ∧ t.tkb.sent = none ∧ t.tkb.message = []
        ∧ t.tkb.ackPending = false ∧ sends t (mkBlock 0xE2 []))
      ∧ (p = 0xC3 → (blockInf b).length = 1 → leNat (blockInf b) ≠ 0 →
        ∃ t, exec (.sWtx b) s = .next t ∧ t.tkb.wtx = leNat (blockInf b) ∧ sends t (mkBlock 0xE3 (blockInf b))))
    ∧ (∀ b, blockError b ≠ 0 → ∀ j ∈ [Instr.iBlock b, .rBlock b, .sResynch b, .sIfs b, .sAbort b, .sWtx b],
      (s.tkb.faulty < 2 → ∃ t, exec j s = .next t ∧ t.tkb.faulty = s.tkb.faulty + 1 ∧ t.tkb.message = s.tkb.message
        ∧ sends t (mkBlock (0x80 + fld (bnat s.tkb.recvNs) 4 + blockError b) []))
      ∧ (2 ≤ s.tkb.faulty → s.tkb.resyncs < 2 → ∃ t, exec j s = .next t ∧ t.tkb.faulty = 0
        ∧ t.tkb.resyncs = s.tkb.resyncs + 1 ∧ sends t (mkBlock 0xC0 []))
      ∧ (2 ≤ s.tkb.faulty → 2 ≤ s.tkb.resyncs → ∃ t, exec j s = .next t ∧ (tokAt t i).state = .faulty ∧ t.tkb.attached = none))
    ∧ (s.tkb.expired = false → ∃ t, exec .blockWaitingTimeExpiry s = .next t ∧ t.tkb.expired = true ∧ t.tkb.wtx = 1
      ∧ sends t (mkBlock (0x82 + fld (bnat s.tkb.recvNs) 4) []))
    ∧ (s.tkb.expired = true → s.tkb.resyncs < 2 → ∃ t, exec .blockWaitingTimeExpiry s = .next t ∧ t.tkb.expired = false
      ∧ t.tkb.resyncs = s.tkb.resyncs + 1 ∧ sends t (mkBlock 0xC0 []))

/-- Ceremonies: START discards what was open or held, an unknown action opens nothing, and the first authority key takes effect
at once; the ceremony that opens draws its nonce from the DRBG instance that serves, counts nobody, and lasts 600 s; an approval
of an enrolled token that verifies is counted once, and at M the approval is held; CANCEL and the close of the window end it,
and a reserved one outlives them (R437, R439, R441). Answers of a token fill its certificate and its count. M is raised only to
the number enrolled, and lowered only with an approval (R442). -/
def Obligations.Ceremonies : Prop :=  ∀ s : State,
    (∀ i b, busRuns s = true → s.tkb.slots.length = 8 → attachedSlot s = some i →
      (∃ t, exec (.getCert b) s = .next t ∧ (tokAt t i).cert = some b ∧ t.tkb.message = [])
      ∧ (b.length = 4 → ∃ t, exec (.getCounter b) s = .next t ∧ (tokAt t i).writeCount = leNat b)
      ∧ (∀ c id cert k e, s.tkb.approval = .open c → (tokAt s i).id = some id → (tokAt s i).cert = some cert →
        ((tokAt s i).asked = false → ∃ t, exec (.approve b) s = .next t ∧ t.tkb.approval = s.tkb.approval
          ∧ t.tkb.enrolled = s.tkb.enrolled)
        ∧ ((tokAt s i).asked = true →
          (s.tkb.enrolled.find? fun e => e.2.id = id) = some (k, e) → e.keyDigest = keyDigestOf cert →
          c.counted.contains k = false → c.action ≤ 8 ∨ c.action = 11 →
          let n := insertSorted k c.counted
          ∃ t, exec (.approve b) s = .next t ∧
            if certOk s id cert && approves s c id cert b then
              if n.length < s.tkb.quorum then t.tkb.approval = .open { c with counted := n }
              else t.tkb.approval = .held { c with counted := n } ∧ t.tkb.result = 1
            else t.tkb.approval = s.tkb.approval)))
    ∧ (Takes s → approvalReserved s = false →
      (1 ≤ s.tkb.action → s.tkb.action ≤ 12 → (s.tkb.action = 12 → s.tkb.authority ≠ none) →
        ∃ t, exec .tkbCerStart s = .next t ∧ t.tkb.startWanted = true ∧ t.tkb.result = 0 ∧ t.tkb.approval = .none)
      ∧ (s.tkb.action = 12 → s.tkb.authority = none → ∃ t, exec .tkbCerStart s = .next t ∧ t.tkb.startWanted = false
        ∧ t.tkb.approval = .none
        ∧ if (Memory.readN s.tkb.arg 0 64).take 32 = digestOf 0x0612 (bufKey s) 32 then
            t.tkb.authority = some (bufKey s) ∧ t.tkb.enrolled = [] ∧ t.tkb.quorum = 1 ∧ t.tkb.result = 2
          else t.tkb.authority = none ∧ t.tkb.result = 6)
      ∧ (s.tkb.action = 0 ∨ 12 < s.tkb.action → ∃ t, exec .tkbCerStart s = .next t ∧ t.tkb.startWanted = false
        ∧ t.tkb.result = 3 ∧ t.tkb.approval = .none)
      ∧ (∀ c, s.tkb.approval = .open c ∨ s.tkb.approval = .held c →
        ∃ t, exec .tkbCerCancel s = .next t ∧ t.tkb.approval = .none ∧ t.tkb.result = 0 ∧ t.tkb.startWanted = false))
    ∧ (Takes s → approvalReserved s = true → LeadsTo .tkbCerStart s s ∧ LeadsTo .tkbCerCancel s s)
    ∧ (∀ i, s.tkb.startWanted = true → approvalReserved s = false → servingInst s = some i →
      ∃ t c, exec .ceremonyOpen s = .next t ∧ t.tkb.approval = .open c ∧ c.action = s.tkb.action ∧ c.counted = []
        ∧ c.own = false ∧ c.nonce = drawn s i 32 ∧ c.deadline = s.now + 600 * 1000000
        ∧ t.tkb.startWanted = false)
    ∧ (s.tkb.startWanted = false ∨ servingInst s = none → LeadsTo .ceremonyOpen s s)
    ∧ (∀ c, s.tkb.approval = .open c ∨ s.tkb.approval = .held c →
      ∃ t, exec .ceremonyWindowClose s = .next t ∧ t.tkb.approval = .none ∧ t.tkb.result = 7)
    ∧ (∀ c k, s.tkb.approval = .reserved c k → LeadsTo .ceremonyWindowClose s
      { s with tkb := { s.tkb with approval := .reserved { c with deadline := 0 } k } })
    ∧ (Takes s → s.tmp.shadowBad = [] → ∀ v, v < 32 →
      let m := max 1 v
      (s.tkb.quorum < m → m ≤ s.tkb.enrolled.length →
        LeadsTo (.tkbQuorumWrite v) s { s with tkb := { s.tkb with quorum := m } })
      ∧ (s.tkb.quorum < m → s.tkb.enrolled.length < m →
        LeadsTo (.tkbQuorumWrite v) s { s with tkb := { s.tkb with result := 4 } })
      ∧ (m < s.tkb.quorum → consumeApproval 11 [byte m] s = none →
        LeadsTo (.tkbQuorumWrite v) s { s with tkb := { s.tkb with result := 5 } })
      ∧ (∀ u, m < s.tkb.quorum → consumeApproval 11 [byte m] s = some u →
        LeadsTo (.tkbQuorumWrite v) s { s with tkb := { s.tkb with approval := .none, quorum := m } })
      ∧ (m = s.tkb.quorum → LeadsTo (.tkbQuorumWrite v) s s))
end

