-- ==== Sys2Proof/Laws/State.lean ====
section
/-! SUPPORT. One lemma per field per named update: what the update leaves alone, and what it writes. -/

namespace Sys2Proof.Machine

@[simp] theorem bump_pending (off n : Nat) (s : State) : (bump off n s).pending = s.pending := rfl
@[simp] theorem bump_otp (off n : Nat) (s : State) : (bump off n s).otp = s.otp := rfl
@[simp] theorem bump_free (off n : Nat) (s : State) : (bump off n s).free = s.free := rfl
@[simp] theorem bump_now (off n : Nat) (s : State) : (bump off n s).now = s.now := rfl
@[simp] theorem bump_order (off n : Nat) (s : State) : (bump off n s).order = s.order := rfl
@[simp] theorem bump_host (off n : Nat) (s : State) : (bump off n s).host = s.host := rfl
@[simp] theorem bump_pcie (off n : Nat) (s : State) : (bump off n s).pcie = s.pcie := rfl
@[simp] theorem bump_ush (off n : Nat) (s : State) : (bump off n s).ush = s.ush := rfl
@[simp] theorem bump_seats (off n : Nat) (s : State) : (bump off n s).seats = s.seats := rfl
@[simp] theorem bump_writer (off n : Nat) (s : State) : (bump off n s).writer = s.writer := rfl
@[simp] theorem bump_ten (off n : Nat) (s : State) : (bump off n s).ten = s.ten := rfl
@[simp] theorem bump_box (off n : Nat) (s : State) : (bump off n s).box = s.box := rfl
@[simp] theorem bump_keys (off n : Nat) (s : State) : (bump off n s).keys = s.keys := rfl
@[simp] theorem bump_dig (off n : Nat) (s : State) : (bump off n s).dig = s.dig := rfl
@[simp] theorem bump_rng (off n : Nat) (s : State) : (bump off n s).rng = s.rng := rfl
@[simp] theorem bump_til (off n : Nat) (s : State) : (bump off n s).til = s.til := rfl
@[simp] theorem bump_scr (off n : Nat) (s : State) : (bump off n s).scr = s.scr := rfl
@[simp] theorem bump_stg (off n : Nat) (s : State) : (bump off n s).stg = s.stg := rfl
@[simp] theorem bump_twn (off n : Nat) (s : State) : (bump off n s).twn = s.twn := rfl
@[simp] theorem bump_tkb (off n : Nat) (s : State) : (bump off n s).tkb = s.tkb := rfl
@[simp] theorem bump_tmp (off n : Nat) (s : State) : (bump off n s).tmp = s.tmp := rfl
@[simp] theorem bump_lcs (off n : Nat) (s : State) : (bump off n s).lcs = s.lcs := rfl
@[simp] theorem bump_evr (off n : Nat) (s : State) : (bump off n s).evr = s.evr := rfl
@[simp] theorem bump_smb (off n : Nat) (s : State) : (bump off n s).smb = s.smb := rfl
@[simp] theorem bump_pwr (off n : Nat) (s : State) : (bump off n s).pwr = s.pwr := rfl

@[simp] theorem emit_pending (e : Emit) (s : State) : (emit e s).pending = s.pending := rfl
@[simp] theorem emit_otp (e : Emit) (s : State) : (emit e s).otp = s.otp := rfl
@[simp] theorem emit_free (e : Emit) (s : State) : (emit e s).free = s.free := rfl
@[simp] theorem emit_now (e : Emit) (s : State) : (emit e s).now = s.now := rfl
@[simp] theorem emit_order (e : Emit) (s : State) : (emit e s).order = s.order := rfl
@[simp] theorem emit_pcie (e : Emit) (s : State) : (emit e s).pcie = s.pcie := rfl
@[simp] theorem emit_ush (e : Emit) (s : State) : (emit e s).ush = s.ush := rfl
@[simp] theorem emit_seats (e : Emit) (s : State) : (emit e s).seats = s.seats := rfl
@[simp] theorem emit_writer (e : Emit) (s : State) : (emit e s).writer = s.writer := rfl
@[simp] theorem emit_ten (e : Emit) (s : State) : (emit e s).ten = s.ten := rfl
@[simp] theorem emit_box (e : Emit) (s : State) : (emit e s).box = s.box := rfl
@[simp] theorem emit_keys (e : Emit) (s : State) : (emit e s).keys = s.keys := rfl
@[simp] theorem emit_dig (e : Emit) (s : State) : (emit e s).dig = s.dig := rfl
@[simp] theorem emit_rng (e : Emit) (s : State) : (emit e s).rng = s.rng := rfl
@[simp] theorem emit_til (e : Emit) (s : State) : (emit e s).til = s.til := rfl
@[simp] theorem emit_scr (e : Emit) (s : State) : (emit e s).scr = s.scr := rfl
@[simp] theorem emit_stg (e : Emit) (s : State) : (emit e s).stg = s.stg := rfl
@[simp] theorem emit_twn (e : Emit) (s : State) : (emit e s).twn = s.twn := rfl
@[simp] theorem emit_tkb (e : Emit) (s : State) : (emit e s).tkb = s.tkb := rfl
@[simp] theorem emit_tmp (e : Emit) (s : State) : (emit e s).tmp = s.tmp := rfl
@[simp] theorem emit_lcs (e : Emit) (s : State) : (emit e s).lcs = s.lcs := rfl
@[simp] theorem emit_evr (e : Emit) (s : State) : (emit e s).evr = s.evr := rfl
@[simp] theorem emit_glb (e : Emit) (s : State) : (emit e s).glb = s.glb := rfl
@[simp] theorem emit_smb (e : Emit) (s : State) : (emit e s).smb = s.smb := rfl
@[simp] theorem emit_pwr (e : Emit) (s : State) : (emit e s).pwr = s.pwr := rfl

@[simp] theorem spend_pending (s : State) : (spend s).pending = s.pending := rfl
@[simp] theorem spend_otp (s : State) : (spend s).otp = s.otp := rfl
@[simp] theorem spend_now (s : State) : (spend s).now = s.now := rfl
@[simp] theorem spend_order (s : State) : (spend s).order = s.order := rfl
@[simp] theorem spend_host (s : State) : (spend s).host = s.host := rfl
@[simp] theorem spend_pcie (s : State) : (spend s).pcie = s.pcie := rfl
@[simp] theorem spend_ush (s : State) : (spend s).ush = s.ush := rfl
@[simp] theorem spend_seats (s : State) : (spend s).seats = s.seats := rfl
@[simp] theorem spend_writer (s : State) : (spend s).writer = s.writer := rfl
@[simp] theorem spend_ten (s : State) : (spend s).ten = s.ten := rfl
@[simp] theorem spend_box (s : State) : (spend s).box = s.box := rfl
@[simp] theorem spend_keys (s : State) : (spend s).keys = s.keys := rfl
@[simp] theorem spend_dig (s : State) : (spend s).dig = s.dig := rfl
@[simp] theorem spend_rng (s : State) : (spend s).rng = s.rng := rfl
@[simp] theorem spend_til (s : State) : (spend s).til = s.til := rfl
@[simp] theorem spend_scr (s : State) : (spend s).scr = s.scr := rfl
@[simp] theorem spend_stg (s : State) : (spend s).stg = s.stg := rfl
@[simp] theorem spend_twn (s : State) : (spend s).twn = s.twn := rfl
@[simp] theorem spend_tkb (s : State) : (spend s).tkb = s.tkb := rfl
@[simp] theorem spend_tmp (s : State) : (spend s).tmp = s.tmp := rfl
@[simp] theorem spend_lcs (s : State) : (spend s).lcs = s.lcs := rfl
@[simp] theorem spend_evr (s : State) : (spend s).evr = s.evr := rfl
@[simp] theorem spend_glb (s : State) : (spend s).glb = s.glb := rfl
@[simp] theorem spend_smb (s : State) : (spend s).smb = s.smb := rfl
@[simp] theorem spend_pwr (s : State) : (spend s).pwr = s.pwr := rfl

@[simp] theorem updTile_pending (i : Nat) (f : Tile → Tile) (s : State) : (updTile i f s).pending = s.pending := rfl
@[simp] theorem updTile_otp (i : Nat) (f : Tile → Tile) (s : State) : (updTile i f s).otp = s.otp := rfl
@[simp] theorem updTile_free (i : Nat) (f : Tile → Tile) (s : State) : (updTile i f s).free = s.free := rfl
@[simp] theorem updTile_now (i : Nat) (f : Tile → Tile) (s : State) : (updTile i f s).now = s.now := rfl
@[simp] theorem updTile_order (i : Nat) (f : Tile → Tile) (s : State) : (updTile i f s).order = s.order := rfl
@[simp] theorem updTile_host (i : Nat) (f : Tile → Tile) (s : State) : (updTile i f s).host = s.host := rfl
@[simp] theorem updTile_pcie (i : Nat) (f : Tile → Tile) (s : State) : (updTile i f s).pcie = s.pcie := rfl
@[simp] theorem updTile_ush (i : Nat) (f : Tile → Tile) (s : State) : (updTile i f s).ush = s.ush := rfl
@[simp] theorem updTile_seats (i : Nat) (f : Tile → Tile) (s : State) : (updTile i f s).seats = s.seats := rfl
@[simp] theorem updTile_writer (i : Nat) (f : Tile → Tile) (s : State) : (updTile i f s).writer = s.writer := rfl
@[simp] theorem updTile_ten (i : Nat) (f : Tile → Tile) (s : State) : (updTile i f s).ten = s.ten := rfl
@[simp] theorem updTile_box (i : Nat) (f : Tile → Tile) (s : State) : (updTile i f s).box = s.box := rfl
@[simp] theorem updTile_keys (i : Nat) (f : Tile → Tile) (s : State) : (updTile i f s).keys = s.keys := rfl
@[simp] theorem updTile_dig (i : Nat) (f : Tile → Tile) (s : State) : (updTile i f s).dig = s.dig := rfl
@[simp] theorem updTile_rng (i : Nat) (f : Tile → Tile) (s : State) : (updTile i f s).rng = s.rng := rfl
@[simp] theorem updTile_scr (i : Nat) (f : Tile → Tile) (s : State) : (updTile i f s).scr = s.scr := rfl
@[simp] theorem updTile_stg (i : Nat) (f : Tile → Tile) (s : State) : (updTile i f s).stg = s.stg := rfl
@[simp] theorem updTile_twn (i : Nat) (f : Tile → Tile) (s : State) : (updTile i f s).twn = s.twn := rfl
@[simp] theorem updTile_tkb (i : Nat) (f : Tile → Tile) (s : State) : (updTile i f s).tkb = s.tkb := rfl
@[simp] theorem updTile_tmp (i : Nat) (f : Tile → Tile) (s : State) : (updTile i f s).tmp = s.tmp := rfl
@[simp] theorem updTile_lcs (i : Nat) (f : Tile → Tile) (s : State) : (updTile i f s).lcs = s.lcs := rfl
@[simp] theorem updTile_evr (i : Nat) (f : Tile → Tile) (s : State) : (updTile i f s).evr = s.evr := rfl
@[simp] theorem updTile_glb (i : Nat) (f : Tile → Tile) (s : State) : (updTile i f s).glb = s.glb := rfl
@[simp] theorem updTile_smb (i : Nat) (f : Tile → Tile) (s : State) : (updTile i f s).smb = s.smb := rfl
@[simp] theorem updTile_pwr (i : Nat) (f : Tile → Tile) (s : State) : (updTile i f s).pwr = s.pwr := rfl

@[simp] theorem updSeat_pending (k : Nat) (f : Seat → Seat) (s : State) : (updSeat k f s).pending = s.pending := rfl
@[simp] theorem updSeat_otp (k : Nat) (f : Seat → Seat) (s : State) : (updSeat k f s).otp = s.otp := rfl
@[simp] theorem updSeat_free (k : Nat) (f : Seat → Seat) (s : State) : (updSeat k f s).free = s.free := rfl
@[simp] theorem updSeat_now (k : Nat) (f : Seat → Seat) (s : State) : (updSeat k f s).now = s.now := rfl
@[simp] theorem updSeat_order (k : Nat) (f : Seat → Seat) (s : State) : (updSeat k f s).order = s.order := rfl
@[simp] theorem updSeat_host (k : Nat) (f : Seat → Seat) (s : State) : (updSeat k f s).host = s.host := rfl
@[simp] theorem updSeat_pcie (k : Nat) (f : Seat → Seat) (s : State) : (updSeat k f s).pcie = s.pcie := rfl
@[simp] theorem updSeat_ush (k : Nat) (f : Seat → Seat) (s : State) : (updSeat k f s).ush = s.ush := rfl
@[simp] theorem updSeat_writer (k : Nat) (f : Seat → Seat) (s : State) : (updSeat k f s).writer = s.writer := rfl
@[simp] theorem updSeat_ten (k : Nat) (f : Seat → Seat) (s : State) : (updSeat k f s).ten = s.ten := rfl
@[simp] theorem updSeat_box (k : Nat) (f : Seat → Seat) (s : State) : (updSeat k f s).box = s.box := rfl
@[simp] theorem updSeat_keys (k : Nat) (f : Seat → Seat) (s : State) : (updSeat k f s).keys = s.keys := rfl
@[simp] theorem updSeat_dig (k : Nat) (f : Seat → Seat) (s : State) : (updSeat k f s).dig = s.dig := rfl
@[simp] theorem updSeat_rng (k : Nat) (f : Seat → Seat) (s : State) : (updSeat k f s).rng = s.rng := rfl
@[simp] theorem updSeat_til (k : Nat) (f : Seat → Seat) (s : State) : (updSeat k f s).til = s.til := rfl
@[simp] theorem updSeat_scr (k : Nat) (f : Seat → Seat) (s : State) : (updSeat k f s).scr = s.scr := rfl
@[simp] theorem updSeat_stg (k : Nat) (f : Seat → Seat) (s : State) : (updSeat k f s).stg = s.stg := rfl
@[simp] theorem updSeat_twn (k : Nat) (f : Seat → Seat) (s : State) : (updSeat k f s).twn = s.twn := rfl
@[simp] theorem updSeat_tkb (k : Nat) (f : Seat → Seat) (s : State) : (updSeat k f s).tkb = s.tkb := rfl
@[simp] theorem updSeat_tmp (k : Nat) (f : Seat → Seat) (s : State) : (updSeat k f s).tmp = s.tmp := rfl
@[simp] theorem updSeat_lcs (k : Nat) (f : Seat → Seat) (s : State) : (updSeat k f s).lcs = s.lcs := rfl
@[simp] theorem updSeat_evr (k : Nat) (f : Seat → Seat) (s : State) : (updSeat k f s).evr = s.evr := rfl
@[simp] theorem updSeat_glb (k : Nat) (f : Seat → Seat) (s : State) : (updSeat k f s).glb = s.glb := rfl
@[simp] theorem updSeat_smb (k : Nat) (f : Seat → Seat) (s : State) : (updSeat k f s).smb = s.smb := rfl
@[simp] theorem updSeat_pwr (k : Nat) (f : Seat → Seat) (s : State) : (updSeat k f s).pwr = s.pwr := rfl

@[simp] theorem updRing_pending (c : Nat) (f : Ring → Ring) (s : State) : (updRing c f s).pending = s.pending := rfl
@[simp] theorem updRing_otp (c : Nat) (f : Ring → Ring) (s : State) : (updRing c f s).otp = s.otp := rfl
@[simp] theorem updRing_free (c : Nat) (f : Ring → Ring) (s : State) : (updRing c f s).free = s.free := rfl
@[simp] theorem updRing_now (c : Nat) (f : Ring → Ring) (s : State) : (updRing c f s).now = s.now := rfl
@[simp] theorem updRing_order (c : Nat) (f : Ring → Ring) (s : State) : (updRing c f s).order = s.order := rfl
@[simp] theorem updRing_host (c : Nat) (f : Ring → Ring) (s : State) : (updRing c f s).host = s.host := rfl
@[simp] theorem updRing_pcie (c : Nat) (f : Ring → Ring) (s : State) : (updRing c f s).pcie = s.pcie := rfl
@[simp] theorem updRing_seats (c : Nat) (f : Ring → Ring) (s : State) : (updRing c f s).seats = s.seats := rfl
@[simp] theorem updRing_writer (c : Nat) (f : Ring → Ring) (s : State) : (updRing c f s).writer = s.writer := rfl
@[simp] theorem updRing_ten (c : Nat) (f : Ring → Ring) (s : State) : (updRing c f s).ten = s.ten := rfl
@[simp] theorem updRing_box (c : Nat) (f : Ring → Ring) (s : State) : (updRing c f s).box = s.box := rfl
@[simp] theorem updRing_keys (c : Nat) (f : Ring → Ring) (s : State) : (updRing c f s).keys = s.keys := rfl
@[simp] theorem updRing_dig (c : Nat) (f : Ring → Ring) (s : State) : (updRing c f s).dig = s.dig := rfl
@[simp] theorem updRing_rng (c : Nat) (f : Ring → Ring) (s : State) : (updRing c f s).rng = s.rng := rfl
@[simp] theorem updRing_til (c : Nat) (f : Ring → Ring) (s : State) : (updRing c f s).til = s.til := rfl
@[simp] theorem updRing_scr (c : Nat) (f : Ring → Ring) (s : State) : (updRing c f s).scr = s.scr := rfl
@[simp] theorem updRing_stg (c : Nat) (f : Ring → Ring) (s : State) : (updRing c f s).stg = s.stg := rfl
@[simp] theorem updRing_twn (c : Nat) (f : Ring → Ring) (s : State) : (updRing c f s).twn = s.twn := rfl
@[simp] theorem updRing_tkb (c : Nat) (f : Ring → Ring) (s : State) : (updRing c f s).tkb = s.tkb := rfl
@[simp] theorem updRing_tmp (c : Nat) (f : Ring → Ring) (s : State) : (updRing c f s).tmp = s.tmp := rfl
@[simp] theorem updRing_lcs (c : Nat) (f : Ring → Ring) (s : State) : (updRing c f s).lcs = s.lcs := rfl
@[simp] theorem updRing_evr (c : Nat) (f : Ring → Ring) (s : State) : (updRing c f s).evr = s.evr := rfl
@[simp] theorem updRing_glb (c : Nat) (f : Ring → Ring) (s : State) : (updRing c f s).glb = s.glb := rfl
@[simp] theorem updRing_smb (c : Nat) (f : Ring → Ring) (s : State) : (updRing c f s).smb = s.smb := rfl
@[simp] theorem updRing_pwr (c : Nat) (f : Ring → Ring) (s : State) : (updRing c f s).pwr = s.pwr := rfl

@[simp] theorem updMon_pending (n : Nat) (f : Mon → Mon) (s : State) : (updMon n f s).pending = s.pending := rfl
@[simp] theorem updMon_otp (n : Nat) (f : Mon → Mon) (s : State) : (updMon n f s).otp = s.otp := rfl
@[simp] theorem updMon_free (n : Nat) (f : Mon → Mon) (s : State) : (updMon n f s).free = s.free := rfl
@[simp] theorem updMon_now (n : Nat) (f : Mon → Mon) (s : State) : (updMon n f s).now = s.now := rfl
@[simp] theorem updMon_order (n : Nat) (f : Mon → Mon) (s : State) : (updMon n f s).order = s.order := rfl
@[simp] theorem updMon_host (n : Nat) (f : Mon → Mon) (s : State) : (updMon n f s).host = s.host := rfl
@[simp] theorem updMon_pcie (n : Nat) (f : Mon → Mon) (s : State) : (updMon n f s).pcie = s.pcie := rfl
@[simp] theorem updMon_ush (n : Nat) (f : Mon → Mon) (s : State) : (updMon n f s).ush = s.ush := rfl
@[simp] theorem updMon_seats (n : Nat) (f : Mon → Mon) (s : State) : (updMon n f s).seats = s.seats := rfl
@[simp] theorem updMon_writer (n : Nat) (f : Mon → Mon) (s : State) : (updMon n f s).writer = s.writer := rfl
@[simp] theorem updMon_ten (n : Nat) (f : Mon → Mon) (s : State) : (updMon n f s).ten = s.ten := rfl
@[simp] theorem updMon_box (n : Nat) (f : Mon → Mon) (s : State) : (updMon n f s).box = s.box := rfl
@[simp] theorem updMon_keys (n : Nat) (f : Mon → Mon) (s : State) : (updMon n f s).keys = s.keys := rfl
@[simp] theorem updMon_dig (n : Nat) (f : Mon → Mon) (s : State) : (updMon n f s).dig = s.dig := rfl
@[simp] theorem updMon_rng (n : Nat) (f : Mon → Mon) (s : State) : (updMon n f s).rng = s.rng := rfl
@[simp] theorem updMon_til (n : Nat) (f : Mon → Mon) (s : State) : (updMon n f s).til = s.til := rfl
@[simp] theorem updMon_scr (n : Nat) (f : Mon → Mon) (s : State) : (updMon n f s).scr = s.scr := rfl
@[simp] theorem updMon_stg (n : Nat) (f : Mon → Mon) (s : State) : (updMon n f s).stg = s.stg := rfl
@[simp] theorem updMon_twn (n : Nat) (f : Mon → Mon) (s : State) : (updMon n f s).twn = s.twn := rfl
@[simp] theorem updMon_tkb (n : Nat) (f : Mon → Mon) (s : State) : (updMon n f s).tkb = s.tkb := rfl
@[simp] theorem updMon_lcs (n : Nat) (f : Mon → Mon) (s : State) : (updMon n f s).lcs = s.lcs := rfl
@[simp] theorem updMon_evr (n : Nat) (f : Mon → Mon) (s : State) : (updMon n f s).evr = s.evr := rfl
@[simp] theorem updMon_glb (n : Nat) (f : Mon → Mon) (s : State) : (updMon n f s).glb = s.glb := rfl
@[simp] theorem updMon_smb (n : Nat) (f : Mon → Mon) (s : State) : (updMon n f s).smb = s.smb := rfl
@[simp] theorem updMon_pwr (n : Nat) (f : Mon → Mon) (s : State) : (updMon n f s).pwr = s.pwr := rfl

@[simp] theorem trouble_pending (b : Nat) (s : State) : (trouble b s).pending = s.pending := rfl
@[simp] theorem trouble_otp (b : Nat) (s : State) : (trouble b s).otp = s.otp := rfl
@[simp] theorem trouble_free (b : Nat) (s : State) : (trouble b s).free = s.free := rfl
@[simp] theorem trouble_now (b : Nat) (s : State) : (trouble b s).now = s.now := rfl
@[simp] theorem trouble_order (b : Nat) (s : State) : (trouble b s).order = s.order := rfl
@[simp] theorem trouble_host (b : Nat) (s : State) : (trouble b s).host = s.host := rfl
@[simp] theorem trouble_pcie (b : Nat) (s : State) : (trouble b s).pcie = s.pcie := rfl
@[simp] theorem trouble_ush (b : Nat) (s : State) : (trouble b s).ush = s.ush := rfl
@[simp] theorem trouble_seats (b : Nat) (s : State) : (trouble b s).seats = s.seats := rfl
@[simp] theorem trouble_writer (b : Nat) (s : State) : (trouble b s).writer = s.writer := rfl
@[simp] theorem trouble_ten (b : Nat) (s : State) : (trouble b s).ten = s.ten := rfl
@[simp] theorem trouble_box (b : Nat) (s : State) : (trouble b s).box = s.box := rfl
@[simp] theorem trouble_keys (b : Nat) (s : State) : (trouble b s).keys = s.keys := rfl
@[simp] theorem trouble_dig (b : Nat) (s : State) : (trouble b s).dig = s.dig := rfl
@[simp] theorem trouble_rng (b : Nat) (s : State) : (trouble b s).rng = s.rng := rfl
@[simp] theorem trouble_til (b : Nat) (s : State) : (trouble b s).til = s.til := rfl
@[simp] theorem trouble_scr (b : Nat) (s : State) : (trouble b s).scr = s.scr := rfl
@[simp] theorem trouble_stg (b : Nat) (s : State) : (trouble b s).stg = s.stg := rfl
@[simp] theorem trouble_twn (b : Nat) (s : State) : (trouble b s).twn = s.twn := rfl
@[simp] theorem trouble_tkb (b : Nat) (s : State) : (trouble b s).tkb = s.tkb := rfl
@[simp] theorem trouble_tmp (b : Nat) (s : State) : (trouble b s).tmp = s.tmp := rfl
@[simp] theorem trouble_lcs (b : Nat) (s : State) : (trouble b s).lcs = s.lcs := rfl
@[simp] theorem trouble_evr (b : Nat) (s : State) : (trouble b s).evr = s.evr := rfl
@[simp] theorem trouble_smb (b : Nat) (s : State) : (trouble b s).smb = s.smb := rfl
@[simp] theorem trouble_pwr (b : Nat) (s : State) : (trouble b s).pwr = s.pwr := rfl

@[simp] theorem handOver_pending (i : Item) (s : State) : (handOver i s).pending = s.pending := rfl
@[simp] theorem handOver_otp (i : Item) (s : State) : (handOver i s).otp = s.otp := rfl
@[simp] theorem handOver_free (i : Item) (s : State) : (handOver i s).free = s.free := rfl
@[simp] theorem handOver_now (i : Item) (s : State) : (handOver i s).now = s.now := rfl
@[simp] theorem handOver_order (i : Item) (s : State) : (handOver i s).order = s.order := rfl
@[simp] theorem handOver_host (i : Item) (s : State) : (handOver i s).host = s.host := rfl
@[simp] theorem handOver_pcie (i : Item) (s : State) : (handOver i s).pcie = s.pcie := rfl
@[simp] theorem handOver_ush (i : Item) (s : State) : (handOver i s).ush = s.ush := rfl
@[simp] theorem handOver_seats (i : Item) (s : State) : (handOver i s).seats = s.seats := rfl
@[simp] theorem handOver_ten (i : Item) (s : State) : (handOver i s).ten = s.ten := rfl
@[simp] theorem handOver_box (i : Item) (s : State) : (handOver i s).box = s.box := rfl
@[simp] theorem handOver_keys (i : Item) (s : State) : (handOver i s).keys = s.keys := rfl
@[simp] theorem handOver_dig (i : Item) (s : State) : (handOver i s).dig = s.dig := rfl
@[simp] theorem handOver_rng (i : Item) (s : State) : (handOver i s).rng = s.rng := rfl
@[simp] theorem handOver_til (i : Item) (s : State) : (handOver i s).til = s.til := rfl
@[simp] theorem handOver_scr (i : Item) (s : State) : (handOver i s).scr = s.scr := rfl
@[simp] theorem handOver_stg (i : Item) (s : State) : (handOver i s).stg = s.stg := rfl
@[simp] theorem handOver_twn (i : Item) (s : State) : (handOver i s).twn = s.twn := rfl
@[simp] theorem handOver_tkb (i : Item) (s : State) : (handOver i s).tkb = s.tkb := rfl
@[simp] theorem handOver_tmp (i : Item) (s : State) : (handOver i s).tmp = s.tmp := rfl
@[simp] theorem handOver_lcs (i : Item) (s : State) : (handOver i s).lcs = s.lcs := rfl
@[simp] theorem handOver_evr (i : Item) (s : State) : (handOver i s).evr = s.evr := rfl
@[simp] theorem handOver_glb (i : Item) (s : State) : (handOver i s).glb = s.glb := rfl
@[simp] theorem handOver_smb (i : Item) (s : State) : (handOver i s).smb = s.smb := rfl
@[simp] theorem handOver_pwr (i : Item) (s : State) : (handOver i s).pwr = s.pwr := rfl

@[simp] theorem emit_host (e : Emit) (s : State) : (emit e s).host = s.host ++ [e] := rfl
@[simp] theorem spend_free (s : State) : (spend s).free = s.free + 1 := rfl
@[simp] theorem updSeat_seats (k : Nat) (f : Seat → Seat) (s : State) : (updSeat k f s).seats = s.seats.upd k f := rfl
@[simp] theorem updRing_rings (c : Nat) (f : Ring → Ring) (s : State) : (updRing c f s).ush.rings = s.ush.rings.upd c f := rfl
@[simp] theorem updTile_tiles (i : Nat) (f : Tile → Tile) (s : State) :
    (updTile i f s).til.tiles = updAt s.til.tiles i f := rfl
@[simp] theorem updMon_mons (n : Nat) (f : Mon → Mon) (s : State) : (updMon n f s).tmp.mons = updAt s.tmp.mons n f := rfl
@[simp] theorem handOver_writer (i : Item) (s : State) : (handOver i s).writer = s.writer ++ [i] := rfl
@[simp] theorem bump_trouble (off n : Nat) (s : State) : (bump off n s).glb.trouble = s.glb.trouble := rfl
@[simp] theorem bump_counters (off n : Nat) (s : State) :
    (bump off n s).glb.counters = s.glb.counters.put off (s.glb.counters.getD off 0 + n) := rfl
@[simp] theorem trouble_counters (b : Nat) (s : State) : (trouble b s).glb.counters = s.glb.counters := rfl

@[simp] theorem updMail_pending (i : Nat) (f : Mailbox → Mailbox) (s : State) : (updMail i f s).pending = s.pending := rfl
@[simp] theorem updMail_otp (i : Nat) (f : Mailbox → Mailbox) (s : State) : (updMail i f s).otp = s.otp := rfl
@[simp] theorem updMail_free (i : Nat) (f : Mailbox → Mailbox) (s : State) : (updMail i f s).free = s.free := rfl
@[simp] theorem updMail_now (i : Nat) (f : Mailbox → Mailbox) (s : State) : (updMail i f s).now = s.now := rfl
@[simp] theorem updMail_order (i : Nat) (f : Mailbox → Mailbox) (s : State) : (updMail i f s).order = s.order := rfl
@[simp] theorem updMail_host (i : Nat) (f : Mailbox → Mailbox) (s : State) : (updMail i f s).host = s.host := rfl
@[simp] theorem updMail_pcie (i : Nat) (f : Mailbox → Mailbox) (s : State) : (updMail i f s).pcie = s.pcie := rfl
@[simp] theorem updMail_ush (i : Nat) (f : Mailbox → Mailbox) (s : State) : (updMail i f s).ush = s.ush := rfl
@[simp] theorem updMail_seats (i : Nat) (f : Mailbox → Mailbox) (s : State) : (updMail i f s).seats = s.seats := rfl
@[simp] theorem updMail_writer (i : Nat) (f : Mailbox → Mailbox) (s : State) : (updMail i f s).writer = s.writer := rfl
@[simp] theorem updMail_ten (i : Nat) (f : Mailbox → Mailbox) (s : State) : (updMail i f s).ten = 
    { s.ten with mail := s.ten.mail.put i (f (mailOf s i)) } := rfl
@[simp] theorem updMail_box (i : Nat) (f : Mailbox → Mailbox) (s : State) : (updMail i f s).box = s.box := rfl
@[simp] theorem updMail_keys (i : Nat) (f : Mailbox → Mailbox) (s : State) : (updMail i f s).keys = s.keys := rfl
@[simp] theorem updMail_dig (i : Nat) (f : Mailbox → Mailbox) (s : State) : (updMail i f s).dig = s.dig := rfl
@[simp] theorem updMail_rng (i : Nat) (f : Mailbox → Mailbox) (s : State) : (updMail i f s).rng = s.rng := rfl
@[simp] theorem updMail_til (i : Nat) (f : Mailbox → Mailbox) (s : State) : (updMail i f s).til = s.til := rfl
@[simp] theorem updMail_scr (i : Nat) (f : Mailbox → Mailbox) (s : State) : (updMail i f s).scr = s.scr := rfl
@[simp] theorem updMail_stg (i : Nat) (f : Mailbox → Mailbox) (s : State) : (updMail i f s).stg = s.stg := rfl
@[simp] theorem updMail_twn (i : Nat) (f : Mailbox → Mailbox) (s : State) : (updMail i f s).twn = s.twn := rfl
@[simp] theorem updMail_tkb (i : Nat) (f : Mailbox → Mailbox) (s : State) : (updMail i f s).tkb = s.tkb := rfl
@[simp] theorem updMail_tmp (i : Nat) (f : Mailbox → Mailbox) (s : State) : (updMail i f s).tmp = s.tmp := rfl
@[simp] theorem updMail_lcs (i : Nat) (f : Mailbox → Mailbox) (s : State) : (updMail i f s).lcs = s.lcs := rfl
@[simp] theorem updMail_evr (i : Nat) (f : Mailbox → Mailbox) (s : State) : (updMail i f s).evr = s.evr := rfl
@[simp] theorem updMail_glb (i : Nat) (f : Mailbox → Mailbox) (s : State) : (updMail i f s).glb = s.glb := rfl
@[simp] theorem updMail_smb (i : Nat) (f : Mailbox → Mailbox) (s : State) : (updMail i f s).smb = s.smb := rfl
@[simp] theorem updMail_pwr (i : Nat) (f : Mailbox → Mailbox) (s : State) : (updMail i f s).pwr = s.pwr := rfl

@[simp] theorem updSource_pending (i : Nat) (f : Source → Source) (s : State) : (updSource i f s).pending = s.pending := rfl
@[simp] theorem updSource_otp (i : Nat) (f : Source → Source) (s : State) : (updSource i f s).otp = s.otp := rfl
@[simp] theorem updSource_free (i : Nat) (f : Source → Source) (s : State) : (updSource i f s).free = s.free := rfl
@[simp] theorem updSource_now (i : Nat) (f : Source → Source) (s : State) : (updSource i f s).now = s.now := rfl
@[simp] theorem updSource_order (i : Nat) (f : Source → Source) (s : State) : (updSource i f s).order = s.order := rfl
@[simp] theorem updSource_host (i : Nat) (f : Source → Source) (s : State) : (updSource i f s).host = s.host := rfl
@[simp] theorem updSource_pcie (i : Nat) (f : Source → Source) (s : State) : (updSource i f s).pcie = s.pcie := rfl
@[simp] theorem updSource_ush (i : Nat) (f : Source → Source) (s : State) : (updSource i f s).ush = s.ush := rfl
@[simp] theorem updSource_seats (i : Nat) (f : Source → Source) (s : State) : (updSource i f s).seats = s.seats := rfl
@[simp] theorem updSource_writer (i : Nat) (f : Source → Source) (s : State) : (updSource i f s).writer = s.writer := rfl
@[simp] theorem updSource_ten (i : Nat) (f : Source → Source) (s : State) : (updSource i f s).ten = s.ten := rfl
@[simp] theorem updSource_box (i : Nat) (f : Source → Source) (s : State) : (updSource i f s).box = s.box := rfl
@[simp] theorem updSource_keys (i : Nat) (f : Source → Source) (s : State) : (updSource i f s).keys = s.keys := rfl
@[simp] theorem updSource_dig (i : Nat) (f : Source → Source) (s : State) : (updSource i f s).dig = s.dig := rfl
@[simp] theorem updSource_rng (i : Nat) (f : Source → Source) (s : State) : (updSource i f s).rng = 
    { s.rng with srcs := updAt s.rng.srcs i f } := rfl
@[simp] theorem updSource_til (i : Nat) (f : Source → Source) (s : State) : (updSource i f s).til = s.til := rfl
@[simp] theorem updSource_scr (i : Nat) (f : Source → Source) (s : State) : (updSource i f s).scr = s.scr := rfl
@[simp] theorem updSource_stg (i : Nat) (f : Source → Source) (s : State) : (updSource i f s).stg = s.stg := rfl
@[simp] theorem updSource_twn (i : Nat) (f : Source → Source) (s : State) : (updSource i f s).twn = s.twn := rfl
@[simp] theorem updSource_tkb (i : Nat) (f : Source → Source) (s : State) : (updSource i f s).tkb = s.tkb := rfl
@[simp] theorem updSource_tmp (i : Nat) (f : Source → Source) (s : State) : (updSource i f s).tmp = s.tmp := rfl
@[simp] theorem updSource_lcs (i : Nat) (f : Source → Source) (s : State) : (updSource i f s).lcs = s.lcs := rfl
@[simp] theorem updSource_evr (i : Nat) (f : Source → Source) (s : State) : (updSource i f s).evr = s.evr := rfl
@[simp] theorem updSource_glb (i : Nat) (f : Source → Source) (s : State) : (updSource i f s).glb = s.glb := rfl
@[simp] theorem updSource_smb (i : Nat) (f : Source → Source) (s : State) : (updSource i f s).smb = s.smb := rfl
@[simp] theorem updSource_pwr (i : Nat) (f : Source → Source) (s : State) : (updSource i f s).pwr = s.pwr := rfl

@[simp] theorem updInst_pending (i : Nat) (f : Drbg → Drbg) (s : State) : (updInst i f s).pending = s.pending := rfl
@[simp] theorem updInst_otp (i : Nat) (f : Drbg → Drbg) (s : State) : (updInst i f s).otp = s.otp := rfl
@[simp] theorem updInst_free (i : Nat) (f : Drbg → Drbg) (s : State) : (updInst i f s).free = s.free := rfl
@[simp] theorem updInst_now (i : Nat) (f : Drbg → Drbg) (s : State) : (updInst i f s).now = s.now := rfl
@[simp] theorem updInst_order (i : Nat) (f : Drbg → Drbg) (s : State) : (updInst i f s).order = s.order := rfl
@[simp] theorem updInst_host (i : Nat) (f : Drbg → Drbg) (s : State) : (updInst i f s).host = s.host := rfl
@[simp] theorem updInst_pcie (i : Nat) (f : Drbg → Drbg) (s : State) : (updInst i f s).pcie = s.pcie := rfl
@[simp] theorem updInst_ush (i : Nat) (f : Drbg → Drbg) (s : State) : (updInst i f s).ush = s.ush := rfl
@[simp] theorem updInst_seats (i : Nat) (f : Drbg → Drbg) (s : State) : (updInst i f s).seats = s.seats := rfl
@[simp] theorem updInst_writer (i : Nat) (f : Drbg → Drbg) (s : State) : (updInst i f s).writer = s.writer := rfl
@[simp] theorem updInst_ten (i : Nat) (f : Drbg → Drbg) (s : State) : (updInst i f s).ten = s.ten := rfl
@[simp] theorem updInst_box (i : Nat) (f : Drbg → Drbg) (s : State) : (updInst i f s).box = s.box := rfl
@[simp] theorem updInst_keys (i : Nat) (f : Drbg → Drbg) (s : State) : (updInst i f s).keys = s.keys := rfl
@[simp] theorem updInst_dig (i : Nat) (f : Drbg → Drbg) (s : State) : (updInst i f s).dig = s.dig := rfl
@[simp] theorem updInst_rng (i : Nat) (f : Drbg → Drbg) (s : State) : (updInst i f s).rng = 
    { s.rng with insts := updAt s.rng.insts i f } := rfl
@[simp] theorem updInst_til (i : Nat) (f : Drbg → Drbg) (s : State) : (updInst i f s).til = s.til := rfl
@[simp] theorem updInst_scr (i : Nat) (f : Drbg → Drbg) (s : State) : (updInst i f s).scr = s.scr := rfl
@[simp] theorem updInst_stg (i : Nat) (f : Drbg → Drbg) (s : State) : (updInst i f s).stg = s.stg := rfl
@[simp] theorem updInst_twn (i : Nat) (f : Drbg → Drbg) (s : State) : (updInst i f s).twn = s.twn := rfl
@[simp] theorem updInst_tkb (i : Nat) (f : Drbg → Drbg) (s : State) : (updInst i f s).tkb = s.tkb := rfl
@[simp] theorem updInst_tmp (i : Nat) (f : Drbg → Drbg) (s : State) : (updInst i f s).tmp = s.tmp := rfl
@[simp] theorem updInst_lcs (i : Nat) (f : Drbg → Drbg) (s : State) : (updInst i f s).lcs = s.lcs := rfl
@[simp] theorem updInst_evr (i : Nat) (f : Drbg → Drbg) (s : State) : (updInst i f s).evr = s.evr := rfl
@[simp] theorem updInst_glb (i : Nat) (f : Drbg → Drbg) (s : State) : (updInst i f s).glb = s.glb := rfl
@[simp] theorem updInst_smb (i : Nat) (f : Drbg → Drbg) (s : State) : (updInst i f s).smb = s.smb := rfl
@[simp] theorem updInst_pwr (i : Nat) (f : Drbg → Drbg) (s : State) : (updInst i f s).pwr = s.pwr := rfl

@[simp] theorem updIde_pending (i : Nat) (f : Ide → Ide) (s : State) : (updIde i f s).pending = s.pending := rfl
@[simp] theorem updIde_otp (i : Nat) (f : Ide → Ide) (s : State) : (updIde i f s).otp = s.otp := rfl
@[simp] theorem updIde_free (i : Nat) (f : Ide → Ide) (s : State) : (updIde i f s).free = s.free := rfl
@[simp] theorem updIde_now (i : Nat) (f : Ide → Ide) (s : State) : (updIde i f s).now = s.now := rfl
@[simp] theorem updIde_order (i : Nat) (f : Ide → Ide) (s : State) : (updIde i f s).order = s.order := rfl
@[simp] theorem updIde_host (i : Nat) (f : Ide → Ide) (s : State) : (updIde i f s).host = s.host := rfl
@[simp] theorem updIde_pcie (i : Nat) (f : Ide → Ide) (s : State) : (updIde i f s).pcie = 
    { s.pcie with ide := updAt s.pcie.ide i f } := rfl
@[simp] theorem updIde_ush (i : Nat) (f : Ide → Ide) (s : State) : (updIde i f s).ush = s.ush := rfl
@[simp] theorem updIde_seats (i : Nat) (f : Ide → Ide) (s : State) : (updIde i f s).seats = s.seats := rfl
@[simp] theorem updIde_writer (i : Nat) (f : Ide → Ide) (s : State) : (updIde i f s).writer = s.writer := rfl
@[simp] theorem updIde_ten (i : Nat) (f : Ide → Ide) (s : State) : (updIde i f s).ten = s.ten := rfl
@[simp] theorem updIde_box (i : Nat) (f : Ide → Ide) (s : State) : (updIde i f s).box = s.box := rfl
@[simp] theorem updIde_keys (i : Nat) (f : Ide → Ide) (s : State) : (updIde i f s).keys = s.keys := rfl
@[simp] theorem updIde_dig (i : Nat) (f : Ide → Ide) (s : State) : (updIde i f s).dig = s.dig := rfl
@[simp] theorem updIde_rng (i : Nat) (f : Ide → Ide) (s : State) : (updIde i f s).rng = s.rng := rfl
@[simp] theorem updIde_til (i : Nat) (f : Ide → Ide) (s : State) : (updIde i f s).til = s.til := rfl
@[simp] theorem updIde_scr (i : Nat) (f : Ide → Ide) (s : State) : (updIde i f s).scr = s.scr := rfl
@[simp] theorem updIde_stg (i : Nat) (f : Ide → Ide) (s : State) : (updIde i f s).stg = s.stg := rfl
@[simp] theorem updIde_twn (i : Nat) (f : Ide → Ide) (s : State) : (updIde i f s).twn = s.twn := rfl
@[simp] theorem updIde_tkb (i : Nat) (f : Ide → Ide) (s : State) : (updIde i f s).tkb = s.tkb := rfl
@[simp] theorem updIde_tmp (i : Nat) (f : Ide → Ide) (s : State) : (updIde i f s).tmp = s.tmp := rfl
@[simp] theorem updIde_lcs (i : Nat) (f : Ide → Ide) (s : State) : (updIde i f s).lcs = s.lcs := rfl
@[simp] theorem updIde_evr (i : Nat) (f : Ide → Ide) (s : State) : (updIde i f s).evr = s.evr := rfl
@[simp] theorem updIde_glb (i : Nat) (f : Ide → Ide) (s : State) : (updIde i f s).glb = s.glb := rfl
@[simp] theorem updIde_smb (i : Nat) (f : Ide → Ide) (s : State) : (updIde i f s).smb = s.smb := rfl
@[simp] theorem updIde_pwr (i : Nat) (f : Ide → Ide) (s : State) : (updIde i f s).pwr = s.pwr := rfl

@[simp] theorem updTok_pending (i : Nat) (f : TokSlot → TokSlot) (s : State) : (updTok i f s).pending = s.pending := rfl
@[simp] theorem updTok_otp (i : Nat) (f : TokSlot → TokSlot) (s : State) : (updTok i f s).otp = s.otp := rfl
@[simp] theorem updTok_free (i : Nat) (f : TokSlot → TokSlot) (s : State) : (updTok i f s).free = s.free := rfl
@[simp] theorem updTok_now (i : Nat) (f : TokSlot → TokSlot) (s : State) : (updTok i f s).now = s.now := rfl
@[simp] theorem updTok_order (i : Nat) (f : TokSlot → TokSlot) (s : State) : (updTok i f s).order = s.order := rfl
@[simp] theorem updTok_host (i : Nat) (f : TokSlot → TokSlot) (s : State) : (updTok i f s).host = s.host := rfl
@[simp] theorem updTok_pcie (i : Nat) (f : TokSlot → TokSlot) (s : State) : (updTok i f s).pcie = s.pcie := rfl
@[simp] theorem updTok_ush (i : Nat) (f : TokSlot → TokSlot) (s : State) : (updTok i f s).ush = s.ush := rfl
@[simp] theorem updTok_seats (i : Nat) (f : TokSlot → TokSlot) (s : State) : (updTok i f s).seats = s.seats := rfl
@[simp] theorem updTok_writer (i : Nat) (f : TokSlot → TokSlot) (s : State) : (updTok i f s).writer = s.writer := rfl
@[simp] theorem updTok_ten (i : Nat) (f : TokSlot → TokSlot) (s : State) : (updTok i f s).ten = s.ten := rfl
@[simp] theorem updTok_box (i : Nat) (f : TokSlot → TokSlot) (s : State) : (updTok i f s).box = s.box := rfl
@[simp] theorem updTok_keys (i : Nat) (f : TokSlot → TokSlot) (s : State) : (updTok i f s).keys = s.keys := rfl
@[simp] theorem updTok_dig (i : Nat) (f : TokSlot → TokSlot) (s : State) : (updTok i f s).dig = s.dig := rfl
@[simp] theorem updTok_rng (i : Nat) (f : TokSlot → TokSlot) (s : State) : (updTok i f s).rng = s.rng := rfl
@[simp] theorem updTok_til (i : Nat) (f : TokSlot → TokSlot) (s : State) : (updTok i f s).til = s.til := rfl
@[simp] theorem updTok_scr (i : Nat) (f : TokSlot → TokSlot) (s : State) : (updTok i f s).scr = s.scr := rfl
@[simp] theorem updTok_stg (i : Nat) (f : TokSlot → TokSlot) (s : State) : (updTok i f s).stg = s.stg := rfl
@[simp] theorem updTok_twn (i : Nat) (f : TokSlot → TokSlot) (s : State) : (updTok i f s).twn = s.twn := rfl
@[simp] theorem updTok_tkb (i : Nat) (f : TokSlot → TokSlot) (s : State) : (updTok i f s).tkb = 
    { s.tkb with slots := updAt s.tkb.slots i f } := rfl
@[simp] theorem updTok_tmp (i : Nat) (f : TokSlot → TokSlot) (s : State) : (updTok i f s).tmp = s.tmp := rfl
@[simp] theorem updTok_lcs (i : Nat) (f : TokSlot → TokSlot) (s : State) : (updTok i f s).lcs = s.lcs := rfl
@[simp] theorem updTok_evr (i : Nat) (f : TokSlot → TokSlot) (s : State) : (updTok i f s).evr = s.evr := rfl
@[simp] theorem updTok_glb (i : Nat) (f : TokSlot → TokSlot) (s : State) : (updTok i f s).glb = s.glb := rfl
@[simp] theorem updTok_smb (i : Nat) (f : TokSlot → TokSlot) (s : State) : (updTok i f s).smb = s.smb := rfl
@[simp] theorem updTok_pwr (i : Nat) (f : TokSlot → TokSlot) (s : State) : (updTok i f s).pwr = s.pwr := rfl

end Sys2Proof.Machine
end

