-- ==== Sys2Proof/Laws/Run.lean ====
section
/-! SUPPORT. What the end of every command may do: it touches the views only. -/

namespace Sys2Proof.Machine

theorem onlyViews_refl (s : State) : OnlyViews s s := rfl

theorem onlyViews_trans {s t u : State} (h : OnlyViews s t) (g : OnlyViews t u) : OnlyViews s u := by
  unfold OnlyViews at *
  rw [g, h]

theorem emit_views (e : Emit) (s : State) : OnlyViews s (emit e s) := rfl

theorem trouble_views (b : Nat) (s : State) : OnlyViews s (trouble b s) := rfl

theorem signal_views (f v : Nat) (s : State) : OnlyViews s (signal f v s) := by
  unfold signal
  split <;> rfl

theorem raise_views (src : Nat) (s : State) : OnlyViews s (raise src s) := by
  unfold raise
  dsimp only
  split
  · rfl
  · split
    · exact onlyViews_trans (t := { s with glb := { s.glb with evtPend := _ } }) rfl (signal_views _ _ _)
    · rfl

theorem raiseIf_views (b : Bool) (src : Nat) (s : State) : OnlyViews s (raiseIf b src s) := by
  unfold raiseIf
  split
  · exact raise_views _ _
  · rfl

theorem settleVf_views (b : State) (f : Nat) (s : State) : OnlyViews s (settleVf b f s) := by
  unfold settleVf
  dsimp only
  split
  · refine onlyViews_trans ?_ (raiseIf_views _ _ _)
    split
    · rfl
    · exact signal_views _ _ _
  · rfl

theorem settleSmb_views (b s : State) : OnlyViews s (settleSmb b s) := by
  unfold settleSmb
  dsimp only
  split <;> rfl

theorem foldl_views {α : Type} (f : State → α → State) (h : ∀ s a, OnlyViews s (f s a)) (l : List α) (s : State) :
    OnlyViews s (l.foldl f s) := by
  induction l generalizing s with
  | nil => rfl
  | cons a l ih => exact onlyViews_trans (h s a) (ih _)

/-- Whatever a command did, its end touches the views only. -/
theorem settle_views (b s : State) : OnlyViews s (settle b s) := by
  unfold settle
  dsimp only
  refine onlyViews_trans ?_ (settleSmb_views _ _)
  refine onlyViews_trans ?_ (foldl_views _ (fun t i => settleVf_views b (i + 1) t) _ _)
  refine onlyViews_trans ?_ (raiseIf_views _ _ _)
  refine onlyViews_trans ?_ (raiseIf_views _ _ _)
  refine onlyViews_trans ?_ (raiseIf_views _ _ _)
  refine onlyViews_trans ?_ (raiseIf_views _ _ _)
  refine onlyViews_trans ?_ (raiseIf_views _ _ _)
  refine onlyViews_trans ?_ (raiseIf_views _ _ _)
  refine onlyViews_trans ?_ (raiseIf_views _ _ _)
  refine onlyViews_trans ?_ (raiseIf_views _ _ _)
  refine onlyViews_trans ?_ (raiseIf_views _ _ _)
  refine onlyViews_trans ?_ (raiseIf_views _ _ _)
  refine onlyViews_trans ?_ (raiseIf_views _ _ _)
  refine onlyViews_trans ?_ (raiseIf_views _ _ _)
  rfl

/-- What `run` can do: it always answers a next state, which is `f s` but for the views, with the queue and the fuses of
`s`. -/
theorem run_leads (f : State → State) (s : State) :
    ∃ t, run f s = .next t ∧ OnlyViews { f s with pending := s.pending, otp := s.otp } t := by
  refine ⟨_, rfl, ?_⟩
  have h := settle_views s (f s)
  unfold OnlyViews at *
  conv_lhs => rw [h]

theorem runOtp_leads (g : State → Otp) (f : State → State) (s : State) :
    ∃ t, runOtp g f s = .next t ∧ OnlyViews { f { s with otp := g s } with pending := s.pending, otp := g s } t := by
  refine ⟨_, rfl, ?_⟩
  have h := settle_views s (f { s with otp := g s })
  unfold OnlyViews at *
  conv_lhs => rw [h]

/-- A command whose meaning is `run f` leads where `f` does. -/
theorem leadsTo_of_run {i : Instr} {f : State → State} {s u : State} (h : exec i s = run f s) (hu : f s = u)
    (hp : u.pending = s.pending) (ho : u.otp = s.otp) : LeadsTo i s u := by
  obtain ⟨t, ht, hv⟩ := run_leads f s
  refine ⟨t, h.trans ht, ?_⟩
  rw [hu] at hv
  have : ({ u with pending := s.pending, otp := s.otp } : State) = u := by rw [← hp, ← ho]
  rwa [this] at hv

theorem run_pending {f : State → State} {s t : State} (h : run f s = .next t) : t.pending = s.pending := by
  cases h; rfl

theorem run_otp {f : State → State} {s t : State} (h : run f s = .next t) : t.otp = s.otp := by
  cases h; rfl

theorem runOtp_pending {g : State → Otp} {f : State → State} {s t : State} (h : runOtp g f s = .next t) :
    t.pending = s.pending := by
  cases h; rfl

theorem runOtp_otp {g : State → Otp} {f : State → State} {s t : State} (h : runOtp g f s = .next t) : t.otp = g s := by
  cases h; rfl

/-- The parts of a state that no view touches. -/
theorem onlyViews_parts {u t : State} (h : OnlyViews u t) :
    t.seats = u.seats ∧ t.writer = u.writer ∧ t.ush = u.ush ∧ t.keys = u.keys ∧ t.tmp = u.tmp ∧ t.evr = u.evr
      ∧ t.glb.counters = u.glb.counters := by
  unfold OnlyViews at h
  refine ⟨?_, ?_, ?_, ?_, ?_, ?_, ?_⟩ <;> rw [h]

end Sys2Proof.Machine
end

