-- ==== Sys2Proof/Laws/Tables.lean ====
section
/-! SUPPORT. What the tables and the byte memories do: a read after a write, and the canonical form. -/

namespace Sys2Proof

variable {α : Type}

@[simp] theorem Tab.get?_nil (k : Nat) : Tab.get? ([] : Tab α) k = none := rfl

theorem Tab.get?_put (t : Tab α) (k j : Nat) (a : α) : (t.put k a).get? j = if k = j then some a else t.get? j := by
  induction t with
  | nil => simp [Tab.put, Tab.get?]
  | cons r t ih =>
    obtain ⟨i, b⟩ := r
    by_cases h1 : k < i
    · simp [Tab.put, h1, Tab.get?]
    · by_cases h2 : k = i
      · subst h2
        simp only [Tab.put, lt_irrefl, if_false, if_true, Tab.get?]
        split <;> rfl
      · simp only [Tab.put, h1, h2, if_false, Tab.get?, ih]
        by_cases h3 : i = j
        · subst h3; simp [h2]
        · simp [h3]

@[simp] theorem Tab.get?_put_same (t : Tab α) (k : Nat) (a : α) : (t.put k a).get? k = some a := by
  rw [Tab.get?_put]; simp

theorem Tab.get?_put_other (t : Tab α) {k j : Nat} (a : α) (h : k ≠ j) : (t.put k a).get? j = t.get? j := by
  rw [Tab.get?_put]; simp [h]

theorem Tab.get?_del (t : Tab α) (k j : Nat) : (t.del k).get? j = if k = j then none else t.get? j := by
  induction t with
  | nil => simp [Tab.del, Tab.get?]
  | cons r t ih =>
    obtain ⟨i, b⟩ := r
    simp only [Tab.del, List.filter_cons] at *
    by_cases h1 : i = k
    · subst h1
      simp only [bne_self_eq_false, Bool.false_eq_true, if_false, ih, Tab.get?]
      split <;> simp_all
    · simp only [bne_iff_ne, ne_eq, h1, not_false_eq_true, if_true, Tab.get?, ih]
      by_cases h3 : i = j
      · subst h3; simp [Ne.symm h1]
      · simp [h3]

theorem Tab.upd_of_some {t : Tab α} {k : Nat} {a : α} (f : α → α) (h : t.get? k = some a) : t.upd k f = t.put k (f a) := by
  simp [Tab.upd, h]

theorem Tab.upd_of_none {t : Tab α} {k : Nat} (f : α → α) (h : t.get? k = none) : t.upd k f = t := by
  simp [Tab.upd, h]

@[simp] theorem Tab.getD_put_same (t : Tab α) (k : Nat) (a d : α) : (t.put k a).getD k d = a := by
  simp [Tab.getD]

theorem Tab.put_put (t : Tab α) (k : Nat) (a b : α) : (t.put k a).put k b = t.put k b := by
  induction t with
  | nil => simp [Tab.put]
  | cons r t ih =>
    obtain ⟨i, c⟩ := r
    by_cases h1 : k < i
    · simp [Tab.put, h1]
    · by_cases h2 : k = i
      · subst h2; simp [Tab.put]
      · simp [Tab.put, h1, h2, ih]

theorem Tab.get?_mapRows (t : Tab α) (f : Nat → α → α) (k : Nat) : (t.mapRows f).get? k = (t.get? k).map (f k) := by
  induction t with
  | nil => rfl
  | cons r t ih =>
    obtain ⟨i, b⟩ := r
    simp only [Tab.mapRows, List.map_cons, Tab.get?] at *
    split
    · rename_i h; subst h; rfl
    · exact ih

theorem Tab.get?_upd (t : Tab α) (f : α → α) (k j : Nat) :
    (t.upd k f).get? j = if k = j then (t.get? j).map f else t.get? j := by
  cases h : t.get? k with
  | none => rw [Tab.upd_of_none f h]; split <;> simp_all
  | some a => rw [Tab.upd_of_some f h, Tab.get?_put]; split <;> simp_all

theorem Tab.upd_upd (t : Tab α) (f g : α → α) (k : Nat) : (t.upd k f).upd k g = t.upd k fun a => g (f a) := by
  cases h : t.get? k with
  | none => rw [Tab.upd_of_none f h, Tab.upd_of_none g h, Tab.upd_of_none _ h]
  | some a => rw [Tab.upd_of_some f h, Tab.upd_of_some g (Tab.get?_put_same t k _), Tab.upd_of_some _ h, Tab.put_put]

namespace Machine

theorem memory_read_write (m : List Host.Cell) (a b : Nat) (v : Byte) (hw : Memory.wf m = true) :
    Memory.read (Memory.write m a v) b = if a = b then v else Memory.read m b := by
  induction m with
  | nil =>
    by_cases hv : v = 0
    · subst hv; simp [Memory.write, Memory.read]
    · simp only [Memory.write, hv, if_false, Memory.read]
  | cons r m ih =>
    obtain ⟨k, c⟩ := r
    simp only [Memory.wf, Bool.and_eq_true, List.all_eq_true, decide_eq_true_eq] at hw
    obtain ⟨⟨-, hlo⟩, hm⟩ := hw
    have below : ∀ (l : List Host.Cell) (x : Nat), (∀ q ∈ l, x < q.1) → Memory.read l x = 0 := by
      intro l x hl
      induction l with
      | nil => rfl
      | cons q l ih =>
        obtain ⟨j, d⟩ := q
        have h1 : x < j := hl _ (List.mem_cons_self ..)
        simp only [Memory.read]
        rw [if_neg (by omega)]
        exact ih fun q hq => hl q (List.mem_cons_of_mem _ hq)
    by_cases h1 : a < k
    · by_cases hv : v = 0
      · subst hv
        simp only [Memory.write, h1, if_true]
        by_cases h2 : a = b
        · subst h2
          simp only [Memory.read, if_true]
          rw [if_neg (by omega)]
          exact below _ _ fun q hq => lt_trans h1 (hlo q hq)
        · simp [h2]
      · simp only [Memory.write, h1, if_true, hv, if_false, Memory.read]
    · by_cases h2 : a = k
      · subst h2
        by_cases hv : v = 0
        · subst hv
          simp only [Memory.write, lt_irrefl, if_false, if_true, Memory.read]
          by_cases h3 : a = b
          · subst h3; simp only [if_true]; exact below _ _ hlo
          · simp [h3]
        · simp only [Memory.write, lt_irrefl, if_false, if_true, hv, Memory.read]
          split <;> rfl
      · simp only [Memory.write, h1, h2, if_false, Memory.read, ih hm]
        by_cases h3 : k = b
        · subst h3; simp [h2]
        · simp [h3]

theorem memory_write_bound (m : List Host.Cell) (a k : Nat) (v : Byte) (h : ∀ q ∈ m, k < q.1) (ha : k < a) :
    ∀ q ∈ Memory.write m a v, k < q.1 := by
  induction m with
  | nil =>
    intro q hq
    by_cases hv : v = 0
    · simp [Memory.write, hv] at hq
    · simp only [Memory.write, hv, if_false, List.mem_singleton] at hq; subst hq; exact ha
  | cons r m ih =>
    obtain ⟨j, c⟩ := r
    intro q hq
    have hj : k < j := h _ (List.mem_cons_self ..)
    have hm : ∀ q ∈ m, k < q.1 := fun q hq => h q (List.mem_cons_of_mem _ hq)
    simp only [Memory.write] at hq
    split at hq
    · split at hq
      · exact h q hq
      · rcases List.mem_cons.1 hq with rfl | hq
        · exact ha
        · exact h q hq
    · split at hq
      · split at hq
        · exact hm q hq
        · rcases List.mem_cons.1 hq with rfl | hq
          · exact ha
          · exact hm q hq
      · rcases List.mem_cons.1 hq with rfl | hq
        · exact hj
        · exact ih hm q hq

/-- A byte written leaves the canonical form. -/
theorem memory_write_wf (m : List Host.Cell) (a : Nat) (v : Byte) (h : Memory.wf m = true) :
    Memory.wf (Memory.write m a v) = true := by
  induction m with
  | nil =>
    by_cases hv : v = 0
    · simp [Memory.write, hv, Memory.wf]
    · simp only [Memory.write, hv, if_false]; simpa [Memory.wf] using hv
  | cons r m ih =>
    obtain ⟨k, c⟩ := r
    simp only [Memory.wf, Bool.and_eq_true, List.all_eq_true, decide_eq_true_eq] at h
    obtain ⟨⟨hc, hlo⟩, hm⟩ := h
    simp only [Memory.write]
    split
    · rename_i h1
      split
      · simp only [Memory.wf, Bool.and_eq_true, List.all_eq_true, decide_eq_true_eq]; exact ⟨⟨hc, hlo⟩, hm⟩
      · rename_i hv
        simp only [Memory.wf, Bool.and_eq_true, List.all_eq_true, decide_eq_true_eq, bne_iff_ne, ne_eq]
        refine ⟨⟨hv, ?_⟩, ⟨by simpa using hc, hlo⟩, hm⟩
        intro q hq
        rcases List.mem_cons.1 hq with rfl | hq
        · exact h1
        · exact lt_trans h1 (hlo q hq)
    · split
      · rename_i h2
        subst h2
        split
        · exact hm
        · rename_i hv
          simp only [Memory.wf, Bool.and_eq_true, List.all_eq_true, decide_eq_true_eq, bne_iff_ne, ne_eq]
          exact ⟨⟨hv, hlo⟩, hm⟩
      · simp only [Memory.wf, Bool.and_eq_true, List.all_eq_true, decide_eq_true_eq]
        exact ⟨⟨hc, memory_write_bound _ _ _ _ hlo (by omega)⟩, ih hm⟩

/-- A byte string written leaves the canonical form. -/
theorem memory_writeN_wf (bs : Bytes) (m : List Host.Cell) (a : Nat) (h : Memory.wf m = true) :
    Memory.wf (Memory.writeN m a bs) = true := by
  induction bs generalizing m a with
  | nil => exact h
  | cons b bs ih => exact ih _ _ (memory_write_wf _ _ _ h)

/-- The buffers of a state after reset are in canonical form. -/
theorem reset_buffers_wf : Memory.wf State.reset.tkb.arg = true ∧ Memory.wf State.reset.tkb.buf = true
    ∧ Memory.wf State.reset.lcs.response = true := by decide

theorem memory_read_writeN_below (bs : Bytes) (m : List Host.Cell) {a b : Nat} (hb : b < a) (h : Memory.wf m = true) :
    Memory.read (Memory.writeN m a bs) b = Memory.read m b := by
  induction bs generalizing m a with
  | nil => rfl
  | cons c bs ih =>
    show Memory.read (Memory.writeN (Memory.write m a c) (a + 1) bs) b = _
    rw [ih _ (by omega) (memory_write_wf m a c h), memory_read_write m a b c h, if_neg (by omega)]

theorem memory_read_writeN (bs : Bytes) (m : List Host.Cell) (a i : Nat) (hi : i < bs.length) (h : Memory.wf m = true) :
    Memory.read (Memory.writeN m a bs) (a + i) = bs[i] := by
  induction bs generalizing m a i with
  | nil => simp at hi
  | cons c bs ih =>
    show Memory.read (Memory.writeN (Memory.write m a c) (a + 1) bs) (a + i) = _
    cases i with
    | zero =>
      rw [memory_read_writeN_below bs _ (by omega) (memory_write_wf m a c h)]
      exact (memory_read_write m a a c h).trans (if_pos rfl)
    | succ i =>
      rw [show a + (i + 1) = a + 1 + i by omega, ih _ (a + 1) i (by simpa using hi) (memory_write_wf m a c h)]
      rfl

/-- A byte string reads back where it was written. -/
theorem memory_readN_writeN (bs : Bytes) (m : List Host.Cell) (a : Nat) (h : Memory.wf m = true) :
    Memory.readN (Memory.writeN m a bs) a bs.length = bs := by
  apply List.ext_getElem
  · simp [Memory.readN]
  · intro i h1 h2
    simp only [Memory.readN, List.getElem_map, List.getElem_range]
    exact memory_read_writeN bs m a i h2 h

/-- Where there are candidates, one of them is picked. -/
theorem pick_some {s : State} {l : List Nat} (h : l ≠ []) : ∃ k, pick s l = some k := by
  have hl : 0 < l.length := List.length_pos_iff.2 h
  exact ⟨_, List.getElem?_eq_getElem (Nat.mod_lt _ hl)⟩

theorem pick_mem {s : State} {l : List Nat} {k : Nat} (h : pick s l = some k) : k ∈ l := List.mem_of_getElem? h

end Machine

end Sys2Proof
end

