-- ==== Sys2Proof/Laws/Compute.lean ====
section
/-! SUPPORT. What the end of an operation and the computing of its outcome can do. -/

namespace Sys2Proof.Machine

/-- Filling the expansion cache touches the cache and the free counter only. -/
theorem cacheExpansion_frame (x : Seat) (s : State) :
    ∃ c n, cacheExpansion x s = { s with free := n, keys := { s.keys with cache := c } } := by
  unfold cacheExpansion
  split
  · split
    · exact ⟨_, _, rfl⟩
    · exact ⟨s.keys.cache, s.free, rfl⟩
  · exact ⟨s.keys.cache, s.free, rfl⟩

/-- An operation that computes: its seat takes an outcome, the free counter may advance and the expansion cache may fill;
nothing else changes. -/
theorem compute_of_computing {k o : Nat} {f : State → Seat → Bytes → Outcome} {s : State} {x : Seat}
    (hx : s.seats.get? k = some x) (hc : computing x o = true) :
    compute k o f s = cacheExpansion x
      { s with free := s.free + 1,
               seats := s.seats.put k { x with outcome := some (settleOutcome x (f s x (fullInput s x))) } } := by
  simp [compute, hx, hc, updSeat, spend, Tab.upd_of_some _ hx]

/-- Any other seat is left alone. -/
theorem compute_of_not {k o : Nat} {f : State → Seat → Bytes → Outcome} {s : State}
    (h : ∀ x, s.seats.get? k = some x → computing x o = false) : compute k o f s = s := by
  unfold compute
  split
  · rfl
  · rename_i x hx
    simp [h x hx]

theorem settleOutcome_entropy {x : Seat} (o : Outcome) (h : x.noEntropy = true) :
    (settleOutcome x o).status = .entropy ∧ (settleOutcome x o).out = [] ∧ (settleOutcome x o).changes = [] := by
  simp [settleOutcome, h, ended]

theorem settleOutcome_plain {x : Seat} (o : Outcome) (h : x.noEntropy = false)
    (h2 : strayHandle x = false) (h3 : x.half = false) : settleOutcome x o = o := by
  simp [settleOutcome, h, h2, onTiles, h3]

end Sys2Proof.Machine
end

