-- ==== Sys2Proof/Laws/Events.lean ====
section
/-! SUPPORT. What recording an event can do: it writes the recorder's state, counters and views, and nothing else. -/

namespace Sys2Proof.Machine

/-- `t` is `s` but for the recorder, the counters and the views. -/
def OnlyLogs (s t : State) : Prop :=
  t = { s with evr := t.evr, host := t.host, pcie := { s.pcie with msixPending := t.pcie.msixPending },
               glb := { s.glb with trouble := t.glb.trouble, evtPend := t.glb.evtPend, counters := t.glb.counters } }

theorem onlyLogs_refl (s : State) : OnlyLogs s s := rfl

theorem onlyLogs_trans {s t u : State} (h : OnlyLogs s t) (g : OnlyLogs t u) : OnlyLogs s u := by
  unfold OnlyLogs at *
  rw [g, h]

theorem bump_logs (off n : Nat) (s : State) : OnlyLogs s (bump off n s) := rfl
theorem trouble_logs (b : Nat) (s : State) : OnlyLogs s (trouble b s) := rfl

theorem signal_logs (f v : Nat) (s : State) : OnlyLogs s (signal f v s) := by
  unfold signal
  split <;> rfl

theorem raise_logs (src : Nat) (s : State) : OnlyLogs s (raise src s) := by
  unfold raise
  dsimp only
  split
  · rfl
  · split
    · exact onlyLogs_trans (t := { s with glb := { s.glb with evtPend := _ } }) rfl (signal_logs _ _ _)
    · rfl

theorem startFlush_logs (s : State) : OnlyLogs s (startFlush s) := by
  unfold startFlush
  split <;> rfl

theorem enterEvt_logs (e : Evt) (s : State) : OnlyLogs s (enterEvt e s) := by
  unfold enterEvt
  dsimp only
  have h1 : ∀ u : State, OnlyLogs u (if 3 ≤ e.severity then raise 11 u else u) := by
    intro u
    split
    · exact raise_logs _ _
    · rfl
  have h2 : ∀ u : State, OnlyLogs u (if 256 ≤ u.evr.buffer.length ∨ 2 ≤ e.severity then startFlush u else u) := by
    intro u
    split
    · exact startFlush_logs _
    · rfl
  refine onlyLogs_trans (onlyLogs_trans ?_ (h1 _)) (h2 _)
  rfl

theorem enterBoth_logs (e : Evt) (s : State) : OnlyLogs s (enterBoth e s) := by
  unfold enterBoth
  split
  · exact enterEvt_logs _ _
  · refine onlyLogs_trans ?_ (enterEvt_logs _ _)
    refine onlyLogs_trans ?_ (enterEvt_logs _ _)
    rfl

theorem recordEvt_logs (e : Evt) (s : State) : OnlyLogs s (recordEvt e s) := by
  unfold recordEvt
  dsimp only
  generalize (if (suppressedBefore s e.code).isSome = true then 1 else 0) = extra
  split
  · split
    · exact enterBoth_logs _ _
    · rfl
  · split
    · rfl
    · split
      · exact enterBoth_logs _ _
      · split
        · rfl
        · exact onlyLogs_trans (t := takeToken e.code s) rfl (enterBoth_logs _ _)

/-- An event touches nothing but the recorder, the counters and the views. -/
theorem event_logs (code sev fn : Nat) (d : Bytes) (s : State) : OnlyLogs s (event code sev fn d s) := recordEvt_logs _ _

section
variable (code sev fn : Nat) (d : Bytes) (s : State)

@[simp] theorem event_seats : (event code sev fn d s).seats = s.seats := by rw [event_logs code sev fn d s]
@[simp] theorem event_writer : (event code sev fn d s).writer = s.writer := by rw [event_logs code sev fn d s]
@[simp] theorem event_ush : (event code sev fn d s).ush = s.ush := by rw [event_logs code sev fn d s]
@[simp] theorem event_keys : (event code sev fn d s).keys = s.keys := by rw [event_logs code sev fn d s]
@[simp] theorem event_ten : (event code sev fn d s).ten = s.ten := by rw [event_logs code sev fn d s]
@[simp] theorem event_box : (event code sev fn d s).box = s.box := by rw [event_logs code sev fn d s]
@[simp] theorem event_dig : (event code sev fn d s).dig = s.dig := by rw [event_logs code sev fn d s]
@[simp] theorem event_rng : (event code sev fn d s).rng = s.rng := by rw [event_logs code sev fn d s]
@[simp] theorem event_til : (event code sev fn d s).til = s.til := by rw [event_logs code sev fn d s]
@[simp] theorem event_scr : (event code sev fn d s).scr = s.scr := by rw [event_logs code sev fn d s]
@[simp] theorem event_stg : (event code sev fn d s).stg = s.stg := by rw [event_logs code sev fn d s]
@[simp] theorem event_twn : (event code sev fn d s).twn = s.twn := by rw [event_logs code sev fn d s]
@[simp] theorem event_tkb : (event code sev fn d s).tkb = s.tkb := by rw [event_logs code sev fn d s]
@[simp] theorem event_tmp : (event code sev fn d s).tmp = s.tmp := by rw [event_logs code sev fn d s]
@[simp] theorem event_lcs : (event code sev fn d s).lcs = s.lcs := by rw [event_logs code sev fn d s]
@[simp] theorem event_smb : (event code sev fn d s).smb = s.smb := by rw [event_logs code sev fn d s]
@[simp] theorem event_pwr : (event code sev fn d s).pwr = s.pwr := by rw [event_logs code sev fn d s]
@[simp] theorem event_otp : (event code sev fn d s).otp = s.otp := by rw [event_logs code sev fn d s]
@[simp] theorem event_free : (event code sev fn d s).free = s.free := by rw [event_logs code sev fn d s]
@[simp] theorem event_now : (event code sev fn d s).now = s.now := by rw [event_logs code sev fn d s]
@[simp] theorem event_pairs : (event code sev fn d s).glb.pairs = s.glb.pairs := by rw [event_logs code sev fn d s]

end

end Sys2Proof.Machine
end

