-- ==== Sys2Proof/Laws/Hash.lean ====
section
/-! SUPPORT. Lengths of what the sponge gives: as many bytes as are asked for. -/

namespace Sys2Proof.Machine

theorem leBytes_length (n v : Nat) : (leBytes n v).length = n := by simp [leBytes]

theorem keccakRound_length (a : List Nat) (rc : Nat) : (keccakRound a rc).length = 25 := by simp [keccakRound]

theorem keccakRounds_length (l : List Nat) (a : List Nat) (h : a.length = 25) : (l.foldl keccakRound a).length = 25 := by
  induction l generalizing a with
  | nil => exact h
  | cons rc l ih => exact ih _ (keccakRound_length a rc)

theorem keccakF_length (st : Bytes) : (keccakF st).length = 200 := by
  have h := keccakRounds_length keccakRc ((List.range 25).map fun i => leNat (slice st (8 * i) 8)) (by simp)
  simp only [keccakF, List.length_flatMap, leBytes_length, List.map_const', List.sum_replicate, h]
  rfl

theorem squeeze_length (rate n : Nat) (st : Bytes) (h : st.length = 200) (hr : rate ≤ 200) :
    (squeeze rate n st).length = n * rate := by
  induction n generalizing st with
  | zero => simp [squeeze]
  | succ n ih => simp [squeeze, ih _ (keccakF_length st), h, Nat.succ_mul, Nat.min_eq_left hr, Nat.add_comm]

theorem sponge_length (rate : Nat) (domain : Byte) (m : Bytes) (n : Nat) (h0 : 0 < rate) (h : rate ≤ 200) :
    (sponge rate domain m n).length = n := by
  have hc : n ≤ ceilDiv (0 + n) rate * rate := by
    unfold ceilDiv
    have := Nat.div_add_mod (0 + n + rate - 1) rate
    have := Nat.mod_lt (0 + n + rate - 1) h0
    rw [Nat.mul_comm]
    omega
  simp only [sponge, keccakOut, slice, keccakBlock, List.drop_zero, List.length_take,
    squeeze_length rate _ _ (keccakF_length _) h]
  omega

theorem kmac256_length (key x : Bytes) (custom : String) (n : Nat) : (kmac256 key x custom n).length = n := by
  unfold kmac256 kmacWith cshake256
  split <;> exact sponge_length _ _ _ _ (by decide) (by decide)

end Sys2Proof.Machine
end

