-- ==== Sys2Proof/Machine/Layouts.lean ====
section
/-! DEFINITION. The byte layouts of what the device reads from and writes to host memory (R8, R71, R73, R75, R91, R121), the
requests that carry them (R28, R39, R48, R62), and what configuration space reports (R38 to R44). -/

namespace Sys2Proof.Machine

/-! ### What the device reads (R71, R73) -/

/-- The field of `n` bytes at an offset, as a word. -/
def wordAt (w : Nat) (b : Bytes) (off n : Nat) : BitVec w := BitVec.ofNat w (leAt b off n)

/-- The submission entry that 128 bytes hold (R71). -/
def entryOfBytes (b : Bytes) : Entry :=
  { ctl := wordAt 16 b 0 2, opcode := wordAt 16 b 2 2, userTag := wordAt 32 b 4 4, keyHandle := wordAt 32 b 8 4,
    paramSet := wordAt 16 b 12 2, fragCount := wordAt 16 b 14 2, inPtr := wordAt 64 b 16 8, inLen := wordAt 64 b 24 8,
    outPtr := wordAt 64 b 32 8, outCap := wordAt 32 b 40 4, auxHandle := wordAt 32 b 44 4, opArgs := wordAt 128 b 48 16,
    inline := slice b 64 64 }

/-- The 128 bytes of a submission entry. -/
def entryBytes (e : Entry) : Bytes :=
  leBytes 2 e.ctl.toNat ++ leBytes 2 e.opcode.toNat ++ leBytes 4 e.userTag.toNat ++ leBytes 4 e.keyHandle.toNat
    ++ leBytes 2 e.paramSet.toNat ++ leBytes 2 e.fragCount.toNat ++ leBytes 8 e.inPtr.toNat ++ leBytes 8 e.inLen.toNat
    ++ leBytes 8 e.outPtr.toNat ++ leBytes 4 e.outCap.toNat ++ leBytes 4 e.auxHandle.toNat ++ leBytes 16 e.opArgs.toNat
    ++ e.inline

/-- The fragment-list entry that 16 bytes hold (R73). -/
def fragmentOfBytes (b : Bytes) : Fragment :=
  { address := wordAt 64 b 0 8, length := wordAt 32 b 8 4, flags := wordAt 32 b 12 4 }

/-- The entries of a fragment list of `n` entries. -/
def fragmentsOfBytes (n : Nat) (b : Bytes) : List Fragment := (List.range n).map fun i => fragmentOfBytes (slice b (16 * i) 16)

/-! ### What the device writes (R75, R91, R121) -/

/-- CTL of a completion record: DONE is always 1. -/
def Record.ctl (r : Record) : Nat := bnat r.phase + fld (bnat r.batch) 1 + fld (bnat r.scale) 2 + fld 1 15

/-- The 32 bytes of a completion record. -/
def Record.bytes (r : Record) : Bytes :=
  leBytes 2 r.ctl ++ leBytes 2 r.status.code ++ leBytes 4 r.userTag.toNat ++ leBytes 4 r.outLen ++ leBytes 2 r.rounds
    ++ leBytes 2 r.seatHint ++ leBytes 4 r.epoch ++ leBytes 4 r.units ++ leBytes 4 r.exec ++ zeros 4

/-- The 32 bytes of a halt record (R91). -/
def Halt.bytes (h : Halt) : Bytes :=
  leBytes 2 h.code.code ++ [byte h.ringId, byte h.check] ++ leBytes 4 h.index ++ leBytes 2 h.opcode ++ leBytes 2 h.fragment
    ++ leBytes 4 h.sequence ++ leBytes 8 h.addr ++ leBytes 4 h.count ++ zeros 4

/-- The 32 counters of a function in a page. -/
def MeterPage.words (p : MeterPage) (f : Nat) : Bytes := (List.range 32).flatMap fun c => leBytes 8 (p.counters.getD (32 * f + c) 0)

/-- The first 4,088 bytes of a page: its header and the PF's counters. -/
def MeterPage.front (p : MeterPage) : Bytes :=
  leBytes 4 p.epoch ++ leBytes 4 p.flags ++ leBytes 8 p.start ++ leBytes 8 p.ending ++ leBytes 4 p.period ++ leBytes 4 p.lostFrom
    ++ zeros 224 ++ p.words 0 ++ zeros 3576

/-- The writes of a page at an address, in their order: COMMIT comes last (R121). -/
def MeterPage.writes (p : MeterPage) (addr : Nat) : List (Nat × Bytes) :=
  [(addr, p.front), (addr + 0xFFC, zeros 4), (addr + 0x1000, (List.range 4096).flatMap fun i => p.words (i + 1)),
   (addr + 0xFF8, leBytes 4 p.epoch)]

/-! ### Requests (R28, R39, R48) -/

/-- A memory request of the device: its requester and the IDE stream it travels in, a write of data or a read of a length,
and its attributes. Its address is untranslated. -/
structure Tlp where
  requester : Nat
  stream : Nat
  write : Bool
  addr : Nat
  data : Bytes
  length : Nat
  relaxed : Bool
  noSnoop : Bool
  idOrdered : Bool
  atomic : Bool
  deriving DecidableEq, Repr

/-- Max_Payload_Size and Max_Read_Request_Size in bytes, as programmed (R48). -/
def maxPayload (s : State) : Nat := 128 * 2 ^ s.pcie.mps
def maxReadRequest (s : State) : Nat := 128 * 2 ^ s.pcie.mrrs

/-- The Read Completion Boundary, in bytes (R48). -/
def readBoundary : Nat := 64

/-- A span of memory in pieces that end at multiples of `n`, each an address and a length (R48; assumption log 121). -/
def pieces (n : Nat) : Nat → Nat → Nat → List (Nat × Nat)
  | 0, _, _ => []
  | fuel + 1, addr, len =>
    if len = 0 then []
    else
      let k := Nat.min len (n - addr % n)
      (addr, k) :: pieces n fuel (addr + k) (len - k)

/-- The write requests of function `f` that carry data to an address. -/
def writeTlps (s : State) (f addr : Nat) (data : Bytes) (relaxed : Bool) : List Tlp :=
  (pieces (maxPayload s) (data.length + 1) addr data.length).map fun p =>
    { requester := routingId s f, stream := ideStream s f, write := true, addr := p.1, data := slice data (p.1 - addr) p.2,
      length := p.2, relaxed := relaxed, noSnoop := false, idOrdered := false, atomic := false }

/-- The read requests of function `f` for a span of host memory. -/
def readTlps (s : State) (f addr len : Nat) : List Tlp :=
  (pieces (maxReadRequest s) (len + 1) addr len).map fun p =>
    { requester := routingId s f, stream := ideStream s f, write := false, addr := p.1, data := [], length := p.2,
      relaxed := false, noSnoop := false, idOrdered := false, atomic := false }

/-- The memory writes of what the device emits, in their order. Output data alone may carry Relaxed Ordering: whether it does,
the manual leaves open, and a free value decides (R28). -/
def Emit.posted (s : State) : Emit → List Tlp
  | .output f a d => writeTlps s f a.toNat d (Config.relaxedWrites s.free)
  | .record f a r => writeTlps s f a r.bytes false
  | .msix f _ a d => writeTlps s f a (leBytes 4 d) false
  | .meterPage a p => (p.writes a).flatMap fun w => writeTlps s 0 w.1 w.2 false
  | _ => []

/-! ### Configuration space (R38 to R44) -/

/-- The capabilities that a function may implement. -/
inductive Capability where
  | pciExpress | powerManagement | msix | aer | deviceSerialNumber | sriov | ari | ptm | readinessTime | doe | ide
  deriving DecidableEq, Repr

/-- The capabilities of the PF, and of each VF; they implement no others (R38, R44). -/
def pfCapabilities : List Capability :=
  [.pciExpress, .powerManagement, .msix, .aer, .deviceSerialNumber, .sriov, .ari, .ptm, .readinessTime, .doe, .ide]
def vfCapabilities : List Capability := [.pciExpress, .powerManagement, .msix, .aer, .ari]

/-- A base address register pair: 64-bit, non-prefetchable memory of a size (R40, R42). -/
structure Bar where
  index : Nat
  size : Nat
  is64 : Bool
  prefetchable : Bool
  deriving DecidableEq, Repr

/-- What the PF's configuration space reports (R36, R38 to R41, R49). -/
structure PfConfig where
  vendor : Nat
  device : Nat
  classCode : Nat
  capabilities : List Capability
  bars : List Bar
  expansionRom : Bool
  intx : Bool
  msi : Bool
  /-- Max_Payload_Size supported, in bytes; 10-bit tags as requester and as completer -/
  payloadSupported : Nat
  tagRequester : Bool
  tagCompleter : Bool
  aspmL0s : Bool
  aspmL1 : Bool
  l1Substates : Bool
  /-- Completion Timeout ranges A to D, one bit each, and the Disable -/
  timeoutRanges : Nat
  timeoutDisable : Bool
  msixVectors : Nat
  msixTable : Nat
  msixPba : Nat
  ecrc : Bool
  headerLog : Bool
  prefixLog : Bool
  serial : Nat
  functionGroups : Bool
  ptmRequester : Bool
  /-- Readiness Time Reporting in milliseconds, and Immediate Readiness -/
  resetTime : Nat
  dlUpTime : Nat
  flrTime : Nat
  immediate : Bool
  doeInstances : Nat
  linkStreams : Nat
  selectiveStreams : Nat
  aggregation : Bool
  deriving DecidableEq, Repr

def pfConfig (s : State) : PfConfig :=
  { vendor := Config.vendorId, device := 0x5200, classCode := 0x108000, capabilities := pfCapabilities,
    bars := [{ index := 0, size := 8 * 2 ^ 20, is64 := true, prefetchable := false },
             { index := 2, size := 16 * 2 ^ 10, is64 := true, prefetchable := false }],
    expansionRom := false, intx := false, msi := false, payloadSupported := 512, tagRequester := true, tagCompleter := true,
    aspmL0s := false, aspmL1 := true, l1Substates := false, timeoutRanges := 15, timeoutDisable := true, msixVectors := 256,
    msixTable := 0x0000, msixPba := 0x2000, ecrc := true, headerLog := true, prefixLog := false,
    serial := s.otp.serial.toNat, functionGroups := false, ptmRequester := true, resetTime := 80, dlUpTime := 80, flrTime := 10,
    immediate := false, doeInstances := 1, linkStreams := 1, selectiveStreams := 8, aggregation := false }

/-- What the SR-IOV capability reports (R42, R474), and how many MSI-X vectors a VF has. -/
structure VfConfig where
  totalVfs : Nat
  initialVfs : Nat
  firstOffset : Nat
  stride : Nat
  device : Nat
  /-- supported page sizes, in bytes -/
  pageSizes : List Nat
  bar : Bar
  migration : Bool
  capabilities : List Capability
  msixVectors : Nat
  deriving DecidableEq, Repr

def vfConfig (s : State) : VfConfig :=
  let n := if lc s = .scrapped then 0 else vfOffer s
  { totalVfs := n, initialVfs := n, firstOffset := 1, stride := 1, device := 0x5201,
    pageSizes := [4096, 65536], bar := { index := 0, size := 65536, is64 := true, prefetchable := false },
    migration := false, capabilities := vfCapabilities, msixVectors := 16 }

/-- The base address of the window of the VF that is function `f`, from the VF BAR: one 64 KiB window per VF. -/
def vfWindow (bar f : Nat) : Nat := bar + (vfConfig State.reset).bar.size * (f - 1)

end Sys2Proof.Machine
end

