-- ==== Sys2Proof/Machine/Reads.lean ====
section
/-! DEFINITION. What reads give (R9, R10, R41, R45, R491 to R508): every register of the CTL window and of a VF's window as a
view of the state, and the answer of a read request. A read changes nothing but the error log. -/

namespace Sys2Proof.Machine

/-- A holding register of `n` bits: its value at the last snapshot (R501, R502). -/
def heldView (s : State) (x n : Nat) : Nat := s.glb.held.getD x 0 % 2 ^ n

/-- The word of a byte-wide area that starts at `base`. -/
def areaWord (b : Bytes) (base x : Nat) : Nat := leAt b (x - base) 8

/-- The word of a sparse buffer that starts at `base`. -/
def bufWord (m : List Host.Cell) (base x : Nat) : Nat := leNat (Memory.readN m (x - base) 8)

/-- The word of a bitmap of numbers: bit `b` of word `w` stands for number 64w + b. -/
def bitmapWord (p : Nat → Bool) (w : Nat) : Nat := sumOf ((List.range 64).map fun b => fld (bnat (p (64 * w + b))) b)

/-! ### Blocks 0 to 3 (R495 to R497, R500, R506) -/

/-- GLB_ID (R495). -/
def glbId (s : State) : Nat := 0x5200 + fld 0xB0 16 + fld s.otp.grade 24 + fld 0x01 32

def glbWord (s : State) (x : Nat) : Nat :=
  if x = 0x000 then glbId s
  else if x = 0x008 then s.otp.serial.toNat
  else if x = 0x018 then bnat s.glb.snapBusy + fld (s.glb.snapCount % 2 ^ 32) 32
  else if x = 0x020 ∨ x = 0x028 then heldView s x 64
  else if x = 0x030 then s.glb.scratch.toNat
  else if x = 0x10000 then glbLive s
  else if x = 0x10008 then s.glb.trouble.toNat
  else if x = 0x20000 then guardedValue s x
  else if x = 0x20008 then sumOf ((List.range 18).map fun b => fld (bnat (s.glb.pairs.get? b).isSome) b)
  else if x = 0x20010 then s.glb.failOffset % 2 ^ 23 + fld (s.glb.failCount % 2 ^ 32) 32
  else 0

/-- A source of group `g` is both pending and enabled (R506). -/
def groupActive (s : State) (g : Nat) : Bool := s.glb.evtPend.getD g 0 &&& s.glb.evtEnable.getD g 0 != 0

def evtWord (s : State) (x : Nat) : Nat :=
  let g := x % 0x100 / 8
  if x < 0x30100 then (s.glb.evtPend.getD g 0).toNat
  else if x < 0x30200 then (s.glb.evtEnable.getD g 0).toNat
  else if x = 0x30300 then sumOf ((List.range 32).map fun g => fld (bnat (groupActive s g)) g)
  else 0

/-! ### The usher and the ring contexts (R91, R96, R97) -/

/-- The halt record of a function, zero where none has occurred since it was created. -/
def haltRecord (s : State) (f : Nat) : Bytes := match s.ush.halts.get? f with | some h => h.bytes | none => zeros 32

def ushWord (s : State) (x : Nat) : Nat :=
  if x = 0x40000 then s.ush.adminSq
  else if x = 0x40008 then s.ush.adminCq
  else if x = 0x40010 then keptAdminCfg s.ush.adminCfg + fld (bnat s.ush.setupErr) 17
  else if x = 0x40020 then guardedValue s x
  else if x = 0x40028 then ushDemand s % 2 ^ 40
  else if x = 0x40030 then ushStretch s % 2 ^ 32
  else if x = 0x40038 then ushStatus s
  else if x = Ctr.halts then heldView s x 32
  else if x = Ctr.polls ∨ x = Ctr.hotReads ∨ x = Ctr.admitted then heldView s x 64
  else if 0x40100 ≤ x ∧ x < 0x40120 then areaWord (haltRecord s 0) 0x40100 x
  else 0

/-- STATE of a ring (R96). Where several of its values hold, the first of resetting, stopped, halted, parked and polled stands;
a quiescing VF's rings count as parked (R113; assumption log 122). -/
def ringState (s : State) (r : Ring) : Nat :=
  if resetting s r.owner then 5
  else if r.stop.isSome then 4
  else if halted s r.owner then 3
  else if r.interval = 0 || quiescing s r.owner then 2
  else 1

/-- Seats held by entries of ring context `c`. -/
def ringSeats (s : State) (c : Nat) : Nat := (s.seats.filter fun x => x.2.ring = c && !x.2.detached).length

/-- Word `i` of ring context `c` (R96). -/
def ringWord (s : State) (c : Nat) (r : Ring) (i : Nat) : Nat :=
  if i = 0 then
    ringState s r + fld (bnat r.expPhase) 3 + fld (bnat (r.split && r.cqPhase)) 4 + fld (bnat r.split) 5 + fld (bnat r.hot) 6
      + fld r.log2 8 + fld r.sqNext 16 + fld r.cqNext 32 + fld (ringSeats s c) 48
  else if i = 1 then r.interval + fld r.irqMode 18 + fld r.vector 24 + fld (effInterval s r % 2 ^ 32) 32
  else if i = 2 then r.owner + fld r.ringId 16 + fld (r.admitted % 2 ^ 32) 32
  else r.completed % 2 ^ 32 + fld (match r.stop with | some st => st.code | none => 0) 32

/-- The ring context window; a context with no ring reads as zeros (assumption log 122). -/
def contextWord (s : State) (x : Nat) : Nat :=
  let c := (x - 0x80000) / 32
  match s.ush.rings.get? c with
  | none => 0
  | some r => ringWord s c r (x % 32 / 8)

/-! ### VFC and BOX (R105, R124, R507) -/

/-- A VF's bit in a bitmap: those of VFs that do not exist read 0. -/
def vfBit (s : State) (p : Nat → Bool) (i : Nat) : Bool := fnExists s (i + 1) && p (i + 1)

/-- A ring of the function has STATE 4. -/
def ringStopped (s : State) (f : Nat) : Bool := s.ush.rings.any fun x => x.2.owner = f && ringState s x.2 = 4

def vfcWord (s : State) (x : Nat) : Nat :=
  let w := x % 0x200 / 8
  let m := mailOf s (mailFn s)
  let shown := fnExists s (mailFn s)
  if x = 0x100000 then s.ten.mailSel
  else if 0x100200 ≤ x ∧ x < 0x100400 then bitmapWord (vfBit s fun f => (mailOf s f).busy) w
  else if 0x100400 ≤ x ∧ x < 0x100600 then bitmapWord (vfBit s fun f => halted s f) w
  else if 0x100600 ≤ x ∧ x < 0x100800 then bitmapWord (vfBit s fun f => quiescing s f) w
  else if 0x100800 ≤ x ∧ x < 0x100A00 then bitmapWord (vfBit s fun f => (s.ten.table.get? f).isSome) w
  else if 0x100A00 ≤ x ∧ x < 0x100C00 then bitmapWord (vfBit s fun f => resetting s f) w
  else if 0x100C00 ≤ x ∧ x < 0x100E00 then bitmapWord (vfBit s fun f => ringStopped s f) w
  else if !shown then 0
  else if 0x101000 ≤ x ∧ x < 0x1017F0 then bufWord m.outBuf 0x101000 x
  else if x = 0x1017F0 then (if m.busy then m.outLen else 0)
  else if 0x101800 ≤ x ∧ x < 0x101FF0 then bufWord m.inBuf 0x101800 x
  else if x = 0x101FF0 then m.txLen + fld (bnat m.full) 17
  else 0

def boxWord (s : State) (x : Nat) : Nat :=
  if x = 0x180000 then s.box.pageBase
  else if x = 0x180008 then s.box.count + fld (bnat s.box.enable) 8 + fld s.box.period 32
  else if x = 0x180010 then boxStatus s
  else if x = 0x180018 then s.box.epoch % 2 ^ 32
  else if x = 0x180020 then s.box.lastPage % 2 ^ 32
  else if x = 0x180028 then s.box.snapSel
  else if 0x180100 ≤ x ∧ x < 0x180200 then heldView s x 64
  else 0

/-! ### KT, RNG and TIL (R276, R299, R329) -/

/-- Occupied mirror slots. -/
def mirrorSlots (s : State) : Nat := (s.keys.slots.filter fun x => x.2.occupied && x.2.mirror).length

def ktWord (s : State) (x : Nat) : Nat :=
  if x = 0x200000 then ktStatus s
  else if x = 0x200008 then slotsUsed s + fld (mirrorSlots s) 32
  else if x = 0x200010 then Config.unitTotal - unitsUsed s + fld (largestRun s) 32
  else if x = 0x200018 then s.keys.stateful.length + fld (s.keys.stateful.filter fun y => y.2.active).length 16
  else if x = 0x200020 then s.keys.seq % 2 ^ 64
  else if x = 0x200028 then (if paired s then s.keys.ackedSeq else s.keys.seq) % 2 ^ 64
  else if x = Ctr.ktRebuilds then heldView s x 32
  else if x = Ctr.ktCommits ∨ x = Ctr.ktThrottle ∨ x = Ctr.ktUnits then heldView s x 64
  else 0

/-- RNG_SRC of a source (R299). -/
def sourceWord (s : State) (i : Nat) : Nat :=
  let x := sourceAt s i
  x.config + fld (Nat.min 4 (failsInSecond s i)) 2 + fld x.cause 8 + fld x.pair 12

def rngWord (s : State) (x : Nat) : Nat :=
  if x = 0x280000 then rngStatus s
  else if x = 0x280008 then sourceWord s 0
  else if x = 0x280010 then sourceWord s 1
  else if x = 0x280020 then freqMin + fld freqMax 16 + fld rctCutoff 32 + fld aptCutoff 48
  else if x = 0x280028 then lockLow + fld lockHigh 16
  else if x = 0x280030 then poolBits s
  else if x = Ctr.rngFailed 0 ∨ x = Ctr.rngFailed 1 then heldView s x 32
  else if 0x280040 ≤ x ∧ x ≤ Ctr.rngEntropy then heldView s x 64
  else 0

def TileState.code : TileState → Nat
  | .active => 0 | .understudy => 1 | .retired => 2 | .selfTest => 3

/-- TIL_TILE of tile `t` (R329). -/
def tileWord (s : State) (t : Nat) : Nat :=
  let x := tileAt s t
  let recent := (within x.blames s.evr.time (24 * Config.tickPerHour)).length
  x.state.code + fld (bnat x.split) 3 + fld x.pool 8 + fld (Nat.min 3 recent) 12
    + fld (if x.state = .retired then x.retiredHour % 2 ^ 32 else 0) 32

def tilWord (s : State) (x : Nat) : Nat :=
  if x = 0x300000 then tilStatus s
  else if x = 0x300008 then guardedValue s x
  else if 0x300100 ≤ x ∧ x < 0x300100 + 8 * Config.tileTotal then tileWord s ((x - 0x300100) / 8)
  else if 0x300400 ≤ x ∧ x < 0x300400 + 8 * Config.tileTotal then heldView s x 64
  else if 0x300600 ≤ x ∧ x < 0x300600 + 8 * Config.tileTotal then heldView s x 64
  else if x = Ctr.faultRepeats then heldView s x 32
  else if 0x300800 ≤ x ∧ x ≤ Ctr.sha2Compressions then heldView s x 64
  else 0

/-! ### SCR, STG and TWN (R355, R397, R420) -/

def imageDigest (i : Option Image) : Bytes := match i with | some x => padTo 48 x.digest | none => zeros 48
def imageSvn (i : Option Image) : Nat := match i with | some x => x.svn % 2 ^ 32 | none => 0
def scriptKeyDigest (s : State) (i : Nat) : Bytes := padTo 32 (((s.scr.keys[i]?).getD none).getD [])

def scrWord (s : State) (x : Nat) : Nat :=
  if x = 0x380000 then scrStatus s
  else if x = 0x380008 then imageSvn s.scr.maker + fld (imageSvn s.scr.customer) 32
  else if x = 0x380010 then s.scr.minSvn % 2 ^ 32 + fld (retainWords s) 32
  else if 0x380020 ≤ x ∧ x < 0x380050 then areaWord (imageDigest s.scr.maker) 0x380020 x
  else if 0x380050 ≤ x ∧ x < 0x380080 then areaWord (imageDigest s.scr.customer) 0x380050 x
  else if 0x380080 ≤ x ∧ x < 0x3800A0 then areaWord (scriptKeyDigest s 0) 0x380080 x
  else if 0x3800A0 ≤ x ∧ x < 0x3800C0 then areaWord (scriptKeyDigest s 1) 0x3800A0 x
  else if x = Ctr.scrFaults ∨ x = Ctr.scrOverruns then heldView s x 32
  else if x = Ctr.scrFills ∨ x = Ctr.scrCueWaits then heldView s x 64
  else 0

def planDigest (p : Option Plan) : Bytes := match p with | some x => padTo 48 x.digest | none => zeros 48
def planSvn (p : Option Plan) : Nat := match p with | some x => x.svn % 2 ^ 32 | none => 0

def stgWord (s : State) (x : Nat) : Nat :=
  if x = 0x380100 then stgStatus s
  else if x = 0x380110 then s.stg.resultStatus.code + fld s.stg.resultKind 16 + fld (s.stg.resultUs % 65536) 32
  else if x = 0x380118 then s.stg.minSvn % 2 ^ 32
  else if x = 0x380120 then planSvn s.stg.bankA + fld (planSvn s.stg.bankB) 32
  else if x = Ctr.switches then heldView s x 64
  else if x = Ctr.intermissions then heldView s x 32
  else if x = Ctr.interMax then heldView s x 16
  else if 0x380140 ≤ x ∧ x < 0x380170 then areaWord (planDigest s.stg.bankA) 0x380140 x
  else if 0x380170 ≤ x ∧ x < 0x3801A0 then areaWord (planDigest s.stg.bankB) 0x380170 x
  else guardedValue s x

def twnWord (s : State) (x : Nat) : Nat :=
  if x = 0x400000 then guardedValue s x
  else if x = 0x400008 then twnStatus s
  else if x = 0x400010 then (match s.twn.record with | some r => r.peer.toNat | none => 0)
  else if x = 0x400018 then (match s.twn.record with | some r => r.pairId.toNat | none => 0)
  else if x = 0x400020 then s.twn.appliedSeq % 2 ^ 64
  else if x = 0x400028 then s.twn.meterBase
  else if x = 0x400030 then s.twn.meterCount + fld (bnat s.twn.meterEnable) 8
  else if 0x400100 ≤ x ∧ x < 0x400308 then bitmapWord (fun f => s.twn.diverged.contains f) ((x - 0x400100) / 8)
  else if x = Ctr.absences ∨ x = Ctr.ackMax then heldView s x 32
  else if Ctr.framesTx ≤ x ∧ x ≤ Ctr.fecUncorrected then heldView s x 64
  else 0

/-! ### TMP and EVR (R463, R490) -/

def tmpWord (s : State) (x : Nat) : Nat :=
  let mons (p : Mon → Bool) : Nat := sumOf ((List.range 48).map fun n => fld (bnat (p (monAt s n))) n)
  if x = 0x480000 then
    bnat s.tmp.curtainDown + fld (bnat s.tmp.hold) 1 + fld (bnat (zeroize s)) 2 + fld (bnat s.tmp.backupEvents) 3
  else if x = 0x480010 then s.tmp.curtainResult
  else if x = 0x480020 then s.tmp.policyChannel + fld s.tmp.policyResult 8
  else if x = 0x480028 then mons Mon.asserted
  else if x = 0x480030 then mons Mon.heldRaised
  else if x = 0x480038 then s.tmp.imported + fld (bnat s.tmp.backupLost) 5
  else if 0x481000 ≤ x ∧ x < 0x481180 then heldView s x 64
  else if 0x481200 ≤ x ∧ x < 0x481380 then heldView s x 32
  else if 0x481400 ≤ x ∧ x < 0x481580 then heldView s x 32
  else if x = Ctr.tmpDrops then heldView s x 32
  else guardedValue s x

/-- The lowest sequence number held, 0 where no record is (R490). -/
def firstSequence (s : State) : Nat := (minOf? ((s.evr.opening ++ s.evr.running ++ s.evr.buffer).map Evt.sequence)).getD 0

def evrWord (s : State) (x : Nat) : Nat :=
  if x = 0x500000 then evrStatus s
  else if x = 0x500008 then s.evr.next % 2 ^ 32 + fld (firstSequence s % 2 ^ 32) 32
  else if x = 0x500010 then s.evr.opening.length + fld s.evr.running.length 32 + fld s.evr.buffer.length 48
  else if x = 0x500018 then guardedValue s x
  else if x = 0x500020 then s.evr.cycles % 2 ^ 32
  else if x = 0x500028 then hoursOf s.evr.time % 2 ^ 32 + fld (fractionOf s.evr.time) 32
  else if x = 0x500030 then s.evr.history.length
  else if x = Ctr.evrOverflows then heldView s x 32
  else if Ctr.evrRecords ≤ x ∧ x ≤ Ctr.evrFlushes then heldView s x 64
  else 0

/-! ### TKB and LCS (R443, R475) -/

/-- The ceremony that TKB_CER_STATUS describes, if any. -/
def ceremonyOf : Approval → Option Ceremony
  | .none => none
  | .open c => some c
  | .held c => some c
  | .reserved c _ => some c

/-- TKB_CER_STATUS (R443); SECONDS_LEFT is rounded down (assumption log 108). -/
def cerStatus (s : State) : Nat :=
  let c := ceremonyOf s.tkb.approval
  let n := match c with | some c => c.counted.length | none => 0
  let left := match c with | some c => (c.deadline - s.now) / Config.tickPerSecond | none => 0
  s.tkb.approval.code + fld n 2 + fld s.tkb.result 8 + fld (match c with | some c => countedMask c | none => 0) 16 + fld left 32

/-- TKB_CER_NONCE: the nonce of the open ceremony. -/
def cerNonce (s : State) : Bytes := match s.tkb.approval with | .open c => padTo 32 c.nonce | _ => zeros 32

def TokState.code : TokState → Nat
  | .empty => 0 | .debouncing => 1 | .identified => 2 | .faulty => 3

/-- The first word of TKB_SLOT. -/
def tokenWord (s : State) (i : Nat) : Nat :=
  let t := tokAt s i
  let enrolled := (match t.id with | some id => enrolledIndex s id | none => none).getD 31
  t.state.code + fld t.addr 16 + fld t.mode 32 + fld (bnat t.fallback) 35 + fld enrolled 36 + fld t.lastWrite 41

/-- TKB_ENROLLED of a place: 64 bytes. -/
def enrolledBytes (s : State) (k : Nat) : Bytes :=
  match s.tkb.enrolled.get? k with
  | none => zeros 64
  | some e => leBytes 16 e.id.toNat ++ padTo 32 e.keyDigest ++ [1] ++ zeros 15

/-- TKB_STATUS (R443). -/
def tkbStatus (s : State) : Nat :=
  let slots (p : TokSlot → Bool) : Nat := sumOf ((List.range 8).map fun i => fld (bnat (p (tokAt s i))) i)
  slots (fun t => t.state = .identified || t.state = .faulty) + fld (slots fun t => t.state = .faulty) 8
    + fld (bnat s.tkb.authority.isSome) 16 + fld s.tkb.enrolled.length 20

def tkbWord (s : State) (x : Nat) : Nat :=
  let i := (x - 0x580100) / 16
  if x = 0x580000 then tkbStatus s
  else if x = 0x580008 then guardedValue s x
  else if x = 0x580010 then s.tkb.maxMode + fld (bnat s.tkb.fourLine) 2
  else if x = 0x580020 then s.tkb.action
  else if x = 0x580028 then cerStatus s
  else if 0x580040 ≤ x ∧ x < 0x580080 then bufWord s.tkb.arg 0x580040 x
  else if 0x580080 ≤ x ∧ x < 0x5800A0 then areaWord (cerNonce s) 0x580080 x
  else if 0x580100 ≤ x ∧ x < 0x580180 then (if x % 16 = 0 then tokenWord s i else (tokAt s i).writeCount % 2 ^ 32)
  else if 0x580200 ≤ x ∧ x < 0x580600 then areaWord (enrolledBytes s ((x - 0x580200) / 64)) 0 (x % 64)
  else if x = Ctr.tkbBlocks then heldView s x 64
  else if x = Ctr.tkbRetries ∨ x = Ctr.tkbIndeterminate then heldView s x 32
  else if 0x581000 ≤ x ∧ x < 0x582000 then bufWord s.tkb.buf 0x581000 x
  else 0

def lcsWord (s : State) (x : Nat) : Nat :=
  let o := s.otp
  if x = 0x600000 then lcsState s
  else if x = 0x600008 then o.g0.toNat + fld o.g1.toNat 16 + fld o.g2.toNat 32 + fld o.g3.toNat 48
  else if x = 0x600010 then o.wipe.toNat
  else if x = 0x600018 then guardedValue s x
  else if x = 0x600020 then (if lc s = .scrapped then 2 else s.lcs.result) + fld s.lcs.resultTarget 4
  else if x = 0x600028 then fld s.lcs.purpose 8 + fld s.lcs.target 12
  else if 0x600040 ≤ x ∧ x < 0x600060 then areaWord (padTo 32 s.lcs.nonce) 0x600040 x
  else if 0x600060 ≤ x ∧ x < 0x600080 then bufWord s.lcs.response 0x600060 x
  else if x = 0x600080 then o.serial.toNat
  else if 0x6000A0 ≤ x ∧ x < 0x6000E0 then areaWord (padTo 64 s.lcs.answer) 0x6000A0 x
  else 0

/-- The test and debug paths of R466. -/
inductive TestPath where
  | boundaryScan | debugTap | memoryTest
  deriving DecidableEq, Repr

/-- The paths that the life-cycle state opens: the boundary scan always (R466). -/
def pathOpen (s : State) : TestPath → Bool
  | .boundaryScan => true
  | .debugTap => debugOpen s
  | .memoryTest => debugOpen s

/-! ### The CTL window -/

/-- The 64-bit register at an offset that is a multiple of 8, zero where there is none (R41, R491). What the test and debug
block holds where R466 opens it, no rule says: there the word is free (assumption log 101). -/
def ctlWord (s : State) (x : Nat) : Nat :=
  let b := blockOf x
  if b < 3 then glbWord s x
  else if b = 3 then evtWord s x
  else if b = 4 then ushWord s x
  else if b = 5 then contextWord s x
  else if b = 6 then vfcWord s x
  else if b = 7 then boxWord s x
  else if b = 8 then ktWord s x
  else if b = 9 then rngWord s x
  else if b = 10 then tilWord s x
  else if b = 11 then (if x < 0x380100 then scrWord s x else stgWord s x)
  else if b = 12 then twnWord s x
  else if b = 13 then tmpWord s x
  else if b = 14 then evrWord s x
  else if b = 15 then tkbWord s x
  else if b = 16 then lcsWord s x
  else if b = 17 && debugOpen s && x < 0x700000 then Config.unseenCount s.free x % 2 ^ 64
  else 0

/-- The words that a read may see: in SCRAPPED the GLB identity and the LCS block (R474), before READY the GLB blocks
(R55). -/
def ctlVisible (s : State) (x : Nat) : Bool :=
  let b := blockOf x
  if lc s = .scrapped then x = 0x000 || x = 0x008 || b = 16 else s.pcie.ready || b < 3

/-- A half, or all, of a word (R493). -/
def halfOf (off width w : Nat) : Nat :=
  if width = 8 then w % 2 ^ 64 else if off % 8 = 0 then w % 2 ^ 32 else w / 2 ^ 32 % 2 ^ 32

/-- What a read of 4 or 8 bytes at a CTL offset gives. -/
def ctlRead (s : State) (off width : Nat) : Nat :=
  if ctlVisible s (regOf off) then halfOf off width (ctlWord s (regOf off)) else 0

/-! ### A VF's window and the MSI-X structures (R40, R45 to R47, R96, R105) -/

/-- VFC_ID of the VF that is function `f` (R46). -/
def vfcId (s : State) (f : Nat) : Nat := (f - 1) + fld 0x5200 16 + fld 0xB0 32 + fld (ringQuota s f) 40

/-- The mirror entry of a function's ring `n`, zeros where it has none. -/
def mirrorWord (s : State) (f n i : Nat) : Nat :=
  match ringContext s f n with
  | none => 0
  | some (c, r) => ringWord s c r i

/-- A word of the MSI-X table of a function: the address, or the data with the vector control above it. -/
def msixWord (s : State) (f off : Nat) : Nat :=
  let n := 256 * f + off / 16
  if off % 16 = 0 then s.pcie.msixAddr.getD n 0
  else s.pcie.msixData.getD n 0 + fld (bnat (!s.pcie.unmasked.contains n)) 32

/-- Word `w` of the pending-bit array of a function. -/
def pbaWord (s : State) (f w : Nat) : Nat := bitmapWord (fun v => hasVector f v && s.pcie.msixPending.contains (256 * f + v)) w

/-- The word at an offset of the window of the VF that is function `f` (R45). -/
def vfWord (s : State) (f x : Nat) : Nat :=
  let m := mailOf s f
  if x = 0x0000 then vfcId s f
  else if x = 0x0008 then vfcLive s f
  else if 0x0100 ≤ x ∧ x < 0x0120 then areaWord (haltRecord s f) 0x0100 x
  else if 0x1000 ≤ x ∧ x < 0x17F0 then bufWord m.outBuf 0x1000 x
  else if x = 0x17F0 then m.outLen + fld (bnat m.busy) 17
  else if 0x1800 ≤ x ∧ x < 0x1FF0 then bufWord m.inBuf 0x1800 x
  else if x = 0x1FF0 then m.inLen + fld (bnat m.full) 16
  else if 0x2000 ≤ x ∧ x < 0x2800 then mirrorWord s f ((x - 0x2000) / 32) (x % 32 / 8)
  else if 0x8000 ≤ x ∧ x < 0x8100 then msixWord s f (x - 0x8000)
  else if x = 0xC000 then pbaWord s f 0
  else 0

/-- The word at an offset of the PF's BAR 2 window (R40). -/
def pfMsixWord (s : State) (x : Nat) : Nat :=
  if x < 0x1000 then msixWord s 0 x else if 0x2000 ≤ x ∧ x < 0x2020 then pbaWord s 0 ((x - 0x2000) / 8) else 0

/-! ### Read requests -/

/-- The window that a read addresses. -/
inductive ReadWindow where
  | ctl | pfMsix
  | vf (f : Nat)
  deriving DecidableEq, Repr

/-- How a read is completed. -/
inductive ReadAnswer where
  | value (v : Nat)
  | unsupported
  deriving DecidableEq, Repr

/-- The function whose window it is. -/
def ReadWindow.fn : ReadWindow → Nat
  | .ctl => 0
  | .pfMsix => 0
  | .vf f => f

/-- The word that a window shows. -/
def ReadWindow.word (s : State) : ReadWindow → Nat → Nat
  | .ctl, x => if 0x800000 ≤ x then 0 else if ctlVisible s x then ctlWord s x else 0
  | .pfMsix, x => pfMsixWord s x
  | .vf f, x => vfWord s f x

/-- A read request and the state after it: a naturally aligned read of 4 or 8 bytes gives the register's value and changes
nothing; any other is completed with Unsupported Request and logged (R41, R51). -/
def readRequest (w : ReadWindow) (off width : Nat) (s : State) : ReadAnswer × State :=
  if accessOk off width then (.value (halfOf off width (w.word s (regOf off))), s) else (.unsupported, refuseAccess w.fn s)

end Sys2Proof.Machine
end

