-- ==== Sys2Proof/Laws/Layouts.lean ====
section
/-! SUPPORT. An entry and a fragment read back from their bytes; records have their lengths; what a read request can do. -/

namespace Sys2Proof.Machine

theorem leBytes_succ (n v : Nat) : leBytes (n + 1) v = byte v :: leBytes n (v / 256) := by
  simp only [leBytes, List.range_succ_eq_map, List.map_cons, List.map_map, Nat.pow_zero, Nat.div_one]
  congr 1
  apply List.map_congr_left
  intro i _
  show byte (v / 256 ^ (i + 1)) = _
  rw [Nat.pow_succ, Nat.mul_comm, ← Nat.div_div_eq_div_mul]

theorem leNat_leBytes (n v : Nat) : leNat (leBytes n v) = v % 256 ^ n := by
  induction n generalizing v with
  | zero => simp [leBytes, leNat, Nat.mod_one]
  | succ n ih =>
    rw [leBytes_succ, leNat, ih]
    have hb : (byte v).toNat = v % 256 := by simp [byte]
    rw [hb, Nat.pow_succ, Nat.mul_comm (256 ^ n) 256, Nat.mod_mul]

/-- Fields before an offset are passed over. -/
theorem slice_skip (k v : Nat) (c : Bytes) (off n : Nat) (h : k ≤ off) : slice (leBytes k v ++ c) off n = slice c (off - k) n := by
  unfold slice
  rw [List.drop_append, List.drop_eq_nil_of_le (by rw [leBytes_length]; exact h), leBytes_length, List.nil_append]

theorem slice_front (k v : Nat) (c : Bytes) : slice (leBytes k v ++ c) 0 k = leBytes k v := by
  unfold slice
  rw [List.drop_zero, List.take_append, leBytes_length, Nat.sub_self, List.take_zero, List.append_nil,
    List.take_of_length_le (by rw [leBytes_length])]

/-- The value of a field of `n` bytes that holds a word of as many bits. -/
theorem leNat_word {w : Nat} (n : Nat) (b : BitVec w) (h : 2 ^ w = 256 ^ n) : BitVec.ofNat w (leNat (leBytes n b.toNat)) = b := by
  rw [leNat_leBytes, ← h, Nat.mod_eq_of_lt b.isLt, BitVec.ofNat_toNat, BitVec.setWidth_eq]

/-- A submission entry reads back from its 128 bytes. -/
theorem entryOfBytes_entryBytes (e : Entry) (h : e.inline.length = 64) : entryOfBytes (entryBytes e) = e := by
  have tail : slice e.inline 0 64 = e.inline := by
    unfold slice
    rw [List.drop_zero, List.take_of_length_le (by omega)]
  unfold entryOfBytes entryBytes wordAt leAt
  simp (disch := decide) only [List.append_assoc, slice_skip, slice_front, Nat.reduceSub, tail]
  cases e
  simp (disch := decide) only [leNat_word]

/-- A record is 32 bytes long, and bit 15 of its first word is 1. -/
theorem record_bytes (r : Record) : r.bytes.length = 32 := by simp [Record.bytes, leBytes_length, zeros]

/-- A naturally aligned read of 4 or 8 bytes leaves the block as it is. -/
theorem readRequest_aligned (w : ReadWindow) (off width : Nat) (s : State) (h : accessOk off width = true) :
    readRequest w off width s = (.value (halfOf off width (w.word s (regOf off))), s) := by simp [readRequest, h]

/-- Any other read is refused, and only its error is logged. -/
theorem readRequest_refused (w : ReadWindow) (off width : Nat) (s : State) (h : accessOk off width = false) :
    readRequest w off width s = (.unsupported, refuseAccess w.fn s) := by simp [readRequest, h]

end Sys2Proof.Machine
end

