-- ==== Sys2Proof/Laws/Views.lean ====
section
/-! SUPPORT. What the end of a command does to the views: it only adds to them. -/

namespace Sys2Proof.Machine

/-- `t` is `u` with views added to: messages behind those sent, trouble bits, pending vectors and alerts. -/
structure Follows (u t : State) : Prop where
  only : OnlyViews u t
  host : ∃ r, t.host = u.host ++ r
  trouble : ∀ b, u.glb.trouble.getLsbD b = true → t.glb.trouble.getLsbD b = true
  vectors : ∀ v ∈ u.pcie.msixPending, v ∈ t.pcie.msixPending
  alerts : ∀ b, u.smb.alerts.getLsbD b = true → t.smb.alerts.getLsbD b = true

theorem follows_refl (s : State) : Follows s s :=
  ⟨rfl, ⟨[], by simp⟩, fun _ h => h, fun _ h => h, fun _ h => h⟩

theorem follows_trans {s t u : State} (h : Follows s t) (g : Follows t u) : Follows s u := by
  obtain ⟨r, hr⟩ := h.host
  obtain ⟨q, hq⟩ := g.host
  exact ⟨onlyViews_trans h.only g.only, ⟨r ++ q, by rw [hq, hr, List.append_assoc]⟩,
    fun b hb => g.trouble b (h.trouble b hb), fun v hv => g.vectors v (h.vectors v hv),
    fun b hb => g.alerts b (h.alerts b hb)⟩

theorem mem_insertSorted (a : Nat) (l : List Nat) (b : Nat) : b ∈ insertSorted a l ↔ b = a ∨ b ∈ l := by
  induction l with
  | nil => simp [insertSorted]
  | cons c l ih =>
    simp only [insertSorted]
    split
    · simp
    · split
      · rename_i h
        subst h
        simp
      · simp only [List.mem_cons, ih]
        tauto

theorem signal_follows (f v : Nat) (s : State) : Follows s (signal f v s) := by
  refine ⟨signal_views f v s, ?_, ?_, ?_, ?_⟩
  all_goals unfold signal; split
  · exact ⟨[msixMessage s f v], rfl⟩
  · exact ⟨[], by simp⟩
  · exact fun _ h => h
  · exact fun _ h => h
  · exact fun _ h => h
  · exact fun w hw => (mem_insertSorted _ _ _).2 (Or.inr hw)
  · exact fun _ h => h
  · exact fun _ h => h

theorem raise_follows (src : Nat) (s : State) : Follows s (raise src s) := by
  unfold raise
  dsimp only
  split
  · exact follows_refl s
  · generalize s.glb.evtPend.put (src / 32) _ = p
    have h : Follows s { s with glb := { s.glb with evtPend := p } } :=
      ⟨rfl, ⟨[], by simp⟩, fun _ h => h, fun _ h => h, fun _ h => h⟩
    split
    · exact follows_trans h (signal_follows _ _ _)
    · exact h

theorem raiseIf_follows (b : Bool) (src : Nat) (s : State) : Follows s (raiseIf b src s) := by
  unfold raiseIf
  split
  · exact raise_follows _ _
  · exact follows_refl _

theorem settleVf_follows (b : State) (f : Nat) (s : State) : Follows s (settleVf b f s) := by
  unfold settleVf
  dsimp only
  split
  · refine follows_trans ?_ (raiseIf_follows _ _ _)
    split
    · exact follows_refl _
    · exact signal_follows _ _ _
  · exact follows_refl _

theorem settleSmb_follows (b s : State) : Follows s (settleSmb b s) := by
  unfold settleSmb
  dsimp only
  split
  · exact follows_refl _
  · refine ⟨rfl, ⟨[], by simp⟩, fun _ h => h, fun _ h => h, fun i h => ?_⟩
    simp [h]

theorem foldl_follows {α : Type} (f : State → α → State) (h : ∀ s a, Follows s (f s a)) (l : List α) (s : State) :
    Follows s (l.foldl f s) := by
  induction l generalizing s with
  | nil => exact follows_refl s
  | cons a l ih => exact follows_trans (h s a) (ih _)

/-- The end of a command only adds to the views. -/
theorem settle_follows (b s : State) : Follows s (settle b s) := by
  unfold settle
  dsimp only
  refine follows_trans ?_ (settleSmb_follows _ _)
  refine follows_trans ?_ (foldl_follows _ (fun t i => settleVf_follows b (i + 1) t) _ _)
  iterate 12 refine follows_trans ?_ (raiseIf_follows _ _ _)
  refine ⟨rfl, ⟨[], by simp⟩, fun i h => ?_, fun _ h => h, fun _ h => h⟩
  simp [h]

/-- What `run` can do: it answers a state that follows the effect, with the queue and the fuses of before. -/
theorem run_follows (f : State → State) (s : State) :
    ∃ t, run f s = .next t ∧ Follows { f s with pending := s.pending, otp := s.otp } t := by
  refine ⟨_, rfl, ?_⟩
  have h := settle_follows s (f s)
  obtain ⟨r, hr⟩ := h.host
  refine ⟨?_, ⟨r, hr⟩, h.trouble, h.vectors, h.alerts⟩
  have h := h.only
  unfold OnlyViews at *
  conv_lhs => rw [h]

/-- A command whose meaning is `run f` answers a state of which whatever follows the effect has is true. -/
theorem exists_of_run {i : Instr} {f : State → State} {s : State} {P : State → Prop} (h : exec i s = run f s)
    (hp : ∀ t, Follows { f s with pending := s.pending, otp := s.otp } t → P t) : ∃ t, exec i s = .next t ∧ P t := by
  obtain ⟨t, ht, hf⟩ := run_follows f s
  exact ⟨t, h.trans ht, hp t hf⟩

/-- A message that the effect sends is sent. -/
theorem follows_sends {u t : State} (h : Follows u t) {e : Emit} (he : e ∈ u.host) : e ∈ t.host := by
  obtain ⟨r, hr⟩ := h.host
  rw [hr]
  exact List.mem_append_left _ he

section
variable {u t : State} (h : OnlyViews u t)
include h

theorem views_seats : t.seats = u.seats := by rw [h]
theorem views_writer : t.writer = u.writer := by rw [h]
theorem views_ush : t.ush = u.ush := by rw [h]
theorem views_keys : t.keys = u.keys := by rw [h]
theorem views_ten : t.ten = u.ten := by rw [h]
theorem views_box : t.box = u.box := by rw [h]
theorem views_dig : t.dig = u.dig := by rw [h]
theorem views_rng : t.rng = u.rng := by rw [h]
theorem views_til : t.til = u.til := by rw [h]
theorem views_scr : t.scr = u.scr := by rw [h]
theorem views_stg : t.stg = u.stg := by rw [h]
theorem views_twn : t.twn = u.twn := by rw [h]
theorem views_tkb : t.tkb = u.tkb := by rw [h]
theorem views_tmp : t.tmp = u.tmp := by rw [h]
theorem views_lcs : t.lcs = u.lcs := by rw [h]
theorem views_evr : t.evr = u.evr := by rw [h]
theorem views_pwr : t.pwr = u.pwr := by rw [h]
theorem views_otp : t.otp = u.otp := by rw [h]
theorem views_now : t.now = u.now := by rw [h]
theorem views_free : t.free = u.free := by rw [h]
theorem views_counters : t.glb.counters = u.glb.counters := by rw [h]

end

end Sys2Proof.Machine
end

