-- ==== Sys2Proof/Laws/Ops.lean ====
section
/-! SUPPORT. The fields that signals, raised sources and events leave alone, and what the end of a command sends and keeps. -/

namespace Sys2Proof.Machine

section
variable (f v src : Nat) (s : State)

@[simp] theorem signal_seats : (signal f v s).seats = s.seats := by rw [signal_views f v s]
@[simp] theorem signal_writer : (signal f v s).writer = s.writer := by rw [signal_views f v s]
@[simp] theorem signal_ush : (signal f v s).ush = s.ush := by rw [signal_views f v s]
@[simp] theorem signal_keys : (signal f v s).keys = s.keys := by rw [signal_views f v s]
@[simp] theorem signal_ten : (signal f v s).ten = s.ten := by rw [signal_views f v s]
@[simp] theorem signal_box : (signal f v s).box = s.box := by rw [signal_views f v s]
@[simp] theorem signal_dig : (signal f v s).dig = s.dig := by rw [signal_views f v s]
@[simp] theorem signal_rng : (signal f v s).rng = s.rng := by rw [signal_views f v s]
@[simp] theorem signal_til : (signal f v s).til = s.til := by rw [signal_views f v s]
@[simp] theorem signal_scr : (signal f v s).scr = s.scr := by rw [signal_views f v s]
@[simp] theorem signal_stg : (signal f v s).stg = s.stg := by rw [signal_views f v s]
@[simp] theorem signal_twn : (signal f v s).twn = s.twn := by rw [signal_views f v s]
@[simp] theorem signal_tkb : (signal f v s).tkb = s.tkb := by rw [signal_views f v s]
@[simp] theorem signal_tmp : (signal f v s).tmp = s.tmp := by rw [signal_views f v s]
@[simp] theorem signal_lcs : (signal f v s).lcs = s.lcs := by rw [signal_views f v s]
@[simp] theorem signal_evr : (signal f v s).evr = s.evr := by rw [signal_views f v s]
@[simp] theorem signal_pwr : (signal f v s).pwr = s.pwr := by rw [signal_views f v s]
@[simp] theorem signal_otp : (signal f v s).otp = s.otp := by rw [signal_views f v s]
@[simp] theorem signal_now : (signal f v s).now = s.now := by rw [signal_views f v s]
@[simp] theorem signal_free : (signal f v s).free = s.free := by rw [signal_views f v s]
@[simp] theorem signal_order : (signal f v s).order = s.order := by rw [signal_views f v s]
@[simp] theorem signal_pending : (signal f v s).pending = s.pending := by rw [signal_views f v s]
@[simp] theorem raise_seats : (raise src s).seats = s.seats := by rw [raise_views src s]
@[simp] theorem raise_writer : (raise src s).writer = s.writer := by rw [raise_views src s]
@[simp] theorem raise_ush : (raise src s).ush = s.ush := by rw [raise_views src s]
@[simp] theorem raise_keys : (raise src s).keys = s.keys := by rw [raise_views src s]
@[simp] theorem raise_ten : (raise src s).ten = s.ten := by rw [raise_views src s]
@[simp] theorem raise_box : (raise src s).box = s.box := by rw [raise_views src s]
@[simp] theorem raise_dig : (raise src s).dig = s.dig := by rw [raise_views src s]
@[simp] theorem raise_rng : (raise src s).rng = s.rng := by rw [raise_views src s]
@[simp] theorem raise_til : (raise src s).til = s.til := by rw [raise_views src s]
@[simp] theorem raise_scr : (raise src s).scr = s.scr := by rw [raise_views src s]
@[simp] theorem raise_stg : (raise src s).stg = s.stg := by rw [raise_views src s]
@[simp] theorem raise_twn : (raise src s).twn = s.twn := by rw [raise_views src s]
@[simp] theorem raise_tkb : (raise src s).tkb = s.tkb := by rw [raise_views src s]
@[simp] theorem raise_tmp : (raise src s).tmp = s.tmp := by rw [raise_views src s]
@[simp] theorem raise_lcs : (raise src s).lcs = s.lcs := by rw [raise_views src s]
@[simp] theorem raise_evr : (raise src s).evr = s.evr := by rw [raise_views src s]
@[simp] theorem raise_pwr : (raise src s).pwr = s.pwr := by rw [raise_views src s]
@[simp] theorem raise_otp : (raise src s).otp = s.otp := by rw [raise_views src s]
@[simp] theorem raise_now : (raise src s).now = s.now := by rw [raise_views src s]
@[simp] theorem raise_free : (raise src s).free = s.free := by rw [raise_views src s]
@[simp] theorem raise_order : (raise src s).order = s.order := by rw [raise_views src s]
@[simp] theorem raise_pending : (raise src s).pending = s.pending := by rw [raise_views src s]

end

theorem updRing_some {c : Nat} {r : Ring} {f : Ring → Ring} {s : State} (h : s.ush.rings.get? c = some r) :
    updRing c f s = { s with ush := { s.ush with rings := s.ush.rings.put c (f r) } } := by
  simp [updRing, Tab.upd_of_some f h]

theorem updSeat_some {k : Nat} {x : Seat} {f : Seat → Seat} {s : State} (h : s.seats.get? k = some x) :
    updSeat k f s = { s with seats := s.seats.put k (f x) } := by
  simp [updSeat, Tab.upd_of_some f h]

end Sys2Proof.Machine
end

