-- ==== Sys2Proof/Laws/Registers.lean ====
section
/-! SUPPORT. When a PF write reaches its register. -/

namespace Sys2Proof.Machine

theorem dropPair_of_none {b : Nat} {s : State} (h : s.glb.pairs = []) : dropPair b s = s := by
  unfold dropPair
  rw [h]
  rfl

/-- A PF write to a READY device that is not SCRAPPED, with no pair pending, is its register's effect. -/
theorem pfWrite_takes {off : Nat} {f : State → State} {s : State} (h1 : s.pcie.cfgRetry = false) (h2 : lc s ≠ .scrapped)
    (h3 : s.pcie.ready = true) (h4 : s.glb.pairs = []) : pfWrite off f s = f s := by
  simp [pfWrite, pfReach, h1, h2, h3, dropPair_of_none h4]

/-- The same for a guarded pair, which repairs its register's shadow. -/
theorem pfGuarded_takes {off : Nat} {f : State → State} {s : State} (h1 : s.pcie.cfgRetry = false) (h2 : lc s ≠ .scrapped)
    (h3 : s.pcie.ready = true) (h4 : s.glb.pairs = []) :
    pfGuarded off f s = f { s with tmp := { s.tmp with shadowBad := s.tmp.shadowBad.filter fun o => o != off } } := by
  unfold pfGuarded
  rw [pfWrite_takes h1 h2 h3 h4]

/-- A guarded pair completes while no shadow differs: the register takes its value, and nothing else changes. -/
theorem pfGuarded_clean {off : Nat} {f : State → State} {s : State} (h1 : s.pcie.cfgRetry = false) (h2 : lc s ≠ .scrapped)
    (h3 : s.pcie.ready = true) (h4 : s.glb.pairs = []) (h5 : s.tmp.shadowBad = []) : pfGuarded off f s = f s := by
  rw [pfGuarded_takes h1 h2 h3 h4]
  have : ({ s with tmp := { s.tmp with shadowBad := s.tmp.shadowBad.filter fun o => o != off } } : State) = s := by
    have h : (s.tmp.shadowBad.filter fun o => o != off) = s.tmp.shadowBad := by rw [h5]; rfl
    rw [h]
  rw [this]

/-- A write outside the GLB blocks before READY only sets its trouble bit (R55). -/
theorem pfWrite_early {off : Nat} {f : State → State} {s : State} (h1 : s.pcie.cfgRetry = false) (h2 : lc s ≠ .scrapped)
    (h3 : s.pcie.ready = false) (h4 : 2 < blockOf off) : pfWrite off f s = trouble 2 s := by
  simp [pfWrite, pfReach, h1, h2, h3, h4]

/-- Before configuration is answered, a write has no effect. -/
theorem pfWrite_retry {off : Nat} {f : State → State} {s : State} (h : s.pcie.cfgRetry = true) : pfWrite off f s = s := by
  simp [pfWrite, pfReach, h]

end Sys2Proof.Machine
end

