-- ==== Sys2Proof/Tests/Slice0.lean ====
section
/-! SUPPORT. Tests: each check of well-formedness refuses an ill-formed command, single commands on small states, and for every
obligation states and operands that meet its hypotheses. -/

namespace Sys2Proof.Tests

open Sys2Proof Sys2Proof.Machine Sys2Proof.Claims

/-! ### Small states -/

def maskGen : MaskGen := { seeded := true, expired := false, ops := 0, seed := [] }
def serving : Drbg := { live := true, serving := true, requests := 0, reseedTick := 0, deferred := false, pendingBytes := 0,
                         gen := Drbg.first.gen }

/-- The device after READY, its PF a bus master, a DRBG serving, and the masks of two tiles seeded. -/
def live : State :=
  { State.reset with
    pcie := { State.reset.pcie with perstHigh := true, cfgRetry := false, drsSent := true, ready := true, bme := [0, 1] },
    rng := { State.reset.rng with
      katDone := true, insts := serving :: List.replicate 7 Drbg.first, masks := [(0, maskGen), (2, maskGen)] },
    pwr := { State.reset.pwr with vault := true, mains := true, vhold := true, up := true } }

def entry (opc ps : Nat) (args : Nat) : Entry :=
  { ctl := 1, opcode := BitVec.ofNat 16 opc, userTag := 7, keyHandle := 0, paramSet := BitVec.ofNat 16 ps, fragCount := 0,
    inPtr := 0, inLen := 0, outPtr := 0, outCap := 0, auxHandle := 0, opArgs := BitVec.ofNat 128 args,
    inline := zeros 64 }

def row (opc : Nat) : OpEntry := { opcode := opc, pool := 0, cls := 0, vf := true, customer := false, units := List.replicate 16 1 }

/-- A seat of the PF's ring 0 that runs an entry. -/
def seat (e : Entry) (phase : Phase) : Seat :=
  { fn := 0, ring := 0, ringId := 0, seq := 0, index := 0, entry := e, frags := [], table := row e.opc, headers := [],
    pool := some 0, defaults := defaultQuota, quota := defaultQuota, bank := false,
    order := 0, admitTick := 0, phase := phase, demand := 0, outLen := 0, input := none, asked := 0, chunks := [], staged := 0,
    processed := 0, tileA := none, tileB := none, half := false, lease := { group := 0, keccak := 0, sha2 := 0 },
    used := [], runs := [], run := 0, gen := Drbg.first.gen, drbg := 0, drbgInst := 8, drbgLen := 0, noEntropy := false, outcome := none,
    overA := false, overB := false, leaf := none, reserves := false, catchUp := .none, approval := false, pinned := none, pinPages := 0,
    passed := 0, credit := none, leaseWait := false, detached := false, awaits := none, undo := Undo.none,
    ue := none }

/-- A seat that is ready to compute. -/
def ready (e : Entry) : Seat := { seat e .executing with input := some [] }

def ring : Ring :=
  { owner := 0, ringId := 0, log2 := 4, split := true, irqMode := 0, vector := 0, interval := 4, sqBase := 4096,
    cqBase := 8192, expPhase := true, cqPhase := true, sqNext := 0, cqNext := 0, hot := false, reads := 0, stale := 0,
    admitted := 0, completed := 0, stop := none, held := false, frag := none, seq := 0, batch := [] }

/-- The live device with that ring in context 0, and with a seat. -/
def ringed (r : Ring) : State := setRing 0 r live
def seated (x : Seat) : State := setSeat 0 x (ringed ring)

def slot (fam ps usage : Nat) (m : Bytes) : Slot :=
  { gen := 1, owner := 0, family := fam, paramSet := ps, form := 0, usage := usage, origin := 0, exportable := false,
    mirror := false, occupied := true, firstUnit := 0, unitCount := 1, material := m, commitSeq := 0, written := 0 }

def keyed (y : Slot) (x : Seat) : State := { seated x with keys := { live.keys with slots := [(0, y)] } }

/-- An entry whose KEY_HANDLE names slot 0. -/
def withKey (e : Entry) : Entry := { e with keyHandle := 0x10000 }

def stream (st : StreamState) : Stream :=
  { state := st, fn := 0, ringId := 0, alg := 0x0602, chain := [], buffer := [], count := 0, keyed := false,
    serial := 0, dlen := 0, pos := 0 }
def streamed (st : StreamState) (x : Seat) : State := { seated x with dig := { live.dig with streams := [(0, stream st)] } }
def withStream (e : Entry) : Entry := { e with auxHandle := 0x10000 }

def outcomeOk : Outcome := { status := .ok, out := [1, 2], rounds := 0, interval := 500, changes := [] }

/-! ### Well-formedness -/

theorem test_wf_seat : (Instr.dispatch 16384).wf = false := by decide
theorem test_wf_ring : (Instr.usherPoll 16384).wf = false := by decide
theorem test_wf_entry : (Instr.entryRead 0 { entry 0x200 1 0 with inline := [] } false).wf = false := by decide
theorem test_wf_fragments (fs : List Fragment) (h : 1024 < fs.length) : (Instr.fragmentListRead 0 fs).wf = false := by
  show (ringOk 0 && decide (fs.length ≤ 1024)) = false
  rw [decide_eq_false (by omega), Bool.and_false]
theorem test_wf_target : (Instr.dmaReadError (.operand 16384) .ur).wf = false := by decide
theorem test_wf_position : (Instr.understudyIn 32).wf = false := by decide
theorem test_wf_tile : (Instr.understudySelfTest [34]).wf = false := by decide
theorem test_wf_sram : (Instr.sramUe (.streamContext 16384) 0).wf = false := by decide
theorem test_wf_function : (Instr.vfFlr 0).wf = false := by decide
theorem test_wf_vf_count : (Instr.vfEnable true 65536 true).wf = false := by decide
theorem test_wf_vector : (Instr.msixUnmask 0 256).wf = false := by decide
theorem test_wf_doe : (Instr.doeRequest (.ideKeyProg 9 [])).wf = false := by decide
theorem test_wf_smbus : (Instr.smbusWrite ⟨0x58, 0⟩ (zeros 33)).wf = false := by decide
theorem test_wf_word : (Instr.ushBudgetWrite (2 ^ 64)).wf = false := by decide
theorem test_wf_deny : (Instr.stgOverlayVfdenyWrite 64 0).wf = false := by decide
theorem test_wf_token_slot : (Instr.tokenInserted 8).wf = false := by decide
theorem test_wf_lines : (Instr.locateWindowEnd [1] [8]).wf = false := by decide
theorem test_wf_address : (Instr.attach 65536 0).wf = false := by decide
theorem test_wf_channel : (Instr.channelEvent 48).wf = false := by decide
theorem test_wf_source : (Instr.sourceRestart 2).wf = false := by decide
theorem test_wf_block : (Instr.rngBlock 0 { edges := [], a := 0, b := 0 }).wf = false := by decide
theorem test_wf_drbg : (Instr.drbgReseed 8).wf = false := by decide
theorem test_wf_code : (Instr.tokenRefill 65536).wf = false := by decide
theorem test_wf_group : (Instr.glbEvtAck 32 0).wf = false := by decide
theorem test_wf_guard_offset : (Instr.guardedValueWrite 0x800000 4 0).wf = false := by decide
theorem test_wf_width : (Instr.registerWrite (.ctl 0x30) 0 0).wf = false := by decide
theorem test_wf_value : (Instr.registerWrite (.ctl 0x30) 4 (2 ^ 32)).wf = false := by decide
theorem test_wf_guard_block : (Instr.guardPairTimeout 18).wf = false := by decide
theorem test_wf_journal : (Instr.journalFrame { tagOk := true, lenOk := true, reservedOk := true, cseq := 0, fctr := 1 }
    (.partitionErase 1 4097)).wf = false := by decide
theorem test_wf_good : (Instr.entryRead 0 (entry 0x200 1 0) false).wf = true := by decide

/-! ### Reads, layouts, and published answers -/

/-- GLB_ID: PART 5200h, STEPPING B0h, the grade of reset, MAP 01h (R495). -/
theorem test_read_id : (readRequest .ctl 0x0 4 live).1 = .value 0x01B05200 ∧ (readRequest .ctl 0x4 4 live).1 = .value 1 := by decide
/-- An offset with no register reads as zero, and a misaligned read is refused (R41). -/
theorem test_read_nothing : (readRequest .ctl 0x7FFFF8 8 live).1 = .value 0 ∧ (readRequest .ctl 0x2 4 live).1 = .unsupported := by
  decide
/-- Blocks beyond the GLB read as zero before READY (R55). -/
theorem test_read_early : (readRequest .ctl 0x40020 8 State.reset).1 = .value 0 := by decide
/-- DONE of a completion record is bit 15 of CTL (R75). -/
theorem test_record_done (r : Record) : 0x8000 ≤ r.ctl := by simp [Record.ctl, fld]
/-- SHA3-256 of the empty message (FIPS 202's example values). -/
theorem test_sha3 : beNat (digestOf 0x0612 [] 32) = 0xa7ffc6f8bf1ed76651c14756a061d662f580ff4de43b49fa82d80a4b80f8434a := by
  decide +kernel
/-- SHA-256 of "abc" (FIPS 180-4's example). -/
theorem test_sha256 : beNat (digestOf 0x0602 (ascii "abc") 32)
    = 0xba7816bf8f01cfea414140de5dae2223b00361a396177a9cb410ff61f20015ad := by decide +kernel

/-! ### Witnesses: the queue, the fuses, the opcodes -/

theorem witness_EmptyQueueTicks : State.reset.pending = [] := rfl
theorem witness_CommandsComplete : ∀ c e, Instr.pageGrant ≠ .entryRead c e true := by intro _ _ h; cases h
theorem witness_FusePatternKept : FusesFit State.reset.otp ∧ step State.reset = .next (match step State.reset with
    | .next t => t
    | _ => State.reset) := ⟨by unfold FusesFit; decide, rfl⟩
theorem witness_FusesOneWay : programs .pageGrant = false ∧ ∃ t, exec .pageGrant State.reset = .next t := ⟨rfl, _, rfl⟩
theorem witness_OpcodeRowsCompute : opcodeRow (.mlKemKeygen 0) = some (0, 0x200, mlKemKeygen)
    ∧ (seated (ready (entry 0x200 1 0))).seats.get? 0 = some (ready (entry 0x200 1 0))
    ∧ computing (ready (entry 0x200 1 0)) 0x200 = true := ⟨rfl, rfl, by decide⟩
theorem witness_OpcodeRowsCompute_other : ∀ x, State.reset.seats.get? 0 = some x → computing x 0x200 = false := by
  intro x h; cases h
theorem witness_OutcomesAreClean : opcodeRow (.ecdsaVerify 3) = some (3, 0x512, ecdsaVerify) ∧ verifies (.ecdsaVerify 3) = true :=
  ⟨rfl, rfl⟩
theorem witness_FixedIntervals : opcodeRow (.x448 1) = some (1, 0x529, xAgree) ∧ fixedTime (.x448 1) = true
    ∧ (ready (entry 0x529 0 0)).entry = (ready (entry 0x529 0 0)).entry ∧ ([0] : Bytes).length = ([1] : Bytes).length :=
  ⟨rfl, rfl, rfl, rfl⟩
theorem witness_KeysArePlaced : sealedForm (entry 0x200 1 3) = false
    ∧ (bit (bits ((entry 0x200 1 3).arg 0) 6 0) 6 = true → (entry 0x200 1 3).argBit 1 0 = true) := by decide
theorem witness_DecapsulationRejectsImplicitly :
    let x := ready (withKey (entry 0x202 1 0))
    sealedForm x.entry = false ∧ privateKey (keyed (slot 1 1 4 (zeros 64)) x) x 1 = some (slot 1 1 4 (zeros 64)) := by decide
theorem witness_RawResults : (ready (entry 0x780 1 0)).frags.any Fragment.isKey = false
    ∧ word (zeros 7 ++ [3]) 1 0 % 2 = 1 := by decide
theorem witness_RandomReturnsItsReservation : (entry 0x700 0 1).argN 0 4 = 1 ∧ (entry 0x700 0 65536).argN 0 4 = 65536
    ∧ (entry 0x700 0 0).argN 0 4 = 0 ∧ (entry 0x700 0 65537).argN 0 4 = 65537 := by decide
theorem witness_StreamStates :
    let x := ready (withStream (entry 0x601 0 0))
    streamOf (streamed .finished x) x.entry.auxHandle.toNat = some (0, stream .finished)
    ∧ streamOf (streamed .opened x) x.entry.auxHandle.toNat = some (0, stream .opened)
    ∧ fragmentRefused (streamed .opened x) x = false ∧ dlenOk 0x0602 (x.entry.argN 0 4) (2 ^ 32 - 1) = true
    ∧ readArgsBad x.entry 0x0602 = false := by decide
theorem witness_KeysArePlaced_derived :
    let x := ready (withKey (entry 0x103 0x0F01 0x00200008))
    let s := keyed (slot 14 0x0F01 8 (zeros 32)) x
    slotOf s x.entry.keyHandle.toNat = some (0, slot 14 0x0F01 8 (zeros 32))
    ∧ ∃ target key, (keyDerive s x []).changes = [.putKey target key] := ⟨by decide, _, _, rfl⟩

/-! ### Witnesses: rings, staging, dispatch -/

/-- A register write is taken. -/
theorem witness_takes : Takes live := by unfold Takes; decide

def randomEntry : Entry := { entry 0x700 0 16 with outCap := 16 }

theorem witness_RingReads : (ringed ring).ush.rings.get? 0 = some ring ∧ readable (ringed ring) ring = true ∧ ring.hot = false
    ∧ ring.reads = ring.stale ∧ ring.frag = none ∧ readsOut (ringed ring) < 768 := by decide
def reading : Ring := { ring with reads := 2, hot := true }
theorem witness_RingReads_stale : (ringed { reading with stale := 1 }).ush.rings.get? 0 = some { reading with stale := 1 }
    ∧ { reading with stale := 1 }.stale ≠ 0 ∧ (randomEntry.phase = !ring.expPhase) = false := by decide
theorem witness_RingReads_invalid : (ringed reading).ush.rings.get? 0 = some reading ∧ reading.reads ≠ 0 ∧ reading.stale = 0
    ∧ { randomEntry with ctl := 0 }.phase ≠ reading.expPhase := by decide
theorem witness_MalformationHalts : readable (ringed reading) reading = true ∧ randomEntry.phase = reading.expPhase
    ∧ structural (ringed reading) 0 { randomEntry with ctl := 0x11 } = some (1, .reserved) := by decide
theorem witness_RefusedEntriesCompleteAtOnce : structural (ringed reading) 0 (entry 0x700 0 16) = none
    ∧ (planEntry (ringed reading) 0x700 0).isSome = true ∧ (entry 0x700 0 16).fragCount = 0
    ∧ admissionCheck (ringed reading) 0 0 (entry 0x700 0 16) [] = some (.outCapacity, 16) := by decide
theorem witness_AdmittedEntriesTakeASeat : structural (ringed reading) 0 randomEntry = none
    ∧ admissionCheck (ringed reading) 0 0 randomEntry [] = none ∧ ∃ k, freeSeat (ringed reading) 0 = some k := by
  refine ⟨by decide, by decide, ?_⟩
  have h : freeSeat (ringed reading) 0 = pick (ringed reading) ((List.range Config.seatTotal).filter fun k =>
      ((ringed reading).seats.get? k).isNone) := rfl
  rw [h]
  exact pick_some (List.ne_nil_of_mem (a := 0) (by simp [Config.seatTotal]; rfl))
def listed : Entry := { entry 0x610 0x0602 0 with fragCount := 1, inLen := 5, outCap := 32 }
def fragments : List Fragment := [{ address := 0, length := 5, flags := 0 }]
theorem witness_AdmittedEntriesTakeASeat_fragments :
    let r := { reading with frag := some listed }
    readable (ringed r) r = true ∧ fragments.length = listed.fragCount.toNat ∧ fragmentChecks listed fragments = none
    ∧ (planEntry (ringed r) 0x610 0x0602).isSome = true ∧ admissionCheck (ringed r) 0 0 listed fragments = none := by decide
theorem witness_UsherRegisters : (ringed ring).ush.rings.get? 0 = some ring ∧ live.tmp.shadowBad = []
    ∧ (1 : BitVec 64).getLsbD 0 = true := by decide
def based : State := { live with ush := { live.ush with adminSq := 0x10000 } }
theorem witness_UsherRegisters_admin : ringContext based 0 0 = none ∧ (0x12208 : BitVec 64).getLsbD 16 = true
    ∧ (adminSpec based 0x12208).log2 ≠ 0 ∧ ringSetupCheck based (adminSpec based 0x12208) true = none
    ∧ ringSetupCheck based (adminSpec based 0x1001F) true ≠ none ∧ (adminSpec based 0x10000).log2 = 0 := by decide

def staged (e : Entry) : Seat := { seat e .granted with input := some [] }
def oneshot : Entry := { entry 0x610 0x0602 0 with inLen := 5, outCap := 32 }
def modmul : Entry := { entry 0x780 1 0 with inLen := 24, outCap := 8 }
def encaps : Entry := { entry 0x401 1 0 with inLen := 10, outCap := 4096 }

theorem witness_PagesAreGranted : nextGrant (seated (seat randomEntry .waiting)) = some (0, seat randomEntry .waiting) := by
  decide
theorem witness_OperandsAreStaged :
    let x := { seat oneshot .granted with asked := 1 }
    stagingOpen x = true ∧ x.input = none ∧ streamedInput x.header x.entry = false ∧ x.asked ≠ 0
    ∧ ([1, 2, 3, 4, 5] : Bytes).length = hostLen x := by
  decide
theorem witness_OperandsAreStaged_chunks :
    let x := { seat encaps .granted with asked := 2 }
    stagingOpen x = true ∧ streamedInput x.header x.entry = true ∧ x.input = none ∧ x.staged < chunkCount x
    ∧ x.staged < x.processed + 2 ∧ x.staged < x.asked ∧ (zeros 10).length = chunkLen x x.staged
    ∧ canMaster (seated x) x.fn = true := by decide
theorem witness_OperandsAreStaged_full : { seat encaps .executing with staged := 2 }.processed + 2
    ≤ { seat encaps .executing with staged := 2 }.staged := by decide
theorem witness_OperandsAreStaged_processed :
    let x := { seat encaps .executing with staged := 1 }
    x.phase = .executing ∧ x.entry.opc = 0x401 ∧ x.processed < x.staged := by decide
theorem witness_Dispatch : servedNext (seated (staged modmul)) 0 (staged modmul) = true
    ∧ dispatchCheck (seated (staged modmul)) (staged modmul) = none
    ∧ needsPair (staged modmul) = true := by decide
def keyless : Entry := { withKey (entry 0x104 0 0) with keyHandle := 0x20003 }
theorem witness_Dispatch_refused : servedNext (seated (staged keyless)) 0 (staged keyless) = true
    ∧ dispatchCheck (seated (staged keyless)) (staged keyless) = some (.status .keyHandle)
    ∧ (staged keyless).detached = false := by decide
def running : Seat := { ready randomEntry with tileA := some 0, tileB := some 2, outcome := some outcomeOk }
theorem witness_StepsOfARun : { running with catchUp := .advance }.phase = .executing
    ∧ { running with catchUp := .recompute }.phase = .executing ∧ (seated running).scr.sides.get? 0 = none := by decide
theorem witness_MatchingRunsCommit : (seated running).seats.get? 0 = some running ∧ mismatched (seated running) 0 running 5 5 = false
    ∧ sharing (seated running) = false ∧ running.outcome = some outcomeOk ∧ outcomeOk.changes = []
    ∧ unfixedOpcodes.contains running.entry.opc = false := by decide
def loading : Seat := { running with entry := entry 0x030 0 0 }
theorem witness_MatchingRunsCommit_unfixed : unfixedOpcodes.contains loading.entry.opc = true
    ∧ mismatched (seated loading) 0 loading 0 0 = false := by decide
theorem witness_MismatchesRunAgain : mismatched (seated running) 0 running 5 7 = true ∧ running.run < 2
    ∧ (monAt (seated running) 40).stamps.length + 1 < (monAt (seated running) 40).k
    ∧ 2 ≤ { running with run := 2 }.run := by decide

/-! ### Witnesses: tenants, the PCIe controller, the box office -/

/-- The live device with VFs 1 and 2. -/
def vfs : State := { live with pcie := { live.pcie with vfEnable := true, numVfs := 2, ari := true, vfs := 2 } }
def seatedVfs (x : Seat) : State := setSeat 0 x (setRing 0 ring vfs)
def resetting : VfReset := { cause := 0, joined := [], vanishes := false }

theorem witness_VfResets :
    let x := ready (entry 0x012 0 1)
    computing x 0x012 = true ∧ strayHandle x = false ∧ x.entry.argN 0 2 = 1 ∧ fnExists (seatedVfs x) 1 = true
    ∧ (seatedVfs x).ten.resets.get? 1 = none
    ∧ ((seatedVfs x).ten.resets.any fun q => q.2.joined.contains 0) = false := by decide
theorem witness_VfResets_joins :
    let x := ready (entry 0x012 0 1)
    let s := { seatedVfs x with ten := { vfs.ten with resets := [(1, resetting)] } }
    s.ten.resets.get? 1 = some resetting ∧ fnExists s 1 = true ∧ (s.ten.resets.any fun q => q.2.joined.contains 0) = false := by
  decide
/-- The reset of VF 1 that the operation in seat 0 joined. -/
theorem witness_VfResets_complete :
    let x := ready (entry 0x012 0 1)
    let r := { resetting with joined := [0] }
    let s := { seatedVfs x with ten := { vfs.ten with resets := [(1, r)] } }
    s.ten.resets.get? 1 = some r ∧ 0 ∈ r.joined ∧ s.seats.get? 0 = some x ∧ computing x 0x012 = true
    ∧ x.entry.argN 0 2 = 1 ∧ r.cause = 0 ∧ fnExists s 1 = true := by decide
theorem witness_VfResets_flr : fnExists vfs 1 = true ∧ vfs.ten.resets.get? 1 = none := by decide
theorem witness_VfResets_bad : (ready (entry 0x012 0 0)).entry.argN 0 2 = 0 ∧ fnExists vfs 3 = false := by decide
/-- An OP_VF_QUIESCE of VF 1 in seat 0 that waits for seat 1. -/
def quiesceWaiting (x : Seat) : State :=
  setSeat 1 { x with fn := 1 } { seatedVfs x with ten := { vfs.ten with quiesceWaits := [(0, 1)] } }
theorem witness_QuiesceAndMailboxes_waits :
    let x := ready (entry 0x014 0 1)
    let s := quiesceWaiting x
    (s.ten.quiesceWaits.find? fun w => w.1 = 0) = some (0, 1) ∧ (vfs.ten.quiesceWaits.find? fun w => w.1 = 0) = none
    ∧ s.ten.quiesceWaits = [(0, 1)] ∧ s.seats.get? 0 = some x ∧ s.seats.get? 1 = some { x with fn := 1 }
    ∧ quiet { s with seats := s.seats.del 1 } 1 = true := by decide
theorem witness_QuiesceAndMailboxes :
    let x := ready (entry 0x014 0 1)
    computing x 0x014 = true ∧ strayHandle x = false ∧ x.entry.argN 0 2 = 1 ∧ x.entry.argBit 2 0 = false
    ∧ quiet (seatedVfs x) 1 = true ∧ fnExists (seatedVfs x) 1 = true
    ∧ (ready (entry 0x014 0 0x10001)).entry.argBit 2 0 = true
    ∧ quiet (setSeat 1 { x with fn := 1 } (seatedVfs x)) 1 = false
    ∧ Machine.quiescing { seatedVfs x with ten := { vfs.ten with quiescing := [1] } } 1 = true := by decide
def mailed (m : Mailbox) : State := { vfs with ten := { vfs.ten with mail := [(1, m)] } }
theorem witness_QuiesceAndMailboxes_mail : fnExists vfs 1 = true ∧ (mailOf vfs 1).busy = false ∧ (mailOf vfs 1).full = false
    ∧ (mailOf (mailed { mailOf vfs 1 with busy := true }) 1).busy = true
    ∧ (mailOf (mailed { mailOf vfs 1 with full := true }) 1).full = true
    ∧ vfs.ten.mailSel + 1 = 1 ∧ (0x10010 : BitVec 32).getLsbD 16 = true := by decide
theorem witness_BusAndLink : live.pcie.cfgRetry = false ∧ live.pcie.vfEnable = false ∧ fnExists live 0 = true
    ∧ hasVector 0 0 = true := by decide
theorem witness_BusAndLink_ptm :
    let s := { live with pcie := { live.pcie with ptmEnable := true, ptmDialog := true } }
    s.pcie.ptmEnable = true ∧ s.pcie.ptmDialog = true ∧ s.pcie.ptmLost = true ∧ s.pcie.ptmRun = 0
    ∧ { s.pcie with ptmRun := 1 }.ptmRun ≠ 0 ∧ { s.pcie with ptmLost := false }.ptmLost = false := by decide
theorem witness_ResetsOfThePf : live.pcie.perstHigh = true ∧ State.reset.pcie.perstHigh = false := ⟨rfl, rfl⟩
/-- A device whose wipe to SCRAPPED is marked. -/
def scrapped : State := { live with otp := { live.otp with g0 := 0xA5C3, g1 := 0xA5C3, g3 := 0xA5C3, wipe := 0x5A5A } }
def powered : State := { State.reset with pwr := live.pwr }
theorem witness_WayToReady : vaultValid powered = true
    ∧ { powered.pcie with perstHigh := true }.perstHigh = true ∧ powered.pwr.mains = true ∧ powered.pcie.drsSent = false
    ∧ powered.pwr.up = true ∧ powered.pcie.ready = false
    ∧ powered.pcie.perstHigh = false ∧ vaultValid State.reset = false ∧ lc powered ≠ .scrapped
    ∧ { powered.pcie with link := some { speed := 5, lanes := 16 } }.link ≠ none
    ∧ { powered.pcie with cfgRetry := false }.cfgRetry = false := by decide
theorem witness_WayToReady_partner : ({ speed := 3, lanes := 2 } : LinkPartner).speed ≠ 0 ∧ ({ speed := 3, lanes := 2 } : LinkPartner).lanes = 2
    ∧ (∃ l, trainLink live { speed := 3, lanes := 8 } = some l) ∧ lc scrapped = .scrapped := ⟨by decide, by decide, ⟨_, rfl⟩, by decide⟩
def onBus : State := { live with smb := { live.smb with up := true } }
theorem witness_PortsAnswer : onBus.smb.up = true ∧ lc onBus ≠ .scrapped ∧ onBus.smb.hotCompute = false
    ∧ onBus.smb.hotVault = false ∧ (monAt onBus 42).asserted = false := by decide
theorem witness_PortsAnswer_doe : onBus.pcie.cfgRetry = false ∧ onBus.pcie.ready = true ∧ onBus.pcie.spdmSession = false
    ∧ { onBus.pcie with ready := false }.ready = false := by decide
def counting : State := { live with box := { live.box with running := true, enable := true } }
def page : MeterPage :=
  { epoch := 1, start := 0, ending := 5, period := 60, flags := 0, lostFrom := 0,
    counters := [] }
theorem witness_BoxOffice : counting.box.running = true ∧ counting.pcie.ptmLost = true ∧ counting.box.frozen = [] := by decide
theorem witness_BoxOffice_frozen :
    let s := { counting with box := { counting.box with frozen := [page] } }
    s.box.frozen = page :: [] ∧ s.box.frozen ≠ [] ∧ s.box.extended = false ∧ s.pcie.ready = true ∧ s.box.enable = true
    ∧ canMaster s 0 = true ∧ s.box.lostFrom = none := by decide

/-! ### Witnesses: failed reads, the writer, memory errors, tiles, tamper response -/

theorem witness_ReadAndSramErrors : (ringed reading).ush.rings.get? 0 = some reading ∧ reading.stale < reading.reads
    ∧ timeoutOff (ringed reading) 0 = false
    ∧ timeoutOff { ringed reading with pcie := { live.pcie with completionTimeout := [(0, 16)] } } 0 = true
    ∧ ({ reading with frag := some listed } : Ring).frag = some listed := by decide
theorem witness_ReadAndSramErrors_operand : stagingOpen (seat oneshot .granted) = true ∧ (seat oneshot .granted).input = none
    ∧ (seat oneshot .granted).detached = false := by decide
def record : Record :=
  { phase := false, batch := false, scale := false, status := .ok, userTag := 7, outLen := 2, rounds := 0, seatHint := 0,
    epoch := 0, units := 1, exec := 500 }
def item (e : Bool) : Item :=
  { fn := 0, ring := 0, seq := 0, index := 0, seat := some 0, outPtr := 64, out := [1, 2], batchEnd := e, record := record,
    stopped := false }
def written (r : Ring) (e : Bool) : State := { setRing 0 r (seated { running with phase := .committed }) with writer := [item e] }
theorem witness_WriterServesRings : (written ring false).writer.find? (fun j => j.ring = 0) = some (item false)
    ∧ canMaster (written ring false) 0 = true ∧ (item false).record.seatHint ≠ 0xFFFF ∧ (item false).out ≠ []
    ∧ canMaster { written ring false with pcie := { live.pcie with bme := [] } } 0 = false := by decide
def batched (e : Bool) : BatchItem := { seq := 0, index := 0, batchEnd := e, phase := true, done := none }
def inline (e : Bool) : Ring := { ring with split := false, batch := [batched e] }
theorem witness_WriterServesRings_inline : (inline true).split = false ∧ (inline true).batch = [batched true]
    ∧ (batched true).seq = (item true).seq ∧ (batched true).batchEnd = (item true).batchEnd ∧ (item true).batchEnd = true
    ∧ (batched false).batchEnd = (item false).batchEnd ∧ (item false).batchEnd = false := by decide
/-- A batch of two entries, of which the first has its record. -/
def lastOfTwo : Ring := { ring with split := false,
                                    batch := [{ batched false with seq := 1, done := some record }, batched true] }
theorem witness_WriterServesRings_batch :
    let a : BatchItem := { batched false with seq := 1, done := some record }
    lastOfTwo.batch = [a] ++ [batched true] ∧ a.batchEnd = false ∧ a.seq ≠ (item true).seq ∧ a.done ≠ none
    ∧ (written lastOfTwo true).writer.find? (fun j => j.ring = 0) = some (item true)
    ∧ canMaster (written lastOfTwo true) 0 = true := by decide
theorem witness_ReadAndSramErrors_ue : running.phase = .executing ∧ running.tileA = some 0 ∧ running.ue = none
    ∧ (ringed ring).ush.rings.get? 0 = some ring
    ∧ (streamed .opened running).dig.streams.get? 0 = some (stream .opened) := by decide
def replacing : State := { live with til := { live.til with coming := [(32, 3)] } }
theorem witness_TilesComeAndGo : live.til.tiles.length = 34
    ∧ (replacing.til.coming.find? fun c => c.2 = 3) = some (32, 3) ∧ (tileAt replacing 32).state = .understudy
    ∧ (replacing.til.coming.any fun c => c.1 = 33) = false ∧ (tileAt replacing 33).state = .understudy
    ∧ (tileAt live 5).state = .active ∧ (tileAt live 5).busy = 0
    ∧ (tileAt (updTile 5 (fun t => { t with busy := 1 }) live) 5).busy ≠ 0 := by decide
theorem witness_ChannelEvents : monitorsRun live = true ∧ eventChannel 8 = true ∧ live.tmp.mons.length = 48
    ∧ (within (within ((monAt live 8).stamps ++ [live.now]) live.now (2 ^ 24)) live.now (monAt live 8).w).length < (monAt live 8).k := by
  decide
def eager (p : Nat) : State := updMon 8 (fun m => { m with k := 1, policy := p }) live
theorem witness_ChannelEvents_fires : (monAt (eager 3) 8).k
    ≤ (within (within ((monAt (eager 3) 8).stamps ++ [live.now]) live.now (2 ^ 24)) live.now (monAt (eager 3) 8).w).length
    ∧ (monAt (eager 3) 8).policy = 3 ∧ (monAt (eager 2) 8).policy = 2 ∧ (monAt (eager 1) 8).policy ≤ 1
    ∧ (eager 3).tmp.dropTick ≠ some (eager 3).now ∧ (eager 3).tmp.curtainDown = false := by decide
theorem witness_ChannelEvents_level : levelChannel 12 = true ∧ (monAt live 12).asserted = false
    ∧ (monAt (updMon 12 (fun m => { m with asserted := true }) live) 12).asserted = true
    ∧ (monAt (updMon 12 (fun m => { m with asserted := true }) live) 12).heldRaised = false := by decide
theorem witness_ChannelEvents_none : levelChannel 39 = true ∧ live.tmp.pointerBad = false ∧ live.tmp.shadowBad = []
    ∧ { live.tmp with pointerBad := true }.pointerBad = true ∧ eventChannel 12 = false ∧ monitorsRun State.reset = false := by decide
/-- An approval held for an action and an argument. -/
def approved (action : Nat) (arg : Bytes) (s : State) : State :=
  let c : Ceremony := { action := action, arg := padTo 64 arg, nonce := [], deadline := 99, counted := [], own := false }
  { s with tkb := { s.tkb with approval := .held c } }
def sealedDropped : State :=
  { live with tmp := { live.tmp with curtainDown := true }, otp := { live.otp with g0 := 0xA5C3, g1 := 0xA5C3 } }
theorem witness_HoldAndCurtain_approval : raiseBlocked sealedDropped = none ∧ raiseNeedsApproval sealedDropped = true
    ∧ consumeApproval 1 [] sealedDropped = none ∧ (consumeApproval 1 [] (approved 1 [] sealedDropped)).isSome = true
    ∧ raiseBlocked (approved 1 [] sealedDropped) = none ∧ raiseNeedsApproval (approved 1 [] sealedDropped) = true := by decide +kernel
def emptied : State := { live with keys := { live.keys with overwriteBusy := true, slots := [(0, slot 1 1 4 (zeros 64))] } }
theorem witness_HoldAndCurtain_stage3 : emptied.keys.overwriteBusy = true
    ∧ emptied.keys.slots.get? 0 = some (slot 1 1 4 (zeros 64)) ∧ (slot 1 1 4 (zeros 64)).owner ≤ Config.vfTotal := by decide
def dropped : State := { live with tmp := { live.tmp with curtainDown := true, raising := true } }
theorem witness_HoldAndCurtain : holdStands live = false
    ∧ holdStands (updMon 12 (fun m => { m with asserted := true, policy := 2, lastFire := some (0, 2) }) live) = true
    ∧ { live.keys with overwriteBusy := true }.overwriteBusy = true
    ∧ (monAt live 45).policy = 3 ∧ (monAt live 45).k = 1 ∧ (monAt live 45).w = 1 ∧ live.tmp.dropTick ≠ some live.now := by decide
theorem witness_HoldAndCurtain_raise : (∃ r, raiseBlocked { dropped with keys := { live.keys with overwriteBusy := true } } = some r)
    ∧ raiseBlocked { dropped with tmp := { dropped.tmp with raising := false } } = none ∧ raiseNeedsApproval dropped = false
    ∧ dropped.tmp.raising = true ∧ dropped.tmp.curtainDown = true ∧ dropped.keys.overwriteBusy = false
    ∧ (drawBytes 32 dropped).isSome = true := ⟨⟨_, rfl⟩, by decide, by decide, by decide, by decide, by decide, by decide⟩
theorem witness_PoliciesKeepToFloors : 0 < floorOf live 8 ∧ floorOf live 8 ≤ (monAt live 8).policy
    ∧ consumeApproval 8 [byte 8, byte 1] (eager 3) = none ∧ floorOf (eager 3) 8 ≤ 1 ∧ 1 < (monAt (eager 3) 8).policy
    ∧ (0 : BitVec 64).toNat % 256 ≤ (monAt live 8).k ∧ 1 ≤ (monAt live 8).k ∧ (monAt live 8).stamps = []
    ∧ (monAt live 8).w ≤ (0xFFFFFFFF00 : BitVec 64).toNat / 256 % 2 ^ 25 ∧ (monAt live 8).w ≤ 2 ^ 24 := by decide
theorem witness_PoliciesKeepToFloors_approval :
    (consumeApproval 8 [byte 8, byte 1] (approved 8 [8, 1] (eager 3))).isSome = true
    ∧ floorOf (approved 8 [8, 1] (eager 3)) 8 ≤ 1 ∧ 1 < (monAt (approved 8 [8, 1] (eager 3)) 8).policy
    ∧ (consumeApproval 8 [byte 8, byte (monAt (eager 3) 8).policy] (approved 8 [8, 3] (eager 3))).isSome = true
    ∧ (monAt (eager 3) 8).k < max 1 ((9 : BitVec 64).toNat % 256) ∧ (monAt (approved 8 [8, 3] (eager 3)) 8).stamps = [] := by decide +kernel
def unpowered : State := { live with tmp := { live.tmp with onBackup := true, armed := [0] }, keys := { live.keys with mkPresent := true } }
theorem witness_BackupDomain : onBackup unpowered = true ∧ backupArmed unpowered 28 = true ∧ unpowered.tmp.latch.length < 16
    ∧ backupArmed unpowered 21 = false ∧ live.tmp.onBackup = false
    ∧ (List.replicate 16 ({ channel := 28, cleared := false, bclk := 0, unkept := 0 } : Latch)).length = 16 := by decide

/-! ### Witnesses: random numbers, life cycle, the recorder, registers, power -/

def source (st : SrcState) (fails : List Nat) : Source := { Source.first with state := st, fails := fails }
def pooled (n : Nat) : State := { live with rng := { live.rng with pool := zeros n } }
def sourced (st : SrcState) (fails : List Nat) : State :=
  { pooled 50 with rng := { (pooled 50).rng with srcs := [source st fails, Source.first] } }
/-- A block whose oscillators run, whose samples are equal half the time, and whose decimated bits alternate. -/
def goodBlock : RawBlock := { edges := [600], a := BitVec.ofNat 4096 (0xCE31 * ((2 ^ 4096 - 1) / (2 ^ 16 - 1))), b := 0 }
def badBlock : RawBlock := { goodBlock with edges := [100] }
theorem witness_EntropyAndDrbgs_good : blockFail (source .running []) goodBlock = none
    ∧ blockFail { source .startUp [] with runLength := 0 } goodBlock = none := by decide +kernel
theorem witness_EntropyAndDrbgs_bad : blockFail (source .running []) badBlock = some (1, some 0)
    ∧ blockFail { source .startUp [] with runLength := 0 } badBlock = some (1, some 0) := by decide +kernel
theorem witness_EntropyAndDrbgs : (sourced .running []).rng.srcs.length = 2
    ∧ (sourceAt (sourced .running []) 0).state = .running ∧ (sourceAt (sourced .restarting []) 0).state = .restarting
    ∧ (sourceAt (sourced .startUp []) 0).state = .startUp ∧ (sourceAt (sourced .fatal []) 0).state = .fatal
    ∧ (within ([] ++ [0]) 0 1000000).length < 4 ∧ 4 ≤ (within ([0, 0, 0] ++ [0]) 0 1000000).length := by decide
def drbgs (d e : Drbg) (n : Nat) : State :=
  { pooled n with rng := { (pooled n).rng with insts := d :: e :: List.replicate 6 Drbg.first } }
/-- An instance that stopped with its reseed deferred. -/
def stoppedDrbg : Drbg := { serving with serving := false, deferred := true }
theorem witness_EntropyAndDrbgs_instantiate : live.rng.insts.length = 8 ∧ live.rng.katDone = true ∧ live.rng.katFail = false
    ∧ live.lcs.newWanted = false ∧ (instAt (drbgs Drbg.first Drbg.first 75) 0).live = false
    ∧ 512 ≤ poolBits (drbgs Drbg.first Drbg.first 75) ∧ poolBits (drbgs Drbg.first Drbg.first 12) < 512 := by decide
theorem witness_EntropyAndDrbgs_reseed :
    let s := drbgs { serving with requests := 2 ^ 20 } Drbg.first 75
    (instAt s 0).live = true ∧ 2 ^ 20 ≤ (instAt s 0).requests ∧ 384 ≤ poolBits s ∧ reseedTurn s 0 = true
    ∧ poolBits (drbgs serving Drbg.first 12) < 384
    ∧ reseedTurn (drbgs stoppedDrbg stoppedDrbg 75) 1 = false ∧ reseedTurn (drbgs stoppedDrbg stoppedDrbg 75) 0 = true
    ∧ (instAt (drbgs stoppedDrbg stoppedDrbg 75) 0).deferred = true ∧ (instAt live 0).requests < 2 ^ 20
    ∧ live.now < (instAt live 0).reseedTick + 1000000 := by decide
theorem witness_EntropyAndDrbgs_masks : maskOk live (2 * 5 + bnat false) = false ∧ maskOk live (2 * 0 + bnat false) = true
    ∧ servingInst live ≠ none ∧ servingInst (drbgs Drbg.first Drbg.first 0) = none := by decide
def secret : State := { live with otp := { live.otp with makerSecret := List.replicate 32 1 } }
theorem witness_LifeCycle : live.tmp.shadowBad = [] ∧ lc live = .blank ∧ transitionOk live 1 = true ∧ noSecret live 1 = true
    ∧ transitionOk live 2 = false ∧ { live.lcs with transition := .wiping 3 }.transition ≠ .none
    ∧ { live.pwr with pwrfailHigh := false }.pwrfailHigh = false ∧ noSecret secret 1 = false := by decide
/-- A device of a state of the life cycle with the right response to its challenge in LCS_RESP. -/
def answered (s : State) (p t : Nat) : State :=
  let u : State := { s with lcs := { s.lcs with challenge := true, purpose := p, target := t } }
  { u with lcs := { u.lcs with response := Memory.writeN [] 0 (makerResponse u p t) } }
theorem responseOk_of (s : State) (p t : Nat) (h : s.lcs.challenge = true) (hp : s.lcs.purpose = p) (ht : s.lcs.target = t)
    (hr : Memory.readN s.lcs.response 0 32 = makerResponse s p t) : responseOk s p t = true := by
  simp only [responseOk, h, hp, ht, hr, decide_true, Bool.and_self]
theorem read_back (b : Bytes) (hb : b.length = 32) : Memory.readN (Memory.writeN [] 0 b) 0 32 = b := by
  have := memory_readN_writeN b [] 0 (by decide)
  rwa [hb] at this
theorem answered_ok (s : State) (p t : Nat) : responseOk (answered s p t) p t = true := by
  refine responseOk_of _ _ _ rfl rfl rfl ?_
  have e : makerResponse (answered s p t) p t
      = makerResponse { s with lcs := { s.lcs with challenge := true, purpose := p, target := t } } p t := by
    unfold makerResponse; rfl
  rw [e]
  unfold answered
  dsimp only
  exact read_back _ (kmac256_length _ _ _ _)
theorem witness_LifeCycle_response : lc (answered secret 0 1) = .blank ∧ (answered secret 0 1).lcs.transition = .none
    ∧ (answered secret 0 1).pwr.pwrfailHigh = true ∧ noSecret (answered secret 0 1) 1 = false
    ∧ responseOk (answered secret 0 1) 0 1 = true := ⟨by decide, rfl, rfl, by decide, answered_ok _ _ _⟩
def returned : State := { secret with otp := { secret.otp with g0 := 0xA5C3, g1 := 0xA5C3, g2 := 0xA5C3 } }
theorem witness_LifeCycle_unlock : lc returned = .ret ∧ responseOk (answered returned 1 0) 1 0 = true
    ∧ responseOk returned 1 0 = false ∧ lc live ≠ .ret ∧ (1 : BitVec 32).getLsbD 1 = false := by
  exact ⟨by decide, answered_ok _ _ _, by decide, by decide, by decide⟩
def event1 : Evt := mkEvt live 0x0101 1 0 []
def logging (b : List Evt) (n : Nat) : State := { live with evr := { live.evr with buffer := b, flushing := n } }
theorem witness_RecorderRows : (logging [event1, event1] 1).evr.flushing ≠ 0
    ∧ (logging [event1, event1] 1).evr.opening.length + (logging [event1, event1] 1).evr.flushing ≤ 4096
    ∧ (logging [event1, event1] 1).evr.waiting = [] := by decide
theorem witness_RecorderRows_tokens :
    let s : State := { live with evr := { live.evr with buckets := [(5, { tokens := 3, since := 0 })] } }
    s.evr.buckets.get? 5 = some { tokens := 3, since := 0 } ∧ 3 < s.evr.burst := by decide
def pending : State := { live with glb := { live.glb with trouble := 3, evtPend := [(9, 5)], evtEnable := [] } }
theorem witness_GlbRegisters : live.glb.snapBusy = false ∧ { live.glb with snapBusy := true }.snapBusy = true
    ∧ (1 : BitVec 32).getLsbD 0 = true ∧ (1 : BitVec 32).getLsbD 1 = false ∧ pending.glb.trouble.getLsbD 1 = true
    ∧ (5 : BitVec 32) &&& ~~~ (pending.glb.evtEnable.getD 9 0) &&& pending.glb.evtPend.getD 9 0 ≠ 0
    ∧ live.pcie.cfgRetry = false ∧ live.glb.pairs = [] ∧ { live.pcie with ready := false }.ready = false := by decide
theorem witness_GuardedPairs_takes : live.glb.pairs = [] ∧ (7 : Nat) < 2 ^ 32 ∧ (7 : Nat) ≠ 2 ^ 32 - 1 - 5
    ∧ live.tmp.shadowBad = [] := by decide
theorem witness_GuardedPairs : guardedOffsets.contains 0x300008 = true ∧ (2 ^ 32 - 1 - 5 : Nat) ≠ 2 ^ 32 - 1 - 6 := by decide
theorem witness_PowerRows : live.pwr.vault = true ∧ live.twn.state ≠ .pairing ∧ live.pwr.vhold = true ∧ live.pwr.pwrfailHigh = true
    ∧ { live.lcs with transition := .programming 1 0 }.transition = .programming 1 0 ∧ live.otp.g0 = 0 := by decide
theorem witness_PowerRows_held : ∀ p ∈ live.seats, p.2.phase ≠ .held := by intro p h; cases h
theorem witness_PowerRows_up : State.reset.pwr.up = false ∧ State.reset.pwr.vault = false ∧ lc State.reset ≠ .scrapped
    ∧ { live.pwr with pwrfailHigh := false }.pwrfailHigh = false := by decide


/-! ### Witnesses: plans and scripts -/

def plan0 : Plan := { defaultPlan with digest := [], svn := 1, maker := { digest := [], svn := 1, bytes := [0] } }
/-- A bank that is being loaded. -/
theorem witness_PlansAndOverlay_loading :
    let s := { live with stg := { live.stg with loading := [(3, true)] } }
    s.stg.switching = .idle ∧ (∃ l ∈ s.stg.loading, l.2 = bit 1 0) ∧ (∃ l ∈ s.stg.loading, l.2 = (entry 0x031 0 1).argBit 0 0) :=
  ⟨rfl, ⟨_, List.mem_singleton.mpr rfl, by decide⟩, ⟨_, List.mem_singleton.mpr rfl, by decide⟩⟩
def plan1 : Plan := { plan0 with svn := 2, wingsPages := 6000 }
def switchEntry : Entry := entry 0x031 0 1
def staging (w : Switching) (a b : Option Plan) (n : Bool) : State :=
  { seated (ready switchEntry) with stg := { live.stg with
      bankA := a, bankB := b, switching := w, target := true, noPlan := n } }
theorem witness_PlansAndOverlay_request : computing (ready switchEntry) 0x031 = true
    ∧ strayHandle (ready switchEntry) = false
    ∧ (staging .idle (some plan0) (some plan1) false).stg.asker ≠ some 0
    ∧ (staging .idle (some plan0) (some plan1) false).stg.loading = []
    ∧ (staging .checking (some plan0) (some plan1) false).stg.switching ≠ .idle ∧ live.tmp.shadowBad = [] := by decide
theorem witness_PlansAndOverlay_refused : bankCheck (staging .checking (some plan0) none false) true = some 1 := by decide
theorem witness_PlansAndOverlay_check : bankCheck (staging .checking (some plan0) (some plan1) false) true = none
    ∧ bankOf (staging .checking (some plan0) (some plan1) false) true = some plan1
    ∧ pinPagesUsed (staging .checking (some plan0) (some plan1) false) ≤ plan1.pinPages ∧ live.pcie.vfEnable = false
    ∧ (staging .checking (some plan0) (some plan1) false).stg.active ≠ true
    ∧ structuralSwitch (activePlan (staging .checking (some plan0) (some plan1) false)) plan1 = true
    ∧ structuralSwitch (activePlan (staging .checking (some plan0) (some plan0) false)) plan0 = false := by decide
theorem witness_PlansAndOverlay_busy :
    let s := staging .checking (some plan0) (some plan1) false
    let low := { s with pcie := { live.pcie with vfEnable := true, numVfs := 2 }, stg := { s.stg with overlayMax := 1 } }
    low.pcie.vfEnable = true ∧ Nat.min plan1.vfOffer low.stg.overlayMax < low.pcie.numVfs
    ∧ bankCheck low true = none ∧ bankOf low true = some plan1
    ∧ { s.stg with active := true }.active = s.stg.target ∧ s.stg.noPlan = false := by decide
theorem witness_PlansAndOverlay_end : (staging .intermission (some plan0) (some plan1) false).stg.switching = .intermission
    ∧ bankOf (staging .intermission (some plan0) (some plan1) false) true = some plan1 := by decide

/-- An image with one header, for opcode C00h at its full width, of one row; and its one word, which ends the script. -/
def header1 : Bytes := zeros 2 ++ leBytes 2 0xC00 ++ leBytes 2 0xC000 ++ [0, 1] ++ zeros 40 ++ leBytes 2 0xC000 ++ leBytes 2 1 ++ zeros 12
def row1 : Bytes := zeros 4 ++ leBytes 4 200 ++ zeros 56
def image1 : Image :=
  { digest := [], svn := 1,
    bytes := zeros 12 ++ leBytes 4 1 ++ leBytes 2 1 ++ zeros 46 ++ header1 ++ row1 ++ leBytes 4 0xF8000000 ++ zeros 20 }
def plan2 : Plan := { plan0 with customer := some image1 }
def changing (p : Plan) (r : Option Bool) : State :=
  { seated (ready switchEntry) with stg := { live.stg with bankA := some p, active := false },
                                    scr := { live.scr with sceneChange := true, retainBank := r } }
theorem witness_PlansAndOverlay_active : activePlan (changing plan2 none) = some plan2
    ∧ activePlan (changing plan2 (some false)) = some plan2 := ⟨rfl, rfl⟩
theorem witness_PlansAndOverlay_scene : (changing plan2 none).scr.sceneChange = true ∧ (changing plan2 none).scr.retainBank = none
    ∧ (changing plan2 (some false)).scr.retainBank = some false ∧ retainedWords (changing plan2 (some false)) false ≤ 16384
    ∧ live.scr.sceneChange = false ∧ { live.pcie with vfEnable := true }.vfEnable = true := by decide
def customEntry : Entry := entry 0xC00 0 16
def custom : Seat := { ready customEntry with tileA := some 0, tileB := some 2 }
def scripted : State :=
  { seated custom with stg := { live.stg with bankA := some plan2, active := false } }
/-- The same image with a script of 20,000 words, all in its footprint. -/
def wide : Plan :=
  { plan2 with customer := some { image1 with digest := [1], bytes := image1.bytes.take 114 ++ leBytes 2 20000 ++ image1.bytes.drop 116 } }
theorem witness_PlansAndOverlay_full :
    let s : State := { changing wide (some false) with
      seats := [(0, custom)],
      stg := { live.stg with bankA := some wide, bankB := some plan2, active := true } }
    s.scr.retainBank = some false ∧ activePlan s = some plan2 ∧ 16384 < retainedWords s false := by decide +kernel
def h1 : Header := headerAt image1.bytes 64
theorem witness_ScriptsRun : scripted.seats.get? 0 = some custom ∧ runHeader scripted custom = some h1
    ∧ scripting custom h1 = true ∧ headerRow h1 0 = some (0, row1) ∧ isCustomer custom.entry.opc = true
    ∧ computing custom custom.entry.opc = true ∧ custom.noEntropy = false ∧ strayHandle custom = false := by decide
def sides1 : SideState × SideState := sidesOf scripted 0 custom h1
theorem witness_ScriptsRun_issue :
    ((ctxOf scripted custom h1 sides1.1 sides1.2.offers).bind fun c => stepSide c sides1.1).isSome = true
    ∧ ((ctxOf scripted custom h1 sides1.2 sides1.1.offers).bind fun c => stepSide c sides1.2).isSome = true := by decide
/-- A side that has ended issues no further word. -/
def ended1 : State :=
  { scripted with scr := { scripted.scr with sides := [(0, { sides1.1 with ended := .ended }, sides1.2)] } }
theorem witness_ScriptsRun_waits :
    let p := sidesOf ended1 0 custom h1
    (ctxOf ended1 custom h1 p.1 p.2.offers).isSome = true
    ∧ ((ctxOf ended1 custom h1 p.1 p.2.offers).bind fun c => stepSide c p.1).isSome = false := by decide
def side (a : List Nat) : SideState := { sides1.1 with pc := 0xC000, stack := a, lc0 := 2 }
def seq1 (m : Nat) : Seq := { mode := m, cond := 0, neg := false, spare := false, cue := 0, target := 0xC000 }
theorem witness_SequencerRules : condHolds (side []) (seq1 2) = true ∧ (side []).stack.length < 8
    ∧ condHolds (side [0xC001]) (seq1 3) = true ∧ 8 ≤ (side (List.replicate 8 0xC000)).stack.length
    ∧ h1.holds 0xC001 = false ∧ { h1 with footprint := [(0xC000, 2)] }.holds 0xC001 = true := by decide

/-! ### Witnesses: the twin link -/

/-- A device with serial number 5 whose twin has serial number 9, in a state of the link. -/
def twin (w : TwinState) (up session : Bool) : State :=
  { live with otp := { live.otp with serial := 5 },
              twn := { live.twn with record := some { peer := 9, pairId := 3, secret := some [] }, state := w, linkUp := up,
                                     session := session, enable := true } }
/-- The same device, its twin of serial number 2, so that it answers. -/
def answering (w : TwinState) (session : Bool) : State :=
  { twin w true session with twn := { (twin w true session).twn with record := some { peer := 2, pairId := 3, secret := some [] } } }
theorem witness_LinkRows : live.twn.enable = false ∧ (twin .present false true).twn.enable = true
    ∧ (twin .present false true).twn.session = true ∧ (twin .absent false false).twn.session = false := by decide
theorem witness_LinkRows_away : (twin .absent true false).twn.state = .absent ∧ sharing (twin .absent true false) = false := by decide
theorem witness_LinkRows_frames : (twin .present true true).twn.session = true ∧ (twin .present true true).twn.linkUp = true
    ∧ { live.twn.journal with unacked := 4 }.unacked ≠ 0 := by decide
def metering : State := { twin .present true true with box := { live.box with running := true, epoch := 6 } }
theorem witness_LinkRows_snapshot : metering.box.running = true ∧ sharing metering = true
    ∧ metering.twn.checkpoint.unacked < 256 ∧ metering.twn.checkpointQueue = [] := by decide
theorem witness_LinkRows_absent : paired metering = true ∧ metering.twn.state ≠ .pairing ∧ metering.twn.state ≠ .absent
    ∧ metering.twn.state ≠ .diverged := by decide

def hello0 : TwinHello := { serial := 2, pairId := 3, nonce := [1], shares := [2] }
def reply0 : TwinReply := { serial := 9, nonce := [1], shares := [2] }
def auth0 : TwinAuth :=
  { chains := [], signatures := [], lcState := 0, claims := [(1, false, 0, false)], streamCkpt := false, planSync := false,
    contextKey := [] }
theorem witness_Handshakes : (twin .present true true).twn.handshake = .idle ∧ mayHandshake (twin .present true true) = true
    ∧ initiates (twin .present true true) = true ∧ servingInst (twin .present true true) ≠ none
    ∧ sharing (twin .present true true) = true ∧ (twin .absent true false).twn.session = false
    ∧ mayHandshake (twin .absent true false) = true ∧ initiates (twin .absent true false) = true := by decide
theorem witness_Handshakes_hello : mayHandshake (answering .absent false) = true ∧ initiates (answering .absent false) = false
    ∧ expectedPeer (answering .absent false) = some hello0.serial ∧ helloFits (answering .absent false) hello0 = true
    ∧ servingInst (answering .absent false) ≠ none ∧ askerSeat (answering .absent false) = none
    ∧ expectedPeer (answering .absent false) ≠ some { hello0 with serial := 7 }.serial := by decide
def shaking (s : State) (h : Handshake) (rekey : Bool) : State :=
  { s with twn := { s.twn with handshake := h, hello := some hello0, reply := some reply0, rekeying := rekey } }
theorem witness_Handshakes_reply : (shaking (twin .absent true false) .sentHello false).twn.handshake = .sentHello
    ∧ (shaking (twin .absent true false) .sentHello false).twn.hello = some hello0
    ∧ expectedPeer (shaking (twin .absent true false) .sentHello false) = some reply0.serial
    ∧ (twin .absent true false).twn.handshake = .idle ∧ (twin .absent true false).twn.state ≠ .pairing := by decide
theorem witness_Handshakes_other : expectedPeer (shaking (twin .absent true false) .sentHello false)
      ≠ some { reply0 with serial := 7 }.serial
    ∧ askerSeat (shaking (twin .absent true false) .sentHello false) = none := by decide
/-- Function 1 is home here, at the same term: when the other side claims it too, it has diverged. -/
theorem witness_Handshakes_auth : (shaking (answering .absent false) .sentReply false).twn.handshake = .sentReply
    ∧ (shaking (twin .absent true false) .sentAuthI false).twn.handshake = .sentAuthI
    ∧ askerSeat (shaking (answering .absent false) .sentReply false) = none ∧ auth0.claims ≠ []
    ∧ divergedFunctions (shaking (answering .absent false) .sentReply false) auth0 = []
    ∧ divergedFunctions (shaking (answering .absent false) .sentReply false) { auth0 with claims := [(1, true, 0, true)] } ≠ []
    ∧ (shaking (twin .present true true) .sentAuthI true).twn.rekeying = true := by decide

def pairEntry (mode : Nat) : Entry := entry 0x050 0 (mode + 9 * 2 ^ 64)
def pairSeat (mode : Nat) (ok : Bool) : Seat := { ready (pairEntry mode) with approval := ok }
def unpaired (x : Seat) : State :=
  { seated x with otp := { live.otp with serial := 5 }, twn := { live.twn with linkUp := true, enable := true } }
def pairedWith (x : Seat) (session : Bool) : State := { unpaired x with twn := (twin .present true session).twn }
theorem witness_PairingRows : computing (pairSeat 0 true) 0x050 = true ∧ (unpaired (pairSeat 0 true)).twn.asker ≠ some 0
    ∧ pairCheck (unpaired (pairSeat 0 true)) (pairSeat 0 true) = none ∧ (pairSeat 0 true).entry.arg 0 ≠ 2
    ∧ pairCheck (unpaired (pairSeat 2 true)) (pairSeat 2 true) = some .busy
    ∧ pairCheck (pairedWith (pairSeat 2 true) true) (pairSeat 2 true) = none ∧ (pairSeat 2 true).entry.arg 0 = 2
    ∧ mirrorsNamed (pairedWith (pairSeat 2 true) true) = false ∧ (pairSeat 0 true).noEntropy = false
    ∧ strayHandle (pairSeat 0 true) = false
    ∧ paired (pairedWith (pairSeat 0 true) true) = true ∧ (pairSeat 0 false).approval = false := by decide
/-- An operation whose KEY_HANDLE names a mirror slot, beside another seat. -/
def naming (x : Seat) : State :=
  let p := pairedWith x true
  { p with keys := { live.keys with slots := [(0, { slot 1 3 1 (zeros 64) with mirror := true })] },
           seats := p.seats ++ [(1, seat (withKey (entry 0x301 3 0)) .granted)] }
theorem witness_PairingRows_named : computing (pairSeat 2 true) 0x050 = true
    ∧ pairCheck (naming (pairSeat 2 true)) (pairSeat 2 true) = none ∧ mirrorsNamed (naming (pairSeat 2 true)) = true
    ∧ paired (naming (pairSeat 2 true)) = true ∧ (naming (pairSeat 2 true)).twn.session = true := by decide
def restoreSeat : Seat := { ready (entry 0x052 0 (1 + 9 * 2 ^ 64)) with approval := true }
theorem witness_PairingRows_restore : computing restoreSeat 0x052 = true
    ∧ restoreCheck (pairedWith restoreSeat false) restoreSeat = none ∧ (pairedWith restoreSeat false).twn.asker ≠ some 0
    ∧ restoreCheck (pairedWith restoreSeat true) restoreSeat = some .busy := by decide
def pairing (session : Bool) : State :=
  let u := unpaired (pairSeat 0 true)
  { u with twn := { u.twn with asker := some 0, state := .pairing, session := session } }
theorem witness_PairingRows_timeout : (pairing false).twn.asker = some 0 ∧ (pairing false).twn.state = .pairing
    ∧ (pairing false).twn.session = false ∧ (pairing true).twn.session = true := by decide

def adoptSeat (args : Nat) : Seat := ready (entry 0x051 0 args)
def mirroring (x : Seat) (w : TwinState) : State :=
  let p := pairedWith x true
  { p with twn := { p.twn with state := w }, ten := { live.ten with homes := [(1, { twin := true, term := 2, adopted := false })] } }
theorem witness_AdoptionRows : computing (adoptSeat 1) 0x051 = true ∧ paired (unpaired (adoptSeat 1)) = false
    ∧ adoptInputBad (mirroring (adoptSeat 1) .present) (adoptSeat 1) = false
    ∧ (adoptSeat 0x10001).entry.argBit 2 0 = true ∧ (adoptSeat 1).entry.argBit 2 0 = false
    ∧ twinAbsentLive (mirroring (adoptSeat 1) .absent) = true ∧ twinAbsentLive (mirroring (adoptSeat 1) .present) = false
    ∧ adoptTargets (mirroring (adoptSeat 1) .present) 1 = [1] ∧ adoptTargets (mirroring (adoptSeat 2) .present) 2 = []
    ∧ (adoptSeat 1).staged ≠ 1 := by decide
theorem witness_AdoptionRows_asked : { adoptSeat 1 with staged := 1 }.staged = 1
    ∧ adoptTargets (mirroring { adoptSeat 1 with staged := 1 } .present) 1 ≠ []
    ∧ adoptInputBad (mirroring { adoptSeat 1 with staged := 1 } .present) { adoptSeat 1 with staged := 1 } = false := by decide
def generating : Seat := { ready (entry 0x300 3 0) with fn := 1 }
theorem witness_AdoptionRows_request : (homeOf (mirroring (adoptSeat 1) .present) 1).twin = true
    ∧ (homeOf (mirroring generating .present) 0).twin = false ∧ (mirroring generating .present).twn.yielding = []
    ∧ (homeOf (pairedWith generating true) 1).twin = false ∧ changesInFlight (pairedWith generating true) 1 = true
    ∧ changesInFlight (pairedWith generating true) 0 = false ∧ changedApart (pairedWith generating true) 0 = false := by decide

def frame1 : Frame := { tagOk := true, lenOk := true, reservedOk := true, cseq := 0, fctr := 7 }
def forged : Frame := { frame1 with tagOk := false }
def shared : State := twin .present true true
def slotMessage : SlotImage :=
  { index := 3, generation := 1, owner := 0, family := 1, paramSet := 3, form := 0, usage := 1, origin := 0, exportable := false,
    occupied := true, material := zeros 64, heights := [], consts := [], units := 2 }
theorem witness_FramesInTurn : shared.twn.session = true ∧ shared.twn.linkUp = true
    ∧ (!frame1.tagOk || !frame1.lenOk || !frame1.reservedOk || frame1.fctr ≤ shared.twn.fctrRx) = false
    ∧ (!forged.tagOk) = true ∧ shared.twn.tagFails + 1 < 64 ∧ 64 ≤ { shared.twn with tagFails := 63 }.tagFails + 1
    ∧ frame1.cseq = shared.twn.journal.recvSeq ∧ { frame1 with cseq := 1 }.cseq ≠ shared.twn.journal.recvSeq
    ∧ frame1.cseq = shared.twn.checkpoint.recvSeq ∧ sharing shared = true ∧ slotMessage.occupied = true
    ∧ shared.twn.appliedSeq < 4 ∧ 2 ≤ { shared.twn with appliedSeq := 5 }.appliedSeq ∧ shared.twn.yielding = [] := by decide
def beat : Heartbeat :=
  { journalSeq := 0, appliedSeq := 4, ackJournal := 0, ackCheckpoint := 0, lcState := 2, curtainDown := true }
def resending : State :=
  { twin .resending true true with keys := { live.keys with seq := 6 } }
theorem witness_FramesInTurn_heartbeat : resending.keys.ackedSeq < beat.appliedSeq ∧ beat.appliedSeq ≤ resending.keys.seq
    ∧ resending.twn.state = .resending ∧ restoring resending = false ∧ resending.twn.journalQueue = []
    ∧ (resending.twn.journal.acked beat.ackJournal).unacked = 0 := by decide

/-! ### Witnesses: tokens and ceremonies -/

/-- A token identified in slot 2 under address 4, in a state of the bus. -/
def token : TokSlot := { TokSlot.first with state := .identified, present := true, id := some 77, addr := 4 }
def fresh : TokSlot := { TokSlot.first with state := .debouncing, present := true }
def tokens (t : TokSlot) (k : Tkb) : State :=
  { live with tkb := { k with slots := [TokSlot.first, TokSlot.first, t] ++ List.replicate 5 TokSlot.first } }
def bus (b : BusState) : State := tokens token { live.tkb with bus := b, attached := some 4 }
def newcomer (b : BusState) (w : Option (BitVec 128)) (n : Option (BitVec 128 × Nat)) : State :=
  tokens fresh { live.tkb with bus := b, winner := w, naming := n, attached := n.map Prod.snd }
/-- A token's reply to a command. -/
def replyFrame (opc tag param : Nat) : BitVec 48 :=
  let v := opc + 16 + fld tag 5 + fld param 8
  BitVec.ofNat 48 (v + fld (frameCheck v) 40)
theorem witness_TokensAreIdentified : busRuns (bus .idle) = true ∧ (bus .idle).tkb.slots.length = 8
    ∧ (tokAt (bus .idle) 0).present = false ∧ (bus .arbitrating).tkb.bus = .arbitrating
    ∧ (newcomer .idle (some 88) none).tkb.winner = some 88
    ∧ freshAddr (newcomer .idle (some 88) none) 10 (newcomer .idle (some 88) none).tkb.nextAddr = 1
    ∧ replyOk (commandFrame 2 0 1) (replyFrame 2 0 1) = true ∧ frameParam (replyFrame 2 0 1) % 65536 = 1 := by decide +kernel
theorem witness_TokensAreIdentified_attach :
    faultyAddr (tokens { token with state := .faulty } { live.tkb with attached := none }) 4 = true
    ∧ faultyAddr (bus .idle) 4 = false ∧ replyOk (commandFrame 3 0 4) (replyFrame 3 0 0) = true := by decide +kernel
theorem witness_TokensAreIdentified_locate : (newcomer .idle none (some (88, 5))).tkb.naming = some (88, 5)
    ∧ (newcomer .idle none (some (88, 5))).tkb.attached = some 5
    ∧ (newcomer (.located none) none (some (88, 5))).tkb.bus = .located none
    ∧ (tokAt (newcomer (.located none) none (some (88, 5))) 2).present = true
    ∧ (tokAt (newcomer (.located none) none (some (88, 5))) 2).state = .debouncing ∧ ([] : List Nat).length ≠ 1
    ∧ (tokAt (bus .idle) 2).present = true ∧ (tokAt (bus .idle) 2).addr ≠ 0
    ∧ (bus .idle).tkb.attached = some (tokAt (bus .idle) 2).addr := by decide
def reportBytes (m : Nat) : Bytes := leBytes 1 2 ++ leBytes 1 m ++ zeros 1 ++ leBytes 1 254 ++ leBytes 16 77 ++ leBytes 4 9 ++ zeros 8
def phased (b : Bytes) : Bytes := b ++ leBytes 2 (phaseCheck b)
theorem witness_TokenCommands : (bus (.await (commandFrame 4 1 6) 2)).tkb.bus = .await (commandFrame 4 1 6) 2
    ∧ attachedSlot (bus .idle) = some 2 ∧ (tokAt (bus .idle) 2).fallback = false
    ∧ replyOk (commandFrame 4 0 (wantedMode (bus .idle))) (replyFrame 4 0 0) = true
    ∧ replyOk (commandFrame 4 0 (wantedMode (bus .idle))) 0 = false
    ∧ attachedSlot (tokens { token with fallback := true } { live.tkb with attached := some 4 }) = some 2
    ∧ replyOk (commandFrame 8 0 1) (replyFrame 8 0 33) = true ∧ replyOk (commandFrame 8 0 0) (replyFrame 8 0 1) = true := by decide +kernel
theorem witness_TokenCommands_report : phaseBytes (phased (reportBytes 6)) = some (reportBytes 6)
    ∧ reportOk (bus (.modeReport 6)) 2 6 (reportBytes 6) = true ∧ phaseBytes [1, 2, 3] = none := by decide +kernel
theorem witness_TokenCommands_badReport : phaseBytes (phased (reportBytes 5)) = some (reportBytes 5)
    ∧ reportOk (bus (.modeReport 6)) 2 6 (reportBytes 5) = false := by decide +kernel
theorem witness_TokenCommands_restart :
    ((tokens { token with fallback := true } { live.tkb with bus := .modeReport 6, attached := some 4 }).tkb.slots.any
      fun t => t.fallback && t.mode = 0) = true := by decide
theorem witness_TokenBlocks : attachedSlot (bus .idle) = some 2
    ∧ replyOk (commandFrame 6 0 (mkBlock 0 [1, 2]).length) (replyFrame 6 0 6) = true
    ∧ replyOk (commandFrame 7 0 0) (replyFrame 7 0 6) = true ∧ phaseBytes (phased [1, 2, 3]) ≠ none ∧ phaseBytes [1] = none
    ∧ blockPcb (mkBlock 0 [1, 2]) < 0x80 ∧ blockError (mkBlock 0 [1, 2]) = 0 ∧ blockError (mkBlock 0x40 [1, 2]) = 0
    ∧ blockError [1, 2, 3, 4] ≠ 0 ∧ (bus .idle).tkb.faulty < 2 ∧ (bus .idle).tkb.resyncs < 2
    ∧ (bus .idle).tkb.expired = false := by decide +kernel
def sending (b : Bytes) : State := tokens token { live.tkb with attached := some 4, sent := some b, ackPending := true }
theorem witness_TokenBlocks_kinds : (sending (mkBlock 0 [1])).tkb.sent = some (mkBlock 0 [1])
    ∧ blockError (mkBlock 0x90 []) = 0 ∧ blockPcb (mkBlock 0x90 []) = 0x90 ∧ blockError (mkBlock 0x80 []) = 0
    ∧ bit 0x90 4 ≠ bit (blockPcb (mkBlock 0 [1])) 6 ∧ bit 0x80 4 = bit (blockPcb (mkBlock 0 [1])) 6
    ∧ blockError (mkBlock 0xE0 []) = 0 ∧ blockPcb (mkBlock 0xE0 []) = 0xE0 ∧ blockError (mkBlock 0xC0 []) = 0
    ∧ blockPcb (mkBlock 0xC0 []) = 0xC0 ∧ blockError (mkBlock 0xC1 [200]) = 0 ∧ blockPcb (mkBlock 0xC1 [200]) = 0xC1
    ∧ blockInf (mkBlock 0xC1 [200]) = [200] ∧ blockError (mkBlock 0xC2 []) = 0 ∧ blockPcb (mkBlock 0xC2 []) = 0xC2
    ∧ blockError (mkBlock 0xC3 [7]) = 0 ∧ blockPcb (mkBlock 0xC3 [7]) = 0xC3 ∧ blockInf (mkBlock 0xC3 [7]) = [7] := by decide +kernel
theorem witness_TokenBlocks_again : 2 ≤ { live.tkb with faulty := 2 }.faulty ∧ { live.tkb with faulty := 2 }.resyncs < 2
    ∧ 2 ≤ { live.tkb with faulty := 2, resyncs := 2 }.resyncs
    ∧ { live.tkb with expired := true }.expired = true := by decide

def opened (action : Nat) (counted : List Nat) : Ceremony :=
  { action := action, arg := [], nonce := [], deadline := 99, counted := counted, own := false }
def enrolledAs (cert : Bytes) : Tab Enrolled := [(5, { id := 77, keyDigest := keyDigestOf cert })]
def voting (asked : Bool) (m : Nat) (l : List Nat) : State :=
  tokens { token with cert := some [1], asked := asked }
    { live.tkb with attached := some 4, approval := .open (opened 3 l), quorum := m, enrolled := enrolledAs [1] }
theorem witness_Ceremonies : attachedSlot (voting true 1 []) = some 2 ∧ (leBytes 4 9).length = 4
    ∧ (voting true 1 []).tkb.approval = .open (opened 3 []) ∧ (tokAt (voting true 1 []) 2).id = some 77
    ∧ (tokAt (voting true 1 []) 2).cert = some [1] ∧ (tokAt (voting true 1 []) 2).asked = true
    ∧ (tokAt (voting false 1 []) 2).asked = false ∧ (opened 3 []).counted.contains 5 = false ∧ (opened 3 []).action ≤ 8
    ∧ (insertSorted 5 (opened 3 []).counted).length < (voting true 2 []).tkb.quorum
    ∧ (voting true 1 []).tkb.quorum ≤ (insertSorted 5 (opened 3 []).counted).length := by decide
theorem witness_Ceremonies_enrolled :
    ((voting true 1 []).tkb.enrolled.find? fun e => e.2.id = 77) = some (5, { id := 77, keyDigest := keyDigestOf [1] }) := rfl
def ceremony (a : Approval) (action : Nat) (want : Bool) : State :=
  { live with tkb := { live.tkb with approval := a, action := action, startWanted := want } }
theorem witness_Ceremonies_start : approvalReserved (ceremony (.open (opened 3 [])) 3 false) = false
    ∧ (ceremony .none 3 false).tkb.action = 3 ∧ (ceremony .none 13 false).tkb.action = 13
    ∧ approvalReserved (ceremony (.reserved (opened 3 []) 0) 3 true) = true ∧ servingInst (ceremony .none 3 true) ≠ none
    ∧ (ceremony .none 3 true).tkb.startWanted = true ∧ (ceremony (.held (opened 3 [])) 3 true).tkb.approval = .held (opened 3 [])
    ∧ live.tkb.startWanted = false := by decide
theorem witness_Ceremonies_first : (ceremony .none 12 false).tkb.action = 12 ∧ (ceremony .none 12 false).tkb.authority = none
    ∧ servingInst (ceremony .none 3 true) = some 0 := by decide
def quorum (m : Nat) (a : Approval) : State :=
  { live with tkb := { live.tkb with quorum := m, approval := a, enrolled := [(0, { id := 1, keyDigest := [] }), (1, { id := 2, keyDigest := [] })] } }
theorem witness_Ceremonies_quorum : (quorum 1 .none).tkb.quorum < max 1 2 ∧ max 1 2 ≤ (quorum 1 .none).tkb.enrolled.length
    ∧ (quorum 1 .none).tkb.enrolled.length < max 1 3 ∧ max 1 0 < (quorum 2 .none).tkb.quorum
    ∧ consumeApproval 11 [byte 1] (quorum 2 .none) = none
    ∧ (consumeApproval 11 [byte 1] (quorum 2 (.held { opened 11 [] with arg := [1] ++ zeros 63 }))).isSome = true := by decide

/-! ### Witnesses: verification, custody, log reads -/

def verifying (e : Entry) : Seat := ready e
theorem witness_VerificationsAnswer :
    let x := verifying (entry 0x302 0x0101 0)
    (seated x).seats.get? 0 = some x ∧ x.noEntropy = false ∧ strayHandle x = false
    ∧ preHashBad false x.entry = false ∧ computing x 0x302 = true ∧ keySlot (seated x) x = none
    ∧ slhDsa x.entry.ps = some (32, 64, 7856) := by decide
theorem witness_VerificationsAnswer_preHash :
    let x := verifying (withKey (entry 0x304 0x0101 0x010000))
    let s := keyed (slot 5 0x0101 2 (zeros 64)) x
    strayHandle x = false ∧ preHashBad true x.entry = false ∧ computing x 0x304 = true
    ∧ keySlot s x = some (slot 5 0x0101 2 (zeros 64)) ∧ x.entry.keyHandle ≠ 0 := by decide
theorem witness_VerificationsAnswer_mlDsa :
    let x := verifying (entry 0x212 0x0011 0)
    let y := verifying (withKey (entry 0x214 0x0011 0x010000))
    computing x 0x212 = true ∧ strayHandle x = false ∧ keySlot (seated x) x = none
    ∧ mlDsa x.entry.ps = some (1312, 2560, 2420) ∧ computing y 0x214 = true ∧ preHashBad true y.entry = false
    ∧ keySlot (keyed (slot 2 0x0011 2 (zeros 32)) y) y = some (slot 2 0x0011 2 (zeros 32)) := by decide
theorem witness_CustodyOutlivesVfResets : Instr.vfFlr 1 ∈ [.vfFlr 1, .opVfReset 0, .vfEnable false 1 true, .vfResetComplete 1]
    ∧ (streamed .opened (seat randomEntry .waiting)).dig.streams.get? 0 = some (stream .opened) := by decide
def logged : Entry := entry 0x060 0 0x00050000000A
theorem witness_LogReadsKeepToTheirFunction : logged.opc = 0x060 ∧ logged.argN 4 2 = 5 ∧ logged.argBit 6 1 = false
    ∧ servedNext (seated (staged logged)) 0 (staged logged) = true ∧ dispatchCheck (seated (staged logged)) (staged logged) = none
    ∧ (staged logged).run = 0 ∧ computing (verifying logged) 0x060 = true
    ∧ strayHandle (verifying logged) = false := by decide
end Sys2Proof.Tests
end

/-! PROOF. Verification of SLH-DSA (R169) and ML-DSA (R145): what the rows answer. -/

namespace Sys2Proof.Machine

/-! ### What a row that computes leaves in its seat -/

/-- Where the entropy came and no stray handle stands, the outcome settles to itself, but for the interval of the width that
runs. -/
theorem settleOutcome_of_fit {x : Seat} (o : Outcome) (hn : x.noEntropy = false) (hs : strayHandle x = false) :
    settleOutcome x o = { o with interval := onTiles x.half x.entry.opc x.entry.ps o.interval } := by
  simp [settleOutcome, hn, hs]

theorem cacheExpansion_seats (x : Seat) (s : State) : (cacheExpansion x s).seats = s.seats := by
  obtain ⟨c, n, h⟩ := cacheExpansion_frame x s
  rw [h]

/-- A row that computes answers a next state in which its seat holds the settled outcome of the row's function. -/
theorem seat_after_compute {i : Instr} {s : State} {k op : Nat} {x : Seat} {f : State → Seat → Bytes → Outcome}
    (hi : exec i s = run (compute k op f) s) (hx : s.seats.get? k = some x) (hc : computing x op = true) :
    ∃ t, exec i s = .next t
      ∧ t.seats.get? k = some { x with outcome := some (settleOutcome x (f s x (fullInput s x))) } := by
  obtain ⟨t, ht, hv⟩ := run_leads (compute k op f) s
  have hseats : t.seats = (compute k op f s).seats := (onlyViews_parts hv).1
  refine ⟨t, hi.trans ht, ?_⟩
  rw [hseats, compute_of_computing hx hc, cacheExpansion_seats, Tab.get?_put_same]

/-! ### The key of a verification -/

theorem wrongKey_of_noSlot {s : State} {x : Seat} (fam : Nat) (h : keySlot s x = none) : wrongKey s x fam = false := by
  simp [wrongKey, h]

theorem wrongKey_of_fitting {s : State} {x : Seat} {y : Slot} (h : keySlot s x = some y) (hp : y.paramSet = x.entry.ps) :
    wrongKey s x y.family = false := by
  simp [wrongKey, h, hp]

/-- What a verification decides on: PARAM_SET, the public key, the signature, and M′ of the message behind it (R142, R167).
The lengths are those of the set's public key and signature. -/
def verifyArgs (pre : Bool) (s : State) (x : Seat) (input : Bytes) (pk sig : Nat) : List Bytes :=
  let rest := afterKey x input pk
  [tag x.entry.ps, publicKeyOf s x input pk, rest.take sig,
    messagePrime pre (x.entry.arg 0) (x.entry.arg 2) (rest.drop sig)]

/-- With a host key, the key is the first bytes of the input as they are given (R145, R169). -/
theorem verifyArgs_of_hostKey {s : State} {x : Seat} (pre : Bool) (input : Bytes) (pk sig : Nat)
    (h0 : x.entry.keyHandle = 0) (hk : keySlot s x = none) :
    verifyArgs pre s x input pk sig = [tag x.entry.ps, input.take pk, (input.drop pk).take sig,
      messagePrime pre (x.entry.arg 0) (x.entry.arg 2) (input.drop (pk + sig))] := by
  simp [verifyArgs, afterKey, publicKeyOf, h0, hk]

/-- With a slot, the key is the slot's and the input begins with the signature. -/
theorem verifyArgs_of_slotKey {s : State} {x : Seat} {y : Slot} (pre : Bool) (input : Bytes) (pk sig : Nat)
    (h0 : x.entry.keyHandle ≠ 0) (hk : keySlot s x = some y) :
    verifyArgs pre s x input pk sig = [tag x.entry.ps, publicOf s y.family y.paramSet y.form y.material, input.take sig,
      messagePrime pre (x.entry.arg 0) (x.entry.arg 2) (input.drop sig)] := by
  have hrest : afterKey x input pk = input := if_neg h0
  simp [verifyArgs, hrest, publicKeyOf, hk]

/-! ### The verdicts -/

theorem slhVerify_verdict {pre : Bool} {s : State} {x : Seat} {pk sk sig : Nat} (input : Bytes)
    (hd : slhDsa x.entry.ps = some (pk, sk, sig)) (hp : preHashBad pre x.entry = false) (hw : wrongKey s x 5 = false) :
    ∃ iv, slhVerify pre s x input = verdict (Config.primHolds .slhValid (verifyArgs pre s x input pk sig)) iv := by
  simp [slhVerify, verifyArgs, hd, hp, hw]

theorem mlDsaVerify_verdict {pre : Bool} {s : State} {x : Seat} {pk sk sig : Nat} (input : Bytes)
    (hd : mlDsa x.entry.ps = some (pk, sk, sig)) (hp : preHashBad pre x.entry = false) (hw : wrongKey s x 2 = false) :
    ∃ iv, mlDsaVerify pre s x input = verdict (Config.primHolds .mlDsaValid (verifyArgs pre s x input pk sig)) iv := by
  simp [mlDsaVerify, verifyArgs, hd, hp, hw]

theorem exec_slhDsaVerify_form (pre : Bool) (k : Nat) (s : State) :
    exec (if pre then .hashslhDsaVerify k else .slhDsaVerify k) s
      = run (compute k (if pre then 0x304 else 0x302) (slhVerify pre)) s := by
  cases pre <;> rfl

theorem exec_mlDsaVerify_form (pre : Bool) (k : Nat) (s : State) :
    exec (if pre then .hashmlDsaVerify k else .mlDsaVerify k) s
      = run (compute k (if pre then 0x214 else 0x212) (mlDsaVerify pre)) s := by
  cases pre <;> rfl

/-! ### The rows -/

/-- The command answers a next state in which seat `k` holds the verdict: S_OK or S_VERIFY_FAIL, no output and no change. -/
def AnswersVerdict (i : Instr) (s : State) (k : Nat) (valid : Bool) : Prop :=
  ∃ t y o, exec i s = .next t ∧ t.seats.get? k = some y ∧ y.outcome = some o
    ∧ o.status = (if valid then .ok else .verifyFail) ∧ o.out = [] ∧ o.changes = []

theorem answersVerdict_of_row {i : Instr} {s : State} {k op iv : Nat} {x : Seat} {f : State → Seat → Bytes → Outcome}
    {valid : Bool} (hi : exec i s = run (compute k op f) s) (hx : s.seats.get? k = some x) (hn : x.noEntropy = false)
    (hs : strayHandle x = false) (hc : computing x op = true) (hf : f s x (fullInput s x) = verdict valid iv) :
    AnswersVerdict i s k valid := by
  obtain ⟨t, ht, hseat⟩ := seat_after_compute hi hx hc
  refine ⟨t, _, _, ht, hseat, rfl, ?_⟩
  rw [hf, settleOutcome_of_fit _ hn hs]
  exact ⟨rfl, rfl, rfl⟩

/-- A row whose function gives a verdict on `verifyArgs` once the key fits answers that verdict, on the host's key where
KEY_HANDLE is 0 and on the slot's where it names one of the family and set. -/
theorem verification_answers {i : Instr} {s : State} {k op fam pk sig : Nat} {x : Seat} {pre : Bool}
    {f : State → Seat → Bytes → Outcome} {v : Config.Pred} (hi : exec i s = run (compute k op f) s)
    (hx : s.seats.get? k = some x) (hn : x.noEntropy = false) (hs : strayHandle x = false) (hc : computing x op = true)
    (hf : ∀ input, wrongKey s x fam = false →
      ∃ iv, f s x input = verdict (Config.primHolds v (verifyArgs pre s x input pk sig)) iv) :
    let e := x.entry
    let b := fullInput s x
    (e.keyHandle = 0 → keySlot s x = none → AnswersVerdict i s k (Config.primHolds v
      [tag e.ps, b.take pk, (b.drop pk).take sig, messagePrime pre (e.arg 0) (e.arg 2) (b.drop (pk + sig))]))
    ∧ (∀ y, keySlot s x = some y → e.keyHandle ≠ 0 → y.family = fam → y.paramSet = e.ps →
      AnswersVerdict i s k (Config.primHolds v [tag e.ps, publicOf s fam e.ps y.form y.material, b.take sig,
        messagePrime pre (e.arg 0) (e.arg 2) (b.drop sig)])) := by
  refine ⟨fun h0 hk => ?hostKey, fun y hk h0 hfam hps => ?slotKey⟩
  case hostKey =>
    obtain ⟨iv, hv⟩ := hf (fullInput s x) (wrongKey_of_noSlot fam hk)
    rw [verifyArgs_of_hostKey pre _ pk sig h0 hk] at hv
    exact answersVerdict_of_row hi hx hn hs hc hv
  case slotKey =>
    obtain ⟨iv, hv⟩ := hf (fullInput s x) (hfam ▸ wrongKey_of_fitting hk hps)
    rw [verifyArgs_of_slotKey pre _ pk sig h0 hk, hfam, hps] at hv
    exact answersVerdict_of_row hi hx hn hs hc hv

/-- Settles O10: each of the four rows gives a verdict once the key fits, and `verification_answers` says on which key. -/
theorem verificationsAnswer : Obligations.VerificationsAnswer := by
  unfold Obligations.VerificationsAnswer
  intro s k x pre hx hn hs hp
  refine ⟨fun pk sk sig hd hc => ?slh, fun pk sk sig hd hc => ?mlDsa⟩
  case slh =>
    exact verification_answers (exec_slhDsaVerify_form pre k s) hx hn hs hc fun input hw => slhVerify_verdict input hd hp hw
  case mlDsa =>
    exact verification_answers (exec_mlDsaVerify_form pre k s) hx hn hs hc fun input hw => mlDsaVerify_verdict input hd hp hw

end Sys2Proof.Machine


/-! PROOF. Reads of the log (R484, R485): a dispatch takes the records, and OP_LOG_READ gives them. -/

namespace Sys2Proof.Machine

/-! ### The journal engine does not look at the seats -/

/-- The state with another table of seats. -/
def withSeats (t : Tab Seat) (s : State) : State := { s with seats := t }

theorem withSeats_foldl_emit (t : Tab Seat) (l : List JournalMessage) (s : State) :
    l.foldl (fun u m => emit (.twinJournal m) u) (withSeats t s)
      = withSeats t (l.foldl (fun u m => emit (.twinJournal m) u) s) := by
  induction l generalizing s with
  | nil => rfl
  | cons m l ih => exact ih (emit (.twinJournal m) s)

theorem pumpJournal_withSeats (t : Tab Seat) (s : State) : pumpJournal (withSeats t s) = withSeats t (pumpJournal s) := by
  have hsharing : sharing (withSeats t s) = sharing s := rfl
  unfold pumpJournal
  rw [hsharing]
  split
  · rfl
  · dsimp only
    rw [show (withSeats t s).twn = s.twn from rfl, withSeats_foldl_emit]
    rfl

theorem sendJournal_withSeats (t : Tab Seat) (m : JournalMessage) (s : State) :
    sendJournal m (withSeats t s) = withSeats t (sendJournal m s) := by
  unfold sendJournal
  rw [← pumpJournal_withSeats]
  rfl

theorem shareRecord_withSeats (t : Tab Seat) (h : Nat) (m : JournalMessage) (s : State) :
    shareRecord h m (withSeats t s) = withSeats t (shareRecord h m s) := by
  have hpaired : paired (withSeats t s) = paired s := rfl
  unfold shareRecord
  rw [hpaired]
  split
  · rw [← sendJournal_withSeats]
    rfl
  · rfl

theorem carryForward_withSeats (t : Tab Seat) (n fuel : Nat) (s : State) :
    carryForward n fuel (withSeats t s) = withSeats t (carryForward n fuel s) := by
  induction fuel generalizing s with
  | zero => rfl
  | succ fuel ih =>
    have hcand : carryCandidate (withSeats t s) n = carryCandidate s n := rfl
    unfold carryForward
    rw [hcand]
    split
    · rfl
    · dsimp only
      rw [← ih, ← shareRecord_withSeats]
      rfl

theorem deactivate_withSeats (t : Tab Seat) (i : Nat) (s : State) :
    deactivate i (withSeats t s) = withSeats t (deactivate i s) := by
  unfold deactivate recordHead writeRecord
  dsimp only
  simp only [carryForward_withSeats]
  rfl

/-- Writing a key's position to the journal leaves the seats alone. -/
theorem deactivate_seats (i : Nat) (s : State) : (deactivate i s).seats = s.seats := by
  have h := congrArg State.seats (deactivate_withSeats s.seats i s)
  exact h

/-! ### The dispatcher does not look at the credit that its seats were seen to wait for -/

/-- What a seat was seen to wait for is replaced. -/
def recredit (c : Seat → Option (Option Nat × Nat)) (y : Seat) : Seat := { y with credit := c y }

/-- The same for every seat. -/
def recreditAll (c : Seat → Option (Option Nat × Nat)) (s : State) : State :=
  withSeats (s.seats.mapRows fun _ => recredit c) s

/-- The credit of a seat as a dispatch marks it. -/
def creditMark (s : State) (y : Seat) : Option (Option Nat × Nat) :=
  if y.credit.isNone && readyOnCredit s y && !creditFor s y then some (changeSlot y.entry, changeUnits s y.entry)
  else y.credit

theorem markCredit_eq_recreditAll (s : State) : markCredit s = recreditAll (creditMark s) s := by
  unfold markCredit recreditAll withSeats
  congr 2
  funext _ y
  unfold recredit creditMark
  split <;> rfl

/-- The seat of a row is one of `reservers s k x`. -/
def reserverOver (s : State) (k : Nat) (x : Seat) (r : Nat × Seat) : Bool :=
  r.1 != k && 64 ≤ r.2.passed && ready s r.2 && (dispatchCheck s r.2).isNone && (x.passed < 64 || goesBefore s r.2 x)

theorem reservers_eq (s : State) (k : Nat) (x : Seat) :
    reservers s k x = (s.seats.filter (reserverOver s k x)).map Prod.snd := rfl

section
variable (c : Seat → Option (Option Nat × Nat)) (s : State)

theorem recreditAll_seats : (recreditAll c s).seats = s.seats.map fun r => (r.1, recredit c r.2) := rfl

theorem deactivate_recreditAll (i : Nat) : deactivate i (recreditAll c s) = recreditAll c (deactivate i s) := by
  unfold recreditAll
  rw [deactivate_withSeats, deactivate_seats]

theorem idleKey_recreditAll : idleKey (recreditAll c s) = idleKey s := by
  have hnames (i : Nat) : ((recreditAll c s).seats.all fun y => !(namedSlots y.2).contains i)
      = s.seats.all fun y => !(namedSlots y.2).contains i := List.all_map
  simp only [idleKey, hnames]
  rfl

theorem makeRoom_recreditAll (n fuel : Nat) : makeRoom n fuel (recreditAll c s) = recreditAll c (makeRoom n fuel s) := by
  induction fuel generalizing s with
  | zero => rfl
  | succ fuel ih =>
    have hused : entriesUsed (recreditAll c s) = entriesUsed s := rfl
    unfold makeRoom
    rw [hused, idleKey_recreditAll]
    split
    · rfl
    · split
      · rfl
      · rw [deactivate_recreditAll, ih]

theorem noRoom_recreditAll (x : Seat) : noRoom (recreditAll c s) (recredit c x) = noRoom s x := by
  have hused (n fuel : Nat) : entriesUsed (makeRoom n fuel (recreditAll c s)) = entriesUsed (makeRoom n fuel s) := by
    rw [makeRoom_recreditAll]; rfl
  unfold noRoom
  rw [show signingKey (recreditAll c s) (recredit c x) = signingKey s x from rfl]
  simp only [hused]

theorem keptPins_mapRows_recredit (t : Tab Seat) : keptPins (Tab.mapRows t fun _ => recredit c) = keptPins t := by
  induction t with
  | nil => rfl
  | cons r t ih =>
    change keptPins ((r.1, recredit c r.2) :: Tab.mapRows t fun _ => recredit c) = keptPins (r :: t)
    simp only [keptPins, ih]
    rfl

theorem pinPagesUsed_recreditAll : pinPagesUsed (recreditAll c s) = pinPagesUsed s := by
  unfold pinPagesUsed
  rw [show (recreditAll c s).seats = s.seats.mapRows fun _ => recredit c from rfl, keptPins_mapRows_recredit]
  rfl

theorem pagesPinning_recreditAll (i : Nat) : pagesPinning (recreditAll c s) i = pagesPinning s i := by
  unfold pagesPinning
  rw [recreditAll_seats, List.filter_map, List.map_map]
  rfl

theorem pinEnding_recreditAll (x : Seat) : pinEnding (recreditAll c s) (recredit c x) = pinEnding s x := by
  unfold pinEnding pinOutput
  rw [show pinTarget (recreditAll c s) (recredit c x) = pinTarget s x from rfl]
  simp only [pinPagesUsed_recreditAll, pagesPinning_recreditAll]
  rfl

theorem dispatchCheck_recreditAll (x : Seat) : dispatchCheck (recreditAll c s) (recredit c x) = dispatchCheck s x := by
  unfold dispatchCheck
  rw [noRoom_recreditAll, pinEnding_recreditAll]
  rfl

theorem turnCome_recreditAll (x : Seat) : turnCome (recreditAll c s) (recredit c x) = turnCome s x := List.all_map

theorem assemble_recreditAll (host : Bytes) (fs : List Fragment) :
    assemble (recreditAll c s) host fs = assemble s host fs := by
  induction fs generalizing host with
  | nil => rfl
  | cons f fs ih =>
    simp only [assemble, ih]
    rfl

theorem fullInput_recreditAll (x : Seat) : fullInput (recreditAll c s) (recredit c x) = fullInput s x := by
  unfold fullInput
  rw [assemble_recreditAll]
  rfl

theorem changesPartition_recreditAll (x : Seat) :
    changesPartition (recreditAll c s) (recredit c x) = changesPartition s x := by
  unfold changesPartition
  rw [fullInput_recreditAll]
  rfl

theorem partitionHeld_recreditAll (x : Seat) : partitionHeld (recreditAll c s) (recredit c x) = partitionHeld s x := by
  unfold partitionHeld
  rw [changesPartition_recreditAll]
  rfl

theorem ready_recreditAll (x : Seat) : ready (recreditAll c s) (recredit c x) = ready s x := by
  unfold ready readyOnCredit
  rw [turnCome_recreditAll, partitionHeld_recreditAll]
  rfl

theorem reserverOver_recreditAll (k : Nat) (x : Seat) (r : Nat × Seat) :
    reserverOver (recreditAll c s) k (recredit c x) (r.1, recredit c r.2) = reserverOver s k x r := by
  unfold reserverOver
  rw [ready_recreditAll, dispatchCheck_recreditAll]
  rfl

theorem reservers_recreditAll (k : Nat) (x : Seat) :
    reservers (recreditAll c s) k (recredit c x) = (reservers s k x).map (recredit c) := by
  have hsame : reserverOver (recreditAll c s) k (recredit c x) ∘ (fun r : Nat × Seat => (r.1, recredit c r.2))
      = reserverOver s k x := funext (reserverOver_recreditAll c s k x)
  rw [reservers_eq, reservers_eq, recreditAll_seats, List.filter_map, hsame, List.map_map, List.map_map]
  rfl

theorem pairFree_recreditAll (k : Nat) (x : Seat) : pairFree (recreditAll c s) k (recredit c x) = pairFree s k x := by
  unfold pairFree
  rw [reservers_recreditAll, List.filter_map, List.length_map]
  rfl

theorem leaseFree_recreditAll (k : Nat) (x : Seat) : leaseFree (recreditAll c s) k (recredit c x) = leaseFree s k x := by
  unfold leaseFree
  rw [reservers_recreditAll, List.map_map]
  rfl

theorem servable_recreditAll (k : Nat) (x : Seat) : servable (recreditAll c s) k (recredit c x) = servable s k x := by
  unfold servable resourcesFree
  rw [ready_recreditAll, dispatchCheck_recreditAll, pairFree_recreditAll, leaseFree_recreditAll]
  rfl

/-- Marking credit does not change which seat is served next, so a dispatch serves the seat that was next before it. -/
theorem servedNext_recreditAll (k : Nat) (x : Seat) :
    servedNext (recreditAll c s) k (recredit c x) = servedNext s k x := by
  unfold servedNext
  rw [servable_recreditAll, recreditAll_seats,
    List.all_map]
  congr 2
  funext r
  simp only [Function.comp_apply, servable_recreditAll]
  rfl

end

/-! ### What a dispatch leaves of the chunks that a seat holds -/

/-- The chunks that seat `k` holds. -/
def chunksAt (k : Nat) (s : State) : Option Bytes := (s.seats.get? k).map Seat.chunks

theorem chunksAt_of_seats {s t : State} (k : Nat) (h : t.seats = s.seats) : chunksAt k t = chunksAt k s := by
  simp [chunksAt, h]

@[simp] theorem countMaskOp_seats (u : Nat) (s : State) : (countMaskOp u s).seats = s.seats := rfl

@[simp] theorem takeUnit_seats (f : Footprint) (half : Bool) (u : Nat) (s : State) : (takeUnit f half u s).seats = s.seats :=
  rfl

theorem chunksAt_updSeat {f : Seat → Seat} (j k : Nat) (s : State) (hf : ∀ y, (f y).chunks = y.chunks) :
    chunksAt k (updSeat j f s) = chunksAt k s := by
  simp only [chunksAt, updSeat_seats, Tab.get?_upd]
  split <;> cases s.seats.get? k <;> simp [hf]

theorem chunksAt_mapRows {f : Nat → Seat → Seat} (k : Nat) (s : State) (hf : ∀ j y, (f j y).chunks = y.chunks) :
    chunksAt k { s with seats := s.seats.mapRows f } = chunksAt k s := by
  simp only [chunksAt, Tab.get?_mapRows]
  cases s.seats.get? k <;> simp [hf]

section
variable (k j : Nat) (x : Seat) (s : State)

theorem chunksAt_markCredit : chunksAt k (markCredit s) = chunksAt k s := by
  rw [markCredit_eq_recreditAll]
  exact chunksAt_mapRows k s fun _ _ => rfl

theorem chunksAt_passOver : chunksAt k (passOver j x s) = chunksAt k s :=
  chunksAt_mapRows k s fun i y => by split <;> rfl

theorem chunksAt_assignPair : chunksAt k (assignPair j x s) = chunksAt k s := by
  unfold assignPair
  split
  · rfl
  · dsimp only
    rw [chunksAt_updSeat]
    · exact chunksAt_of_seats k (by simp)
    · exact fun _ => rfl

theorem chunksAt_assignLease : chunksAt k (assignLease j x s) = chunksAt k s :=
  chunksAt_updSeat _ _ _ fun _ => rfl

theorem chunksAt_assignDrbg : chunksAt k (assignDrbg j x s) = chunksAt k s := by
  unfold assignDrbg
  split
  · rfl
  · split
    · exact chunksAt_updSeat _ _ _ fun _ => rfl
    · exact chunksAt_updSeat _ _ _ fun _ => rfl

end

/-! ### OP_LOG_READ is given no approval, bank or leaf, and changes no key -/

section
variable {x : Seat} (ho : x.entry.opc = 0x060)
include ho

theorem assignApproval_of_logRead (k : Nat) (s : State) : assignApproval k x s = s := by
  simp [assignApproval, approvalNeeded, ho]

theorem assignBank_of_logRead (k : Nat) (s : State) : assignBank k x s = s := by
  simp [assignBank, ho]

theorem assignLeaf_of_logRead (k : Nat) (s : State) : assignLeaf k x s = s := by
  simp [assignLeaf, signingKey, isStatefulSign, ho]

theorem keyChange_of_logRead : keyChange x.entry = false := by
  simp [keyChange, createsKey, isKeygen, deposits, ho]

/-- The seat holds the log's answer when its run begins. -/
theorem chunksAt_assignLog {k : Nat} {s : State} {y : Seat} (hy : s.seats.get? k = some y) :
    chunksAt k (assignLog k x s) = some (logRead s x.entry) := by
  simp [assignLog, ho, chunksAt, Tab.get?_upd, hy]

theorem chunksAt_beginRun {k : Nat} {s : State} {y : Seat} (hy : s.seats.get? k = some y) :
    chunksAt k (beginRun k x s) = some (logRead s x.entry) := by
  have hbump (b : Bool) (off : Nat) (u : State) : chunksAt k (if b = true then bump off 1 u else u) = chunksAt k u :=
    chunksAt_of_seats k (by split <;> rfl)
  unfold beginRun
  dsimp only
  rw [chunksAt_updSeat, hbump, hbump, keyChange_of_logRead ho, if_neg Bool.false_ne_true, assignLeaf_of_logRead ho,
    chunksAt_assignPair, chunksAt_assignLease, chunksAt_assignDrbg, assignApproval_of_logRead ho,
    assignBank_of_logRead ho, chunksAt_assignLog ho hy]
  exact fun _ => rfl

end

/-! ### DISPATCH of a read -/

/-- The dispatcher's choice has fallen on `x`, and other seats were passed over (R306). -/
def chosen (k : Nat) (x : Seat) (s : State) : State :=
  { passOver k x s with til := { s.til with served := x.fn } }

theorem dispatchSeat_of_first {s : State} {k : Nat} {x : Seat} (hx : s.seats.get? k = some x)
    (hs : servedNext s k x = true) (hd : dispatchCheck s x = none) (hr : x.run = 0) :
    dispatchSeat k s = beginRun k x (chosen k x s) := by
  simp [dispatchSeat, hx, hs, hd, hr, chosen, passOver]

theorem chosen_get? {s : State} {k : Nat} {x : Seat} (hx : s.seats.get? k = some x) :
    ∃ y, (chosen k x s).seats.get? k = some y := by
  simp [chosen, passOver, Tab.get?_mapRows, hx]

/-- After the dispatch of a read that begins, its seat holds the answer of the log as it stood before. -/
theorem exec_dispatch_logRead {s : State} {k : Nat} {x : Seat} (hx : s.seats.get? k = some x)
    (hs : servedNext s k x = true) (hd : dispatchCheck s x = none) (hr : x.run = 0) (ho : x.entry.opc = 0x060) :
    ∃ t y, exec (.dispatch k) s = .next t ∧ t.seats.get? k = some y ∧ y.chunks = logRead s x.entry := by
  let c := creditMark s
  have hmark : markCredit s = recreditAll c s := markCredit_eq_recreditAll s
  have hx' : (recreditAll c s).seats.get? k = some (recredit c x) := by
    simp [recreditAll, withSeats, Tab.get?_mapRows, hx]
  have hbegin : dispatchSeat k (recreditAll c s) = beginRun k (recredit c x) (chosen k (recredit c x) (recreditAll c s)) :=
    dispatchSeat_of_first hx' (by rw [servedNext_recreditAll, hs]) (by rw [dispatchCheck_recreditAll, hd]) hr
  obtain ⟨y', hy'⟩ := chosen_get? hx'
  have hchunks : chunksAt k (markCredit (dispatchSeat k (markCredit s))) = some (logRead s x.entry) := by
    rw [chunksAt_markCredit, hmark, hbegin, chunksAt_beginRun (x := recredit c x) ho hy']
    rfl
  obtain ⟨y, hy, hout⟩ := Option.map_eq_some_iff.1 hchunks
  obtain ⟨t, ht, hv⟩ := run_leads (fun u => markCredit (dispatchSeat k (markCredit u))) s
  exact ⟨t, y, ht, (congrArg (Tab.get? · k) (views_seats hv)).trans hy, hout⟩

/-! ### The answer of the log -/

/-- An answer is a header of 16 bytes and the first of the records found (R484). -/
theorem logAnswer_eq (s : State) (found : List Evt) (fits : Nat) (gap : Bool) :
    ∃ head, logAnswer s found fits gap = head ++ (found.take fits).flatMap Evt.bytes ∧ head.length = 16 :=
  ⟨_, rfl, by simp [leBytes_length]⟩

/-- A read of FUNCTION `f` that names a function answers a header and records of that function (R485). -/
theorem logRead_of_function (s : State) (e : Entry) (hh : e.argBit 6 1 = false) (hf : e.argN 4 2 ≤ 4096) :
    ∃ head, ∃ found : List Evt, logRead s e = head ++ found.flatMap Evt.bytes ∧ head.length = 16
      ∧ ∀ r ∈ found, r ∈ logRecords s ∧ r.fn = e.argN 4 2 := by
  unfold logRead
  dsimp only
  rw [hh, if_neg Bool.false_ne_true]
  split
  case isTrue => exact ⟨_, [], (List.append_nil _).symm, by simp [leBytes_length], by simp⟩
  case isFalse =>
    obtain ⟨head, hanswer, hlen⟩ := logAnswer_eq s _ _ _
    refine ⟨head, _, hanswer, hlen, fun r hr => ?_⟩
    obtain ⟨hfrom, hfn⟩ := List.mem_filter.1 (List.mem_of_mem_take hr)
    constructor
    · split at hfrom
      · exact hfrom
      · exact List.mem_of_mem_filter hfrom
    · have hne : e.argN 4 2 ≠ 0xFFFF := by omega
      simpa [hne] using hfn

/-! ### The entry, and the row -/

/-- An opcode of management on a ring of a VF fails a structural check (R89). -/
theorem structural_of_management (s : State) {f : Nat} {e : Entry} (hf : f ≠ 0) (hm : isManagement e.opc = true) :
    structural s f e ≠ none := by
  unfold structural
  split
  · split <;> simp
  · split
    · simp
    · simp [hf, hm]

/-- OP_LOG_READ gives what its seat was given at dispatch. -/
theorem exec_opLogRead {s : State} {k : Nat} {x : Seat} (hx : s.seats.get? k = some x) (hc : computing x 0x060 = true)
    (hn : x.noEntropy = false) (hs : strayHandle x = false) (hf : x.entry.argN 4 2 ≤ 4096) :
    ∃ t y o, exec (.opLogRead k) s = .next t ∧ t.seats.get? k = some y ∧ y.outcome = some o ∧ o.status = .ok
      ∧ o.out = x.chunks := by
  obtain ⟨t, ht, hseat⟩ := seat_after_compute (i := .opLogRead k) rfl hx hc
  have hdone : logReadOutcome s x (fullInput s x) = done x.chunks 0 [] := if_neg (by omega)
  refine ⟨t, _, _, ht, hseat, rfl, ?_⟩
  rw [hdone, settleOutcome_of_fit _ hn hs]
  exact ⟨rfl, rfl⟩

/-- Settles O45: a VF's entry fails check 3, a dispatch gives the seat the records of its function, and the row returns
them. -/
theorem logReadsKeepToTheirFunction : Obligations.LogReadsKeepToTheirFunction := by
  unfold Obligations.LogReadsKeepToTheirFunction
  refine ⟨fun s f e hf ho => ?entry, fun s k x hx hs hd hr ho hh => ?dispatch, fun s k x hx hc hn hs hf => ?row⟩
  case entry => exact structural_of_management s hf (by rw [ho]; rfl)
  case dispatch =>
    intro f hf
    obtain ⟨t, y, ht, hy, hout⟩ := exec_dispatch_logRead hx hs hd hr ho
    obtain ⟨head, found, hanswer, hlen, hrecords⟩ := logRead_of_function s x.entry hh hf
    exact ⟨t, y, head, found, ht, hy, hout.trans hanswer, hlen, hrecords⟩
  case row => exact exec_opLogRead hx hc hn hs hf

end Sys2Proof.Machine

/-! PROOF. The queue (R478), what every command comes down to, and the fuses of the life cycle (R464, R465). -/

namespace Sys2Proof.Machine

/-! ### Every command is an effect on the state -/

/-- A command that programs no fuse is an effect that leaves queue and fuses alone; the read of a torn entry is none. -/
theorem exec_eq_run (i : Instr) (s : State) (hp : Claims.programs i = false) (ht : ∀ c e, i ≠ .entryRead c e true) :
    ∃ f, exec i s = run f s := by
  cases i with
  | entryRead c e torn =>
    cases torn
    · exact ⟨_, rfl⟩
    · exact absurd rfl (ht c e)
  | lcGroupProgrammed | lcWipeComplete | pwrfailNFall | supplyLoss | backupSwitchover => exact absurd hp (by decide)
  | _ => dsimp only [exec]; exact ⟨_, rfl⟩

/-! ### What a step does to the fuses -/

/-- Fuses programmed only, and only within the pattern of each group. -/
def FusesStep (a b : Otp) : Prop := Claims.FusesGrow a b ∧ (Claims.FusesFit a → Claims.FusesFit b)

theorem bitVec_and_or_self {w : Nat} (g x : BitVec w) : g &&& (g ||| x) = g := by
  ext i h
  simp only [BitVec.getElem_and, BitVec.getElem_or]
  cases g[i] <;> rfl

theorem bitVec_or_and_of_fits {w : Nat} {g x p : BitVec w} (hg : g &&& p = g) (hx : x &&& p = x) :
    (g ||| x) &&& p = g ||| x := by
  ext i h
  have hgi := congrArg (·[i]) hg
  have hxi := congrArg (·[i]) hx
  simp only [BitVec.getElem_and, BitVec.getElem_or] at *
  cases hgb : g[i] <;> cases hxb : x[i] <;> simp_all

theorem fusesStep_refl (o : Otp) : FusesStep o o :=
  ⟨⟨BitVec.and_self, BitVec.and_self, BitVec.and_self, BitVec.and_self, BitVec.and_self, id⟩, id⟩

/-- Bits of its pattern are programmed in group `t`. -/
theorem fusesStep_group (t : Nat) (o : Otp) {x : BitVec 16} (hx : x &&& 0xA5C3 = x) :
    FusesStep o (match t with
      | 1 => { o with g0 := o.g0 ||| x }
      | 2 => { o with g1 := o.g1 ||| x }
      | 3 => { o with g2 := o.g2 ||| x }
      | _ => { o with g3 := o.g3 ||| x }) := by
  split
  all_goals refine ⟨by simp [Claims.FusesGrow, bitVec_and_or_self], fun ⟨h0, h1, h2, h3, hw⟩ => ?_⟩
  · exact ⟨bitVec_or_and_of_fits h0 hx, h1, h2, h3, hw⟩
  · exact ⟨h0, bitVec_or_and_of_fits h1 hx, h2, h3, hw⟩
  · exact ⟨h0, h1, bitVec_or_and_of_fits h2 hx, h3, hw⟩
  · exact ⟨h0, h1, h2, bitVec_or_and_of_fits h3 hx, hw⟩

theorem fillGroup_step (t : Nat) (o : Otp) : FusesStep o (fillGroup t o) := fusesStep_group t o (by decide)

theorem programmedOtp_step (s : State) : FusesStep s.otp (programmedOtp s) := by
  unfold programmedOtp
  split
  · exact fillGroup_step _ _
  · exact fusesStep_refl _

/-- The lowest bits of a group, up to seven of them, lie in its pattern. -/
theorem partBits_fit (n : Nat) : let x := BitVec.ofNat 16 (sumOf (((groupBits.take (1 + n % 7))).map fun b => 2 ^ b))
    x &&& 0xA5C3 = x := by
  have h : ∀ m < 7, let x := BitVec.ofNat 16 (sumOf (((groupBits.take (1 + m))).map fun b => 2 ^ b)); x &&& 0xA5C3 = x := by
    decide
  exact h _ (Nat.mod_lt _ (by decide))

theorem interruptedOtp_step (s : State) : FusesStep s.otp (interruptedOtp s) := by
  unfold interruptedOtp
  split
  · exact fusesStep_group _ _ (partBits_fit _)
  · exact fusesStep_refl _

theorem wipedOtp_step (s : State) : FusesStep s.otp (wipedOtp s) := by
  have mark (x : BitVec 16) (hx : x &&& 0x5A5A = x) (e : Bool) (m : Bytes) (he : s.otp.trimsErased = true → e = true) :
      FusesStep s.otp { s.otp with wipe := s.otp.wipe ||| x, trimsErased := e, makerSecret := m } := by
    refine ⟨?_, fun ⟨h0, h1, h2, h3, hw⟩ => ⟨h0, h1, h2, h3, bitVec_or_and_of_fits hw hx⟩⟩
    simpa [Claims.FusesGrow, bitVec_and_or_self] using he
  unfold wipedOtp
  split
  · split
    · exact mark _ (by decide) _ _ id
    · split
      · exact mark _ (by decide) _ _ fun _ => rfl
      · exact fusesStep_refl _
  · exact fusesStep_refl _

theorem fallOtp_step (s : State) : FusesStep s.otp (fallOtp s) := by
  unfold fallOtp
  split
  · exact fusesStep_refl _
  · exact programmedOtp_step s

theorem supplyOtp_step (s : State) : FusesStep s.otp (supplyOtp s) := by
  unfold supplyOtp
  split
  · exact interruptedOtp_step s
  · exact fusesStep_refl _

theorem switchOtp_step (s : State) : FusesStep s.otp (switchOtp s) := by
  unfold switchOtp
  split
  · exact fusesStep_refl _
  · exact supplyOtp_step s

/-- A command that may program fuses gives them by one function of the state, which programs only, within the patterns. -/
theorem exec_eq_runOtp {i : Instr} (s : State) (hp : Claims.programs i = true) :
    ∃ g f, exec i s = runOtp g f s ∧ FusesStep s.otp (g s) := by
  cases i with
  | lcGroupProgrammed => exact ⟨_, _, rfl, programmedOtp_step s⟩
  | lcWipeComplete => exact ⟨_, _, rfl, wipedOtp_step s⟩
  | pwrfailNFall => exact ⟨_, _, rfl, fallOtp_step s⟩
  | supplyLoss => exact ⟨_, _, rfl, supplyOtp_step s⟩
  | backupSwitchover => exact ⟨_, _, rfl, switchOtp_step s⟩
  | _ => exact absurd hp Bool.false_ne_true

/-- A command that answers a next state is not the read of a torn entry. -/
theorem not_torn_of_next {i : Instr} {s t : State} (h : exec i s = .next t) : ∀ c e, i ≠ .entryRead c e true := by
  rintro c e rfl
  cases h

/-- A command that programs no fuse leaves them as they are. -/
theorem exec_otp_of_not_programs {i : Instr} {s t : State} (hp : Claims.programs i = false) (h : exec i s = .next t) :
    t.otp = s.otp := by
  obtain ⟨f, hf⟩ := exec_eq_run i s hp (not_torn_of_next h)
  exact run_otp (hf.symm.trans h)

theorem exec_fusesStep {i : Instr} {s t : State} (h : exec i s = .next t) : FusesStep s.otp t.otp := by
  cases hp : Claims.programs i with
  | false => exact exec_otp_of_not_programs hp h ▸ fusesStep_refl _
  | true =>
    obtain ⟨g, f, hf, hstep⟩ := exec_eq_runOtp s hp
    exact runOtp_otp (hf.symm.trans h) ▸ hstep

theorem step_fusesStep {s t : State} (h : step s = .next t) : FusesStep s.otp t.otp := by
  unfold step at h
  split at h
  · exact run_otp h ▸ fusesStep_refl _
  · have hstep := exec_fusesStep h
    exact hstep

/-! ### The obligations -/

/-- Settles O4: what a step programs lies within the patterns. -/
theorem fusePatternKept : Obligations.FusePatternKept := fun _ _ hfit h => (step_fusesStep h).2 hfit

/-- Settles O6: a step programs only, and a command outside `programs` touches no fuse. -/
theorem fusesOneWay : Obligations.FusesOneWay :=
  ⟨fun _ _ h => (step_fusesStep h).1, fun _ _ _ hp h =>
    have hotp := exec_otp_of_not_programs hp h
    ⟨hotp, congrArg Otp.lc hotp⟩⟩

/-- Settles O5: every group is blank at reset. -/
theorem fusePatternAtReset : Obligations.FusePatternAtReset := by
  unfold Obligations.FusePatternAtReset Claims.FusesFit
  decide

/-- Settles O1: the queue of a state says which branch of the step is taken. -/
theorem stepTakesFront : Obligations.StepTakesFront := fun _ _ => rfl

/-- Settles O2: the step on an empty queue is the passing of one tick. -/
theorem emptyQueueTicks : Obligations.EmptyQueueTicks := by
  unfold Obligations.EmptyQueueTicks
  intro s hs
  obtain ⟨t, ht, hv⟩ := run_leads endTick s
  have hstep : step s = run endTick s := by simp [step, hs, execTick]
  refine ⟨t, hstep.trans ht, ?_⟩
  have hruns : bnat (s.pwr.vault && s.pwr.mains && s.pwr.vhold && s.pwr.pwrfailHigh)
      = if s.pwr.vault ∧ s.pwr.mains ∧ s.pwr.vhold ∧ s.pwr.pwrfailHigh then 1 else 0 := by
    simp [bnat, and_assoc]
  rw [← hruns]
  exact hv

/-- Settles O3: every command is an effect that keeps the queue, but for the read of a torn entry. -/
theorem commandsComplete : Obligations.CommandsComplete := by
  unfold Obligations.CommandsComplete
  refine ⟨fun i s ht => ?_, fun _ _ _ => rfl⟩
  cases hp : Claims.programs i with
  | false =>
    obtain ⟨f, hf⟩ := exec_eq_run i s hp ht
    exact ⟨_, hf, run_pending rfl⟩
  | true =>
    obtain ⟨g, f, hf, -⟩ := exec_eq_runOtp s hp
    exact ⟨_, hf, runOtp_pending rfl⟩

end Sys2Proof.Machine

/-! PROOF. The rows of the opcodes: what a row comes down to, what it computes (R129, R292, R532), and what an operation that
fails leaves behind (R145, R169, R240, R469, R486). -/

namespace Sys2Proof.Machine

open Claims (opcodeRow verifies FailsClean)

/-! ### The row of an opcode -/

/-- The row of an opcode computes that opcode's function in the seat it names. -/
theorem exec_opcodeRow {i : Instr} {k o : Nat} {f : State → Seat → Bytes → Outcome} (h : opcodeRow i = some (k, o, f))
    (s : State) : exec i s = run (compute k o f) s := by
  cases i <;> cases h <;> rfl

theorem opcodeRow_of_computing {i : Instr} {k o : Nat} {f : State → Seat → Bytes → Outcome}
    (h : opcodeRow i = some (k, o, f)) {s : State} {x : Seat} (hx : s.seats.get? k = some x) (hc : computing x o = true) :
    ∃ cache n, LeadsTo i s { s with
      free := n, keys := { s.keys with cache := cache },
      seats := s.seats.put k { x with outcome := some (settleOutcome x (f s x (fullInput s x))) } } := by
  have hcompute := compute_of_computing (f := f) hx hc
  obtain ⟨c, n, hcache⟩ := cacheExpansion_frame x
    { s with free := s.free + 1,
             seats := s.seats.put k { x with outcome := some (settleOutcome x (f s x (fullInput s x))) } }
  rw [hcache] at hcompute
  exact ⟨c, n, leadsTo_of_run (exec_opcodeRow h s) hcompute rfl rfl⟩

/-- Settles O7: a row is `compute` on its seat. -/
theorem opcodeRowsCompute : Obligations.OpcodeRowsCompute :=
  ⟨fun _ _ _ _ h _ _ hx hc => opcodeRow_of_computing h hx hc,
    fun _ _ _ _ h s hnot => leadsTo_of_run (exec_opcodeRow h s) (compute_of_not hnot) rfl rfl⟩

/-! ### Outcomes that leave nothing behind -/

/-- No output, no change, no rounds. -/
def Silent (o : Outcome) : Prop := o.out = [] ∧ o.changes = [] ∧ o.rounds = 0

theorem silent_ended (st : Status) (iv : Nat) : Silent (ended st iv) := ⟨rfl, rfl, rfl⟩

theorem silent_verdict (ok : Bool) (iv : Nat) : Silent (verdict ok iv) := ⟨rfl, rfl, rfl⟩

theorem silent_ite {c : Prop} [Decidable c] {a b : Outcome} (ha : Silent a) (hb : Silent b) : Silent (if c then a else b) := by
  split
  · exact ha
  · exact hb

theorem Silent.clean {o : Outcome} (h : Silent o) : FailsClean o := by
  obtain ⟨hout, hchanges, -⟩ := h
  intro _
  simp [hout, hchanges]

theorem clean_ended (st : Status) (iv : Nat) : FailsClean (ended st iv) := (silent_ended st iv).clean

theorem clean_done (out : Bytes) (iv : Nat) (cs : List Change) : FailsClean (done out iv cs) := fun h => absurd rfl h

theorem clean_verdict (ok : Bool) (iv : Nat) : FailsClean (verdict ok iv) := (silent_verdict ok iv).clean

/-- Rounds are no trace: they are those drawn before the failure (R154, R155). -/
theorem clean_rounds {o : Outcome} (n : Nat) (h : FailsClean o) : FailsClean { o with rounds := n } := h

theorem clean_interval {o : Outcome} (iv : Nat) (h : FailsClean o) : FailsClean { o with interval := iv } := h

theorem clean_ite {c : Prop} [Decidable c] {a b : Outcome} (ha : FailsClean a) (hb : FailsClean b) :
    FailsClean (if c then a else b) := by
  split
  · exact ha
  · exact hb

theorem clean_withRounds {o : Outcome} (r : Nat × Bool) (h : FailsClean o) : FailsClean (withRounds r o) :=
  clean_ite (clean_rounds _ h) (clean_rounds _ (clean_ended _ _))

theorem clean_keygenOutcome (x : Seat) (fam form : Nat) (m pk : Bytes) (iv : Nat) :
    FailsClean (keygenOutcome x fam form m pk iv) := clean_ite (clean_ended _ _) (clean_done _ _ _)

theorem clean_seedOutcome (s : State) (x : Seat) (fam : Nat) (seed pk : Bytes) (iv : Nat) :
    FailsClean (seedOutcome s x fam seed pk iv) :=
  clean_ite (clean_ite (clean_ended _ _) (clean_done _ _ _)) (clean_keygenOutcome _ _ _ _ _ _)

theorem clean_secretOutcome (x : Seat) (out secret : Bytes) (iv : Nat) : FailsClean (secretOutcome x out secret iv) :=
  clean_ite (clean_done _ _ _) (clean_done _ _ _)

theorem clean_rawOutcome (x : Seat) (iv : Nat) (out : Bytes) : FailsClean (rawOutcome x iv out) :=
  clean_ite (clean_ended _ _) (clean_done _ _ _)

theorem clean_onCurveSlot (s : State) (x : Seat) (iv : Nat) {f : Curve → Outcome} (h : ∀ c, FailsClean (f c)) :
    FailsClean (onCurveSlot s x iv f) := clean_ite (clean_ended _ _) (h _)

theorem clean_onStream (s : State) (x : Seat) {f : Nat → Stream → Outcome} (h : ∀ i t, FailsClean (f i t)) :
    FailsClean (onStream s x f) := by
  unfold onStream
  split
  · exact clean_ended _ _
  · exact h _ _

/-- What is decided for every opcode is decided without a trace. -/
theorem clean_settleOutcome (x : Seat) {o : Outcome} (h : FailsClean o) : FailsClean (settleOutcome x o) :=
  clean_ite (clean_rounds _ (clean_ended _ _)) (clean_ite (clean_rounds _ (clean_ended _ _)) (clean_interval _ h))

/-! ### Verifications are silent -/

section
variable (pre : Bool) (s : State) (x : Seat) (b : Bytes)

theorem mlDsaVerify_silent : Silent (mlDsaVerify pre s x b) :=
  silent_ite (silent_ended _ _) (silent_ite (silent_ended _ _) (silent_verdict _ _))

theorem falconVerify_silent : Silent (falconVerify s x b) :=
  silent_ite (silent_ended _ _) (silent_ite (silent_ended _ _) (silent_verdict _ _))

theorem slhVerify_silent : Silent (slhVerify pre s x b) :=
  silent_ite (silent_ended _ _) (silent_ite (silent_ended _ _) (silent_verdict _ _))

theorem hssVerify_silent : Silent (hssVerify s x b) := by
  unfold hssVerify
  refine silent_ite (silent_ended _ _) ?_
  split
  · exact silent_ended _ _
  · refine silent_ite (silent_ended _ _) ?_
    split
    · exact silent_ended _ _
    · exact silent_verdict _ _

theorem xmssVerify_silent : Silent (xmssVerify s x b) := by
  unfold xmssVerify
  dsimp only
  split
  · exact silent_ended _ _
  · exact silent_ite (silent_ended _ _) (silent_ite (silent_ended _ _) (silent_verdict _ _))

theorem ecdsaVerify_silent : Silent (ecdsaVerify s x b) :=
  silent_ite (silent_ended _ _) (silent_ite (silent_ended _ _) (silent_ite (silent_ended _ _) (silent_verdict _ _)))

theorem eddsaVerify_silent : Silent (eddsaVerify s x b) :=
  silent_ite (silent_ended _ _) (silent_ite (silent_ended _ _) (silent_ite (silent_ended _ _) (silent_verdict _ _)))

end

/-! ### Every opcode fails clean -/

section
variable (s : State) (x : Seat) (b : Bytes)

theorem keyWriteClear_clean : FailsClean (keyWriteClear s x b) :=
  clean_ite (clean_ended _ _) (clean_ite (clean_ended _ _) (clean_ite (clean_ended _ _) (clean_ite (clean_ended _ _)
    (clean_done _ _ _))))

theorem stageLoad_clean (k : Nat) : FailsClean (stageLoad k s x b) := clean_ite (clean_done _ _ _) (clean_ended _ _)

theorem scriptEnroll_clean : FailsClean (scriptEnroll s x b) :=
  clean_ite (clean_ended _ _) (clean_ite (clean_ended _ _) (clean_ite (clean_ended _ _) (clean_ite (clean_ended _ _)
    (clean_ite (clean_ended _ _) (clean_ite (clean_done _ _ _) (clean_done _ _ _))))))

/-- A load that fails a check leaves the event of the rejected curve (R215). -/
theorem curveLoad_clean : FailsClean (curveLoad s x b) := by
  unfold curveLoad
  refine clean_ite (clean_ended _ _) (clean_ite (clean_ended _ _) (clean_ite ?unload (clean_ite (clean_ended _ _) ?load)))
  case unload => exact clean_ite (clean_ended _ _) (clean_done _ _ _)
  case load =>
    split
    · exact fun _ => ⟨by simp [ended], by simp⟩
    · exact clean_done _ _ _

theorem logReadOutcome_clean : FailsClean (logReadOutcome s x b) := clean_ite (clean_ended _ _) (clean_done _ _ _)

/-- A challenge serves one attempt, which a wrong response uses up (R469, R486). -/
theorem logClearOutcome_clean : FailsClean (logClearOutcome s x b) := by
  refine clean_ite (clean_ended _ _) (clean_ite (clean_ite (clean_done _ _ _) (clean_ended _ _))
    (clean_ite (clean_ended _ _) (clean_ite (clean_done _ _ _) ?_)))
  exact fun _ => ⟨by simp [ended], by simp⟩

theorem challengeOutcome_clean : FailsClean (challengeOutcome s x b) := by
  unfold challengeOutcome
  split
  · split
    · exact clean_ended _ _
    · exact clean_done _ _ _
  · exact clean_ite (clean_done _ _ _) (clean_ended _ _)
  · exact clean_ended _ _

theorem rngKat_clean : FailsClean (rngKat s x b) := by
  unfold rngKat
  dsimp only
  split
  · exact clean_done _ _ _
  · exact clean_ite (clean_ended _ _) (clean_done _ _ _)
  · exact clean_done _ _ _
  · exact clean_done _ _ _
  · exact clean_ended _ _

theorem keyGenerate_clean : FailsClean (keyGenerate s x b) := clean_ite (clean_ended _ _) (clean_done _ _ _)

theorem keyImport_clean : FailsClean (keyImport s x b) := by
  unfold keyImport
  dsimp only
  split
  · exact clean_ended _ _
  · split
    · exact clean_ended _ _
    · exact clean_ite (clean_ended _ _) (clean_ite (clean_ended _ _) (clean_ite (clean_ended _ _) (clean_done _ _ _)))

theorem keyExport_clean : FailsClean (keyExport s x b) := by
  unfold keyExport
  dsimp only
  split
  · exact clean_ended _ _
  · split
    · exact clean_ended _ _
    · exact clean_done _ _ _

theorem keyDerive_clean : FailsClean (keyDerive s x b) := by
  refine clean_ite (clean_ended _ _) ?_
  split
  · exact clean_ended _ _
  · exact clean_ite (clean_ended _ _) (clean_ite (clean_ended _ _) (clean_done _ _ _))

theorem keyDestroy_clean : FailsClean (keyDestroy s x b) := by
  unfold keyDestroy
  split
  · exact clean_ended _ _
  · exact clean_done _ _ _

theorem keyAttest_clean : FailsClean (keyAttest s x b) := by
  refine clean_ite (clean_done _ _ _) ?_
  dsimp only
  split
  · exact clean_rounds _ (clean_ended _ _)
  · exact clean_withRounds _ (clean_done _ _ _)

theorem keyPublic_clean : FailsClean (keyPublic s x b) := by
  unfold keyPublic
  split
  · exact clean_ended _ _
  · exact clean_ite (clean_ended _ _) (clean_done _ _ _)

theorem keyInfo_clean : FailsClean (keyInfo s x b) := by
  unfold keyInfo
  dsimp only
  split
  · split
    · exact clean_ended _ _
    · exact clean_done _ _ _
  · exact clean_ite (clean_ended _ _) (clean_done _ _ _)
  · exact clean_done _ _ _
  · exact clean_ended _ _

theorem mlKemKeygen_clean : FailsClean (mlKemKeygen s x b) := clean_seedOutcome _ _ _ _ _ _

theorem mlKemEncaps_clean : FailsClean (mlKemEncaps s x b) :=
  clean_ite (clean_ended _ _) (clean_ite (clean_ended _ _) (clean_secretOutcome _ _ _ _))

theorem mlKemDecaps_clean : FailsClean (mlKemDecaps s x b) := by
  unfold mlKemDecaps
  dsimp only
  split
  · exact clean_ended _ _
  · exact clean_secretOutcome _ _ _ _

theorem mlDsaKeygen_clean : FailsClean (mlDsaKeygen s x b) := clean_keygenOutcome _ _ _ _ _ _

theorem mlDsaSign_clean (pre : Bool) : FailsClean (mlDsaSign pre s x b) :=
  clean_ite (clean_rounds _ (clean_ended _ _)) (clean_ite (clean_rounds _ (clean_ended _ _))
    (clean_withRounds _ (clean_done _ _ _)))

theorem falconKeygen_clean : FailsClean (falconKeygen s x b) :=
  clean_withRounds _ (clean_rounds _ (clean_keygenOutcome _ _ _ _ _ _))

theorem falconSign_clean : FailsClean (falconSign s x b) := by
  unfold falconSign
  dsimp only
  split
  · exact clean_rounds _ (clean_ended _ _)
  · exact clean_withRounds _ (clean_done _ _ _)

theorem hybridKeygen_clean : FailsClean (hybridKeygen s x b) := by
  unfold hybridKeygen
  dsimp only
  split
  · exact clean_ended _ _
  · exact clean_seedOutcome _ _ _ _ _ _

theorem hybridEncaps_clean : FailsClean (hybridEncaps s x b) := by
  unfold hybridEncaps
  dsimp only
  split
  · exact clean_ended _ _
  · refine clean_ite (clean_ended _ _) (clean_ite (clean_ended _ _) ?_)
    split
    · exact clean_ended _ _
    · exact clean_secretOutcome _ _ _ _

theorem hybridDecaps_clean : FailsClean (hybridDecaps s x b) := by
  unfold hybridDecaps
  dsimp only
  split
  · exact clean_ended _ _
  · split
    · exact clean_ended _ _
    · split
      · exact clean_ended _ _
      · exact clean_secretOutcome _ _ _ _

theorem slhKeygen_clean : FailsClean (slhKeygen s x b) := clean_keygenOutcome _ _ _ _ _ _

theorem slhSign_clean (pre : Bool) : FailsClean (slhSign pre s x b) := by
  refine clean_ite (clean_ended _ _) ?_
  split
  · exact clean_ended _ _
  · exact clean_done _ _ _

theorem statefulSignOutcome_clean (fam : Nat) (sig : Stateful → Bytes → Nat → Bytes) :
    FailsClean (statefulSignOutcome fam sig s x b) := by
  unfold statefulSignOutcome
  split
  · exact clean_done _ _ _
  · exact clean_ended _ _

theorem hssKeygen_clean : FailsClean (hssKeygen s x b) := clean_done _ _ _

theorem xmssKeygen_clean : FailsClean (xmssKeygen s x b) := clean_done _ _ _

theorem hssSign_clean : FailsClean (hssSign s x b) := statefulSignOutcome_clean _ _ _ _ _

theorem xmssSign_clean : FailsClean (xmssSign s x b) := statefulSignOutcome_clean _ _ _ _ _

theorem reserveOutcome_clean (fam : Nat) : FailsClean (reserveOutcome fam s x b) := by
  unfold reserveOutcome
  split
  · exact clean_ended _ _
  · split
    · exact clean_ended _ _
    · exact clean_ite (clean_done _ _ _) (clean_ended _ _)

theorem mceKeygen_clean : FailsClean (mceKeygen s x b) :=
  clean_withRounds _ (clean_rounds _ (clean_keygenOutcome _ _ _ _ _ _))

theorem mceEncaps_clean : FailsClean (mceEncaps s x b) :=
  clean_ite (clean_ended _ _) (clean_ite (clean_ended _ _) (clean_secretOutcome _ _ _ _))

theorem mceDecaps_clean : FailsClean (mceDecaps s x b) := by
  unfold mceDecaps
  dsimp only
  split
  · exact clean_ended _ _
  · exact clean_secretOutcome _ _ _ _

theorem mcePin_clean : FailsClean (mcePin s x b) := by
  unfold mcePin
  dsimp only
  split
  · exact clean_ended _ _
  · exact clean_done _ _ _

theorem hqcKeygen_clean : FailsClean (hqcKeygen s x b) := clean_keygenOutcome _ _ _ _ _ _

theorem hqcEncaps_clean : FailsClean (hqcEncaps s x b) :=
  clean_ite (clean_ended _ _) (clean_ite (clean_ended _ _) (clean_secretOutcome _ _ _ _))

theorem hqcDecaps_clean : FailsClean (hqcDecaps s x b) := by
  unfold hqcDecaps
  dsimp only
  split
  · exact clean_ended _ _
  · exact clean_secretOutcome _ _ _ _

theorem rsaKeygen_clean : FailsClean (rsaKeygen s x b) := by
  refine clean_ite (clean_rounds _ (clean_ended _ _)) ?_
  dsimp only
  split
  · exact clean_rounds _ (clean_ended _ _)
  · exact clean_rounds _ (clean_keygenOutcome _ _ _ _ _ _)

theorem rsaDecoded_clean (l : Nat) (m label c : Bytes) (em iv : Nat) : FailsClean (rsaDecoded s x l m label c em iv) := by
  refine clean_ite ?pkcs1 ?oaep
  case pkcs1 =>
    split
    · exact clean_done _ _ _
    · exact clean_done _ _ _
  case oaep =>
    split
    · exact clean_done _ _ _
    · exact clean_ended _ _

theorem rsaPrivate_clean : FailsClean (rsaPrivate s x b) := by
  refine clean_ite (clean_ended _ _) ?_
  split
  · exact clean_ended _ _
  · exact clean_ite (clean_done _ _ _) (clean_ite (clean_ended _ _) (clean_ite (clean_done _ _ _)
      (rsaDecoded_clean _ _ _ _ _ _ _ _)))

theorem rsaPublic_clean : FailsClean (rsaPublic s x b) := by
  refine clean_ite (clean_ended _ _) (clean_ite (clean_ended _ _) (clean_ite (clean_ended _ _) ?_))
  dsimp only
  split
  · exact clean_ite (clean_ended _ _) (clean_done _ _ _)
  · exact clean_done _ _ _
  · exact clean_done _ _ _
  · exact clean_ite (clean_ended _ _) (clean_verdict _ _)

theorem ecdsaKeygen_clean : FailsClean (ecdsaKeygen s x b) :=
  clean_onCurveSlot _ _ _ fun _ => clean_keygenOutcome _ _ _ _ _ _

theorem ecdsaSign_clean : FailsClean (ecdsaSign s x b) := by
  refine clean_onCurveSlot _ _ _ fun c => clean_ite (clean_ended _ _) ?_
  split
  · exact clean_ended _ _
  · exact clean_ite (clean_ended _ _) (clean_done _ _ _)

theorem ecdhAgree_clean : FailsClean (ecdhAgree s x b) := by
  refine clean_onCurveSlot _ _ _ fun c => ?_
  split
  · exact clean_ended _ _
  · refine clean_ite (clean_ended _ _) ?_
    split
    · exact clean_ended _ _
    · exact clean_secretOutcome _ _ _ _

theorem eddsaKeygen_clean : FailsClean (eddsaKeygen s x b) := clean_keygenOutcome _ _ _ _ _ _

theorem eddsaSign_clean : FailsClean (eddsaSign s x b) := by
  refine clean_ite (clean_ended _ _) ?_
  split
  · exact clean_ended _ _
  · exact clean_done _ _ _

theorem xAgree_clean : FailsClean (xAgree s x b) := by
  refine clean_ite (clean_ite (clean_ended _ _) (clean_done _ _ _)) (clean_ite (clean_ended _ _) ?_)
  split
  · exact clean_ended _ _
  · exact clean_ite (clean_ended _ _) (clean_secretOutcome _ _ _ _)

theorem streamOpen_clean : FailsClean (streamOpen s x b) := clean_ite (clean_ended _ _) (clean_done _ _ _)

theorem streamAbsorb_clean : FailsClean (streamAbsorb s x b) :=
  clean_onStream _ _ fun _ _ => clean_ite (clean_ended _ _) (clean_ite (clean_ended _ _) (clean_done _ _ _))

theorem streamFinish_clean : FailsClean (streamFinish s x b) :=
  clean_onStream _ _ fun _ _ => clean_ite (clean_ended _ _) (clean_ite (clean_ended _ _) (clean_ite (clean_ended _ _)
    (clean_done _ _ _)))

/-- A stream that is not finished is read as zeros (R240). -/
theorem digestRead_clean : FailsClean (digestRead s x b) := by
  refine clean_onStream _ _ fun i t => clean_ite (clean_ended _ _) (clean_ite ?_ (clean_ite (clean_ended _ _)
    (clean_done _ _ _)))
  exact fun _ => ⟨fun c hc => List.eq_of_mem_replicate hc, by simp [ended]⟩

theorem streamSuspend_clean : FailsClean (streamSuspend s x b) :=
  clean_onStream _ _ fun _ _ => clean_ite (clean_ended _ _) (clean_done _ _ _)

theorem streamResume_clean : FailsClean (streamResume s x b) := by
  unfold streamResume
  split
  · exact clean_ended _ _
  · exact clean_ite (clean_ended _ _) (clean_ite (clean_ended _ _) (clean_ite (clean_ended _ _) (clean_done _ _ _)))

theorem streamClose_clean : FailsClean (streamClose s x b) := clean_onStream _ _ fun _ _ => clean_done _ _ _

theorem digestOneshot_clean : FailsClean (digestOneshot s x b) :=
  clean_ite (clean_ended _ _) (clean_ite (clean_ended _ _) (clean_done _ _ _))

theorem random_clean : FailsClean (random s x b) := clean_ite (clean_ended _ _) (clean_done _ _ _)

theorem ecPointMul_clean : FailsClean (ecPointMul s x b) := clean_ite (clean_ended _ _) (clean_rawOutcome _ _ _)

end

/-- The function of every row fails clean. -/
theorem opcodeRow_clean {i : Instr} {k o : Nat} {f : State → Seat → Bytes → Outcome} (h : opcodeRow i = some (k, o, f))
    (s : State) (x : Seat) (b : Bytes) : FailsClean (f s x b) := by
  cases i <;> cases h
  case opVfSetup | opRingSetup | opPartitionErase => exact clean_done _ _ _
  case opKeyWriteClear => exact keyWriteClear_clean _ _ _
  case opStageLoad => exact stageLoad_clean _ _ _ _
  case opScriptEnroll => exact scriptEnroll_clean _ _ _
  case opCurveLoad => exact curveLoad_clean _ _ _
  case opLogRead => exact logReadOutcome_clean _ _ _
  case opLogClear => exact logClearOutcome_clean _ _ _
  case opChallenge => exact challengeOutcome_clean _ _ _
  case opRngKat => exact rngKat_clean _ _ _
  case opKeyGenerate => exact keyGenerate_clean _ _ _
  case opKeyImportWrapped => exact keyImport_clean _ _ _
  case opKeyExportWrapped => exact keyExport_clean _ _ _
  case opKeyDerive => exact keyDerive_clean _ _ _
  case opKeyDestroy => exact keyDestroy_clean _ _ _
  case opKeyAttest => exact keyAttest_clean _ _ _
  case opKeyPublic => exact keyPublic_clean _ _ _
  case opKeyInfo => exact keyInfo_clean _ _ _
  case mlKemKeygen => exact mlKemKeygen_clean _ _ _
  case mlKemEncaps => exact mlKemEncaps_clean _ _ _
  case mlKemDecaps => exact mlKemDecaps_clean _ _ _
  case mlDsaKeygen => exact mlDsaKeygen_clean _ _ _
  case mlDsaSign | hashmlDsaSign => exact mlDsaSign_clean _ _ _ _
  case mlDsaVerify | hashmlDsaVerify => exact (mlDsaVerify_silent _ _ _ _).clean
  case falconKeygen => exact falconKeygen_clean _ _ _
  case falconSign => exact falconSign_clean _ _ _
  case falconVerify => exact (falconVerify_silent _ _ _).clean
  case hybridKemKeygen => exact hybridKeygen_clean _ _ _
  case hybridKemEncaps => exact hybridEncaps_clean _ _ _
  case hybridKemDecaps => exact hybridDecaps_clean _ _ _
  case slhDsaKeygen => exact slhKeygen_clean _ _ _
  case slhDsaSign | hashslhDsaSign => exact slhSign_clean _ _ _ _
  case slhDsaVerify | hashslhDsaVerify => exact (slhVerify_silent _ _ _ _).clean
  case hssKeygen => exact hssKeygen_clean _ _ _
  case hssSign => exact hssSign_clean _ _ _
  case hssVerify => exact (hssVerify_silent _ _ _).clean
  case opLmsReserveStatus | xmssReserveStatus => exact reserveOutcome_clean _ _ _ _
  case xmssKeygen => exact xmssKeygen_clean _ _ _
  case xmssSign => exact xmssSign_clean _ _ _
  case xmssVerify => exact (xmssVerify_silent _ _ _).clean
  case mcelieceKeygen => exact mceKeygen_clean _ _ _
  case mcelieceEncaps => exact mceEncaps_clean _ _ _
  case mcelieceDecaps => exact mceDecaps_clean _ _ _
  case opMcePin => exact mcePin_clean _ _ _
  case hqcKeygen => exact hqcKeygen_clean _ _ _
  case hqcEncaps => exact hqcEncaps_clean _ _ _
  case hqcDecaps => exact hqcDecaps_clean _ _ _
  case rsaKeygen => exact rsaKeygen_clean _ _ _
  case rsaPrivate => exact rsaPrivate_clean _ _ _
  case rsaPublic => exact rsaPublic_clean _ _ _
  case ecdsaKeygen => exact ecdsaKeygen_clean _ _ _
  case ecdsaSign => exact ecdsaSign_clean _ _ _
  case ecdsaVerify => exact (ecdsaVerify_silent _ _ _).clean
  case ecdh => exact ecdhAgree_clean _ _ _
  case eddsaKeygen => exact eddsaKeygen_clean _ _ _
  case eddsaSign => exact eddsaSign_clean _ _ _
  case eddsaVerify => exact (eddsaVerify_silent _ _ _).clean
  case x25519 | x448 => exact xAgree_clean _ _ _
  case opStreamOpen => exact streamOpen_clean _ _ _
  case opStreamAbsorb => exact streamAbsorb_clean _ _ _
  case opStreamFinish => exact streamFinish_clean _ _ _
  case opDigestRead => exact digestRead_clean _ _ _
  case opStreamSuspend => exact streamSuspend_clean _ _ _
  case opStreamResume => exact streamResume_clean _ _ _
  case opStreamClose => exact streamClose_clean _ _ _
  case opDigestOneshot => exact digestOneshot_clean _ _ _
  case opRandom => exact random_clean _ _ _
  case opModmul | opModexp | opModinv => exact clean_rawOutcome _ _ _
  case opEcPointMul => exact ecPointMul_clean _ _ _

theorem verifies_silent {i : Instr} {k o : Nat} {f : State → Seat → Bytes → Outcome} (h : opcodeRow i = some (k, o, f))
    (hv : verifies i = true) (s : State) (x : Seat) (b : Bytes) : Silent (f s x b) := by
  cases i <;> cases hv <;> cases h
  case mlDsaVerify | hashmlDsaVerify => exact mlDsaVerify_silent _ _ _ _
  case falconVerify => exact falconVerify_silent _ _ _
  case slhDsaVerify | hashslhDsaVerify => exact slhVerify_silent _ _ _ _
  case hssVerify => exact hssVerify_silent _ _ _
  case xmssVerify => exact xmssVerify_silent _ _ _
  case ecdsaVerify => exact ecdsaVerify_silent _ _ _
  case eddsaVerify => exact eddsaVerify_silent _ _ _

/-- Settles O8: every row's function fails clean, which settling keeps, and the verifications are silent. -/
theorem outcomesAreClean : Obligations.OutcomesAreClean :=
  ⟨fun _ _ _ _ h s x input => clean_settleOutcome x (opcodeRow_clean h s x input),
    fun _ _ _ _ h hv s x b => verifies_silent h hv s x b⟩

end Sys2Proof.Machine

/-! PROOF. Declared intervals (R323): of the opcodes of `fixedTime`, as functions of the entry, its fragments and the length of the
input. -/

namespace Sys2Proof.Machine

open Claims (opcodeRow fixedTime)

/-! ### The interval of an outcome -/

@[simp] theorem ended_interval (st : Status) (iv : Nat) : (ended st iv).interval = iv := rfl
@[simp] theorem done_interval (out : Bytes) (iv : Nat) (cs : List Change) : (done out iv cs).interval = iv := rfl
@[simp] theorem verdict_interval (ok : Bool) (iv : Nat) : (verdict ok iv).interval = iv := rfl

theorem interval_ite {c : Prop} [Decidable c] {a b : Outcome} {iv : Nat} (ha : a.interval = iv) (hb : b.interval = iv) :
    (if c then a else b).interval = iv := by
  split
  · exact ha
  · exact hb

@[simp] theorem keygenOutcome_interval (x : Seat) (fam form : Nat) (m pk : Bytes) (iv : Nat) :
    (keygenOutcome x fam form m pk iv).interval = iv := interval_ite rfl rfl

@[simp] theorem seedOutcome_interval (s : State) (x : Seat) (fam : Nat) (seed pk : Bytes) (iv : Nat) :
    (seedOutcome s x fam seed pk iv).interval = iv := interval_ite (interval_ite rfl rfl) (keygenOutcome_interval _ _ _ _ _ _)

@[simp] theorem secretOutcome_interval (x : Seat) (out secret : Bytes) (iv : Nat) :
    (secretOutcome x out secret iv).interval = iv := interval_ite rfl rfl

@[simp] theorem rawOutcome_interval (x : Seat) (iv : Nat) (out : Bytes) : (rawOutcome x iv out).interval = iv :=
  interval_ite rfl rfl

/-- What is decided for every opcode does not change the interval but for the width that runs (R304). -/
@[simp] theorem settleOutcome_interval (x : Seat) (o : Outcome) :
    (settleOutcome x o).interval = onTiles x.half x.entry.opc x.entry.ps o.interval := interval_ite rfl (interval_ite rfl rfl)

/-! ### Lengths behind a host key -/

/-- Bytes of `n` that stand behind a host public key of `len`. -/
def behindKey (e : Entry) (len n : Nat) : Nat := if e.keyHandle = 0 then n - len else n

theorem afterKey_length (x : Seat) (b : Bytes) (len : Nat) : (afterKey x b len).length = behindKey x.entry len b.length := by
  unfold afterKey behindKey
  split <;> simp

/-- Bytes of M′ for a message of `n` bytes behind its context (R142, R167). -/
def framedLen (pre : Bool) (e : Entry) (n : Nat) : Nat :=
  if pre then 2 + e.arg 0 + 11 + (phLen (e.arg 2)).getD 0 else 2 + n

/-! ### Declared intervals -/

/-- The interval that `f` declares is `iv` of the entry, its fragments and the length of the input, and of nothing else. -/
def Declares (f : State → Seat → Bytes → Outcome) (iv : Entry → List Fragment → Nat → Nat) : Prop :=
  ∀ s x b, (f s x b).interval = iv x.entry x.frags b.length

theorem mlKemKeygen_declares : Declares mlKemKeygen fun e _ _ => keygenTime e (mlKemTime e.ps).1 :=
  fun _ _ _ => seedOutcome_interval _ _ _ _ _ _

theorem mlKemEncaps_declares : Declares mlKemEncaps fun e _ _ => (mlKemTime e.ps).2.1 + depositTerm e :=
  fun _ _ _ => interval_ite rfl (interval_ite rfl (secretOutcome_interval _ _ _ _))

theorem mlKemDecaps_declares : Declares mlKemDecaps fun e _ _ => (mlKemTime e.ps).2.2 + decapsTerm e := by
  intro s x b
  unfold mlKemDecaps
  dsimp only
  split <;> simp

theorem mlDsaKeygen_declares : Declares mlDsaKeygen fun e _ _ => (mlDsaTime e.ps).1 :=
  fun _ _ _ => keygenOutcome_interval _ _ _ _ _ _

theorem mlDsaVerify_declares (pre : Bool) : Declares (mlDsaVerify pre) fun e _ n =>
    let d := (mlDsa e.ps).getD (0, 0, 0)
    (mlDsaTime e.ps).2.2.2 + mlDsaTerm (framedLen pre e (behindKey e d.1 n - d.2.2)) := by
  intro s x b
  dsimp only
  rw [← afterKey_length, ← List.length_drop]
  exact interval_ite rfl (interval_ite rfl rfl)

theorem falconVerify_declares : Declares falconVerify fun e _ n =>
    (falconTime e.ps).2.2.2.2 + falconTerm (behindKey e ((falcon e.ps).getD (0, 0, 0)).1 n - e.argN 0 2) := by
  intro s x b
  dsimp only
  rw [← afterKey_length, ← List.length_drop]
  exact interval_ite rfl (interval_ite rfl rfl)

theorem hybridKeygen_declares : Declares hybridKeygen fun e _ _ =>
    match hybrid e.ps with
    | none => 0
    | some h => keygenTime e ((mlKemTime h.kem).1 + groupTime h.group + 200) := by
  intro s x b
  unfold hybridKeygen
  dsimp only
  cases hybrid x.entry.ps with
  | none => rfl
  | some h => exact seedOutcome_interval _ _ _ _ _ _

theorem hybridEncaps_declares : Declares hybridEncaps fun e _ _ =>
    match hybrid e.ps with
    | none => 0
    | some h => (mlKemTime h.kem).2.1 + 2 * groupTime h.group + hybridAllowance e + depositTerm e := by
  intro s x b
  unfold hybridEncaps
  dsimp only
  cases hybrid x.entry.ps with
  | none => rfl
  | some h =>
    refine interval_ite rfl (interval_ite rfl ?_)
    split <;> simp

theorem hybridDecaps_declares : Declares hybridDecaps fun e _ _ =>
    match hybrid e.ps with
    | none => 0
    | some h => (mlKemTime h.kem).2.2 + groupTime h.group + hybridAllowance e + decapsTerm e := by
  intro s x b
  unfold hybridDecaps
  dsimp only
  cases hybrid x.entry.ps with
  | none => rfl
  | some h =>
    dsimp only
    split
    · rfl
    · split <;> simp

theorem slhKeygen_declares : Declares slhKeygen fun e _ _ => (slhTime e.ps).1 :=
  fun _ _ _ => keygenOutcome_interval _ _ _ _ _ _

theorem slhSign_declares (pre : Bool) : Declares (slhSign pre) fun e _ n =>
    (slhTime e.ps).2.1 + slhTerm e.ps (framedLen pre e n) true := by
  intro s x b
  refine interval_ite rfl ?_
  split <;> rfl

theorem slhVerify_declares (pre : Bool) : Declares (slhVerify pre) fun e _ n =>
    let d := (slhDsa e.ps).getD (0, 0, 0)
    (slhTime e.ps).2.2 + slhTerm e.ps (framedLen pre e (behindKey e d.1 n - d.2.2)) false := by
  intro s x b
  dsimp only
  rw [← afterKey_length, ← List.length_drop]
  exact interval_ite rfl (interval_ite rfl rfl)

theorem mceEncaps_declares : Declares mceEncaps fun e _ _ =>
    (if e.keyHandle = 0 then 36800 else (mceTime e.ps).2.2.1) + depositTerm e :=
  fun _ _ _ => interval_ite rfl (interval_ite rfl (secretOutcome_interval _ _ _ _))

theorem mceDecaps_declares : Declares mceDecaps fun e _ _ => (mceTime e.ps).2.2.2.1 + depositTerm e := by
  intro s x b
  unfold mceDecaps
  dsimp only
  split <;> simp

theorem hqcKeygen_declares : Declares hqcKeygen fun e _ _ => (hqcTime e.ps).1 :=
  fun _ _ _ => keygenOutcome_interval _ _ _ _ _ _

theorem hqcEncaps_declares : Declares hqcEncaps fun e _ _ => (hqcTime e.ps).2.1 + depositTerm e :=
  fun _ _ _ => interval_ite rfl (interval_ite rfl (secretOutcome_interval _ _ _ _))

theorem hqcDecaps_declares : Declares hqcDecaps fun e _ _ => (hqcTime e.ps).2.2 + depositTerm e := by
  intro s x b
  unfold hqcDecaps
  dsimp only
  split <;> simp

theorem rsaDecoded_interval (s : State) (x : Seat) (l : Nat) (m label c : Bytes) (em iv : Nat) :
    (rsaDecoded s x l m label c em iv).interval = iv := by
  refine interval_ite ?pkcs1 ?oaep
  all_goals split <;> rfl

theorem rsaPrivate_declares : Declares rsaPrivate fun e _ _ =>
    rsaP (rsaWords ((rsaBits e.ps).getD 2048)) + rsaAllowance e := by
  intro s x b
  refine interval_ite rfl ?_
  split
  · rfl
  · exact interval_ite rfl (interval_ite rfl (interval_ite rfl (rsaDecoded_interval _ _ _ _ _ _ _ _)))

theorem eddsaKeygen_declares : Declares eddsaKeygen fun e _ _ => (eddsaTime e.ps).1 :=
  fun _ _ _ => keygenOutcome_interval _ _ _ _ _ _

theorem eddsaSign_declares : Declares eddsaSign fun e _ n => (eddsaTime e.ps).2.1 + eddsaTerm e.ps (n - e.arg 0) true := by
  intro s x b
  refine interval_ite rfl ?_
  split <;> rfl

theorem eddsaVerify_declares : Declares eddsaVerify fun e _ n =>
    let k := (eddsa e.ps).getD 32
    (eddsaTime e.ps).2.2 + eddsaTerm e.ps (behindKey e k n - 2 * k - e.arg 0) false := by
  intro s x b
  dsimp only
  rw [← afterKey_length, ← List.length_drop]
  exact interval_ite rfl (interval_ite rfl (interval_ite rfl rfl))

theorem xAgree_declares : Declares xAgree fun e _ _ =>
    if e.arg 0 = 0 then (xTime e.ps).1 else (xTime e.ps).2 + depositTerm e := by
  intro s x b
  unfold xAgree
  dsimp only
  split
  · exact interval_ite rfl rfl
  · refine interval_ite rfl ?_
    split
    · rfl
    · exact interval_ite rfl (secretOutcome_interval _ _ _ _)

theorem modMul_declares : Declares modMul fun e _ _ => 400 + 2 * rsaM e.ps := fun _ _ _ => rawOutcome_interval _ _ _

theorem modExp_declares : Declares modExp fun e _ _ => 1200 + 128 * e.argN 0 2 * rsaM e.ps :=
  fun _ _ _ => rawOutcome_interval _ _ _

theorem modInv_declares : Declares modInv fun e _ _ => 1600 + 192 * e.ps * ceilDiv e.ps 8 :=
  fun _ _ _ => rawOutcome_interval _ _ _

theorem digestOneshot_declares : Declares digestOneshot fun e fs _ =>
    let keys := (fs.filter Fragment.isKey).length
    600 + coreTime e.ps (false || keys != 0) * (e.len / digestBlock e.ps + 2 + e.argN 0 4 / digestBlock e.ps) + 800 * keys :=
  fun _ _ _ => interval_ite rfl (interval_ite rfl rfl)

theorem keyGenerate_declares : Declares keyGenerate fun _ _ _ => 7200 := fun _ _ _ => interval_ite rfl rfl

theorem keyDerive_declares : Declares keyDerive fun e _ _ => 9200 + 8 * ceilDiv e.len 136 := by
  intro s x b
  refine interval_ite rfl ?_
  split
  · rfl
  · exact interval_ite rfl (interval_ite rfl rfl)

theorem keyDestroy_declares : Declares keyDestroy fun _ _ _ => 4800 := by
  intro s x b
  unfold keyDestroy
  split <;> rfl

theorem challengeOutcome_declares : Declares challengeOutcome fun _ _ _ => 2400 := by
  intro s x b
  unfold challengeOutcome
  split
  · split <;> rfl
  · exact interval_ite rfl rfl
  · rfl

theorem rngKat_declares : Declares rngKat fun e _ _ =>
    match e.arg 0 with
    | 0 => 1600 + 8 * ceilDiv e.len 136
    | 1 => let r := e.argN 4 2; if r < 16 ∨ 512 < r ∨ r % 16 ≠ 0 then 4064 else 4000 + 64 * ceilDiv r 16
    | 2 => 2400
    | 3 => 40000
    | _ => 1600 := by
  intro s x b
  unfold rngKat
  dsimp only
  generalize x.entry.arg 0 = mode
  match mode with
  | 0 | 2 | 3 | _ + 4 => rfl
  | 1 => exact apply_ite Outcome.interval _ _ _

theorem random_declares : Declares random fun e _ _ =>
    let n := e.argN 0 4
    if n = 0 ∨ 65536 < n then 432 else 400 + 32 * ceilDiv n 16 := by
  intro s x b
  unfold random
  dsimp only
  split <;> rfl

/-- Each opcode of `fixedTime` declares its interval by the entry, its fragments and the length of the input. -/
theorem fixedTime_declares {i : Instr} {k o : Nat} {f : State → Seat → Bytes → Outcome} (h : opcodeRow i = some (k, o, f))
    (hi : fixedTime i = true) : ∃ iv, Declares f iv := by
  cases i <;> cases hi <;> cases h
  case mlKemKeygen => exact ⟨_, mlKemKeygen_declares⟩
  case mlKemEncaps => exact ⟨_, mlKemEncaps_declares⟩
  case mlKemDecaps => exact ⟨_, mlKemDecaps_declares⟩
  case mlDsaKeygen => exact ⟨_, mlDsaKeygen_declares⟩
  case mlDsaVerify | hashmlDsaVerify => exact ⟨_, mlDsaVerify_declares _⟩
  case falconVerify => exact ⟨_, falconVerify_declares⟩
  case hybridKemKeygen => exact ⟨_, hybridKeygen_declares⟩
  case hybridKemEncaps => exact ⟨_, hybridEncaps_declares⟩
  case hybridKemDecaps => exact ⟨_, hybridDecaps_declares⟩
  case slhDsaKeygen => exact ⟨_, slhKeygen_declares⟩
  case slhDsaSign | hashslhDsaSign => exact ⟨_, slhSign_declares _⟩
  case slhDsaVerify | hashslhDsaVerify => exact ⟨_, slhVerify_declares _⟩
  case mcelieceEncaps => exact ⟨_, mceEncaps_declares⟩
  case mcelieceDecaps => exact ⟨_, mceDecaps_declares⟩
  case hqcKeygen => exact ⟨_, hqcKeygen_declares⟩
  case hqcEncaps => exact ⟨_, hqcEncaps_declares⟩
  case hqcDecaps => exact ⟨_, hqcDecaps_declares⟩
  case rsaPrivate => exact ⟨_, rsaPrivate_declares⟩
  case eddsaKeygen => exact ⟨_, eddsaKeygen_declares⟩
  case eddsaSign => exact ⟨_, eddsaSign_declares⟩
  case eddsaVerify => exact ⟨_, eddsaVerify_declares⟩
  case x25519 | x448 => exact ⟨_, xAgree_declares⟩
  case opModmul => exact ⟨_, modMul_declares⟩
  case opModexp => exact ⟨_, modExp_declares⟩
  case opModinv => exact ⟨_, modInv_declares⟩
  case opDigestOneshot => exact ⟨_, digestOneshot_declares⟩
  case opKeyGenerate => exact ⟨_, keyGenerate_declares⟩
  case opKeyDerive => exact ⟨_, keyDerive_declares⟩
  case opKeyDestroy => exact ⟨_, keyDestroy_declares⟩
  case opChallenge => exact ⟨_, challengeOutcome_declares⟩
  case opRngKat => exact ⟨_, rngKat_declares⟩
  case opRandom => exact ⟨_, random_declares⟩

/-- Settles O9: a declared interval is a function of what the two runs have in common. -/
theorem fixedIntervals : Obligations.FixedIntervals := by
  unfold Obligations.FixedIntervals
  intro i k o f h hi s s' x x' b b' he hfrags hhalf hlen
  obtain ⟨iv, hiv⟩ := fixedTime_declares h hi
  rw [settleOutcome_interval, settleOutcome_interval, hiv s x b, hiv s' x' b', he, hfrags, hhalf, hlen]

end Sys2Proof.Machine

/-! PROOF. What single opcodes give: keys placed (R127, R132 to R134, R261, R265), decapsulation (R138), raw arithmetic (R224,
R226), random bytes (R298), and digest streams in each state (R234, R240, R241). -/

namespace Sys2Proof.Machine

/-! ### Keys placed -/

/-- A material of at most 64 bytes takes one unit (R127). -/
theorem unitsFor_of_le {n : Nat} (h : n ≤ 64) : unitsFor n = 1 := by
  have hc : ceilDiv n 64 ≤ 1 := by unfold ceilDiv; omega
  exact Nat.max_eq_left hc

theorem fresh_length_le (x : Seat) (off n : Nat) : (fresh x off n).length ≤ n := List.length_take_le _ _

/-- A keygen whose export usage is allowed places its key and returns the public key (R132, R133). -/
theorem keygenOutcome_of_exportOk {x : Seat} (fam form : Nat) (m pk : Bytes) (iv : Nat)
    (h : exportBad (keygenUsage x.entry) (keygenExportable x.entry) = false) :
    keygenOutcome x fam form m pk iv = done pk iv [place x (newKey x fam x.entry.ps form (keygenUsage x.entry) originInside
      (keygenExportable x.entry) m)] := by
  simp [keygenOutcome, h]

theorem exportBad_of_imp {usage : Nat} {exportable : Bool} (h : bit usage 6 = true → exportable = true) :
    exportBad usage exportable = false := by
  unfold exportBad
  cases hb : bit usage 6 <;> simp_all

theorem mlKemKeygen_of_plain {x : Seat} (s : State) (b : Bytes) (hs : sealedForm x.entry = false)
    (he : exportBad (keygenUsage x.entry) (keygenExportable x.entry) = false) :
    ∃ iv, mlKemKeygen s x b = done (mlKemEk x.entry.ps 0 (fresh x 0 64)) iv [place x (newKey x 1 x.entry.ps 0
      (keygenUsage x.entry) originInside (keygenExportable x.entry) (fresh x 0 64))] := by
  unfold mlKemKeygen seedOutcome
  rw [hs, if_neg Bool.false_ne_true]
  exact ⟨_, keygenOutcome_of_exportOk _ _ _ _ _ he⟩

/-- A derived key is placed as the entry names it, and exportable only under an exportable source (R261). -/
theorem keyDerive_places {s : State} {x : Seat} {b : Bytes} {target : Nat} {key : NewKey}
    (h : (keyDerive s x b).changes = [.putKey target key]) :
    target = x.entry.auxHandle.toNat ∧ key.owner = x.fn ∧ key.origin = 3 ∧ key.usage = bits (x.entry.arg 0) 6 0
      ∧ (key.exportable = true → ∃ y, keySlot s x = some y ∧ y.exportable = true) := by
  unfold keyDerive at h
  dsimp only at h
  split at h
  · cases h
  · split at h
    · cases h
    · rename_i y hy
      split at h
      · cases h
      · split at h
        · cases h
        · rename_i hexport
          cases h
          refine ⟨rfl, rfl, rfl, rfl, fun hk => ⟨y, hy, ?_⟩⟩
          have hk : keygenExportable x.entry = true := hk
          simpa [hk] using hexport

theorem keyDestroy_of_slot {s : State} {x : Seat} {n : Nat} {y : Slot} (b : Bytes)
    (h : slotOf s x.entry.keyHandle.toNat = some (n, y)) : keyDestroy s x b = done [] 4800 [.destroyKey n] := by
  simp [keyDestroy, h]

/-- Settles O11: the keygens place what `keygenOutcome` says, whose material takes one unit. -/
theorem keysArePlaced : Obligations.KeysArePlaced := by
  unfold Obligations.KeysArePlaced
  refine ⟨fun s x b => ?keygen, fun s x b => ⟨fun n y h => ?destroy, fun target key h => keyDerive_places h⟩⟩
  case keygen =>
    intro usage exportable key hs himp
    have he : exportBad (keygenUsage x.entry) (keygenExportable x.entry) = false := exportBad_of_imp himp
    have hkey (fam n : Nat) (hn : n ≤ 64) : newKey x fam x.entry.ps 0 (keygenUsage x.entry) originInside
        (keygenExportable x.entry) (fresh x 0 n) = key fam n := by
      unfold newKey
      rw [unitsFor_of_le ((fresh_length_le x 0 n).trans hn)]
      rfl
    constructor
    · obtain ⟨iv, hkem⟩ := mlKemKeygen_of_plain s b hs he
      rw [hkem, hkey 1 64 (by decide)]
      exact ⟨rfl, rfl, rfl⟩
    · have hdsa : mlDsaKeygen s x b = _ := keygenOutcome_of_exportOk _ _ _ _ _ he
      rw [hdsa, hkey 2 32 (by decide)]
      exact ⟨rfl, rfl, rfl⟩
  case destroy =>
    rw [keyDestroy_of_slot b h]
    exact ⟨rfl, rfl⟩

/-! ### Decapsulation -/

/-- From the slot of a secret key ML-KEM decapsulation gives its secret (R138). -/
theorem mlKemDecaps_of_private {s : State} {x : Seat} {y : Slot} (b : Bytes) (hs : sealedForm x.entry = false)
    (hy : privateKey s x 1 = some y) :
    ∃ iv, mlKemDecaps s x b = secretOutcome x [] (mlKemDecapsulate x.entry.ps y.form y.material b) iv := by
  simp [mlKemDecaps, decapsKey, decapsInput, hs, hy]

/-- Settles O12: the secret of a decapsulation goes where `secretOutcome` says. -/
theorem decapsulationRejectsImplicitly : Obligations.DecapsulationRejectsImplicitly := by
  unfold Obligations.DecapsulationRejectsImplicitly
  intro s x b y hs hy secret
  obtain ⟨iv, hsecret⟩ := mlKemDecaps_of_private b hs hy
  rw [hsecret]
  unfold secretOutcome
  cases hd : deposits x.entry with
  | false => exact ⟨rfl, fun _ => ⟨rfl, rfl⟩, fun h => absurd h Bool.false_ne_true⟩
  | true => exact ⟨rfl, fun h => absurd h.symm Bool.false_ne_true, fun _ => ⟨rfl, _, rfl, rfl, rfl, rfl, rfl, rfl⟩⟩

/-! ### Raw arithmetic -/

/-- One exponent bit a step gives b^e · acc mod m. -/
theorem powStep_eq {m : Nat} (n : Nat) (b e acc : Nat) (he : e < 2 ^ n) (hacc : acc < m) :
    powStep m n b e acc = acc * b ^ e % m := by
  induction n generalizing b e acc with
  | zero =>
    obtain rfl : e = 0 := by omega
    simp [powStep, Nat.mod_eq_of_lt hacc]
  | succ n ih =>
    have hm : 0 < m := by omega
    have hhalf : e / 2 < 2 ^ n := by rw [Nat.pow_succ] at he; omega
    have hacc' : (if e % 2 = 1 then acc * b % m else acc) < m := by
      split
      · exact Nat.mod_lt _ hm
      · exact hacc
    have hsquare : (b * b % m) ^ (e / 2) ≡ b ^ (2 * (e / 2)) [MOD m] := by
      rw [Nat.pow_mul, Nat.pow_two]
      exact (Nat.mod_modEq _ _).pow _
    have hodd : (if e % 2 = 1 then acc * b % m else acc) ≡ acc * b ^ (e % 2) [MOD m] := by
      split
      case isTrue h => rw [h, Nat.pow_one]; exact Nat.mod_modEq _ _
      case isFalse h => rw [show e % 2 = 0 by omega, Nat.pow_zero, Nat.mul_one]
    have hsplit : acc * b ^ (e % 2) * b ^ (2 * (e / 2)) = acc * b ^ e := by
      rw [Nat.mul_assoc, ← Nat.pow_add, Nat.mod_add_div]
    rw [powStep, ih _ _ _ hhalf hacc', ← hsplit]
    exact hodd.mul hsquare

theorem lt_two_pow_bitLen (e : Nat) : e < 2 ^ bitLen e := by
  unfold bitLen
  split
  case isTrue h => simp [h]
  case isFalse h => exact Nat.lt_log2_self

theorem powMod_eq {m : Nat} (b e : Nat) (hm : 0 < m) : powMod b e m = b ^ e % m := by
  unfold powMod
  rw [powStep_eq _ _ _ _ (lt_two_pow_bitLen e) (Nat.mod_lt _ hm)]
  have h : 1 % m * (b % m) ^ e ≡ 1 * b ^ e [MOD m] := (Nat.mod_modEq _ _).mul ((Nat.mod_modEq _ _).pow _)
  rw [Nat.one_mul] at h
  exact h

/-- Euclid's steps end at the greatest common divisor, with its coefficient modulo `m`: each step at least halves r · r'. -/
theorem euclid_gcd (m a : Int) (n : Nat) (r r' t t' : Int) (h0 : 0 ≤ r') (hlt : r' < r) (hfuel : r * r' < 2 ^ n)
    (ht : m ∣ r - t * a) (ht' : m ∣ r' - t' * a) :
    (euclid (n + 1) r r' t t').1 = Int.gcd r r' ∧ m ∣ (euclid (n + 1) r r' t t').1 - (euclid (n + 1) r r' t t').2 * a := by
  induction n generalizing r r' t t' with
  | zero =>
    obtain rfl : r' = 0 := by nlinarith
    simpa [euclid, abs_of_pos hlt] using ht
  | succ n ih =>
    rw [euclid]
    split
    case isTrue h =>
      subst h
      simpa [abs_of_pos hlt] using ht
    case isFalse h =>
      have hpos : 0 < r' := by omega
      have hrem : r - r / r' * r' = r % r' := by rw [Int.emod_def, Int.mul_comm]
      have hr0 : 0 ≤ r % r' := Int.emod_nonneg _ h
      have hr1 : r % r' < r' := Int.emod_lt_of_pos _ hpos
      have hq : 1 ≤ r / r' := by
        rw [Int.le_ediv_iff_mul_le hpos]
        omega
      have hsum : r = r / r' * r' + r % r' := by rw [Int.mul_comm]; exact (Int.mul_ediv_add_emod r r').symm
      have htwice : 2 * (r % r') < r := by nlinarith
      have hnext : r' * (r % r') < 2 ^ n := by
        rw [pow_succ] at hfuel
        nlinarith
      have hdvd : m ∣ (r - r / r' * r') - (t - r / r' * t') * a := by
        have : (r - r / r' * r') - (t - r / r' * t') * a = (r - t * a) - r / r' * (r' - t' * a) := by ring
        rw [this]
        exact dvd_sub ht (Dvd.dvd.mul_left ht' _)
      rw [hrem] at hdvd ⊢
      obtain ⟨hg, hc⟩ := ih r' (r % r') t' (t - r / r' * t') hr0 hr1 hnext ht' hdvd
      refine ⟨hg.trans ?_, hc⟩
      rw [Int.gcd_comm r' (r % r'), Int.gcd_emod]

/-- The steps that `invMod` makes suffice. -/
theorem invMod_euclid {a m : Nat} (hm : 0 < m) :
    let g := euclid (2 * bitLen m + 2) m (a % m : Nat) 0 1
    g.1 = Nat.gcd a m ∧ (m : Int) ∣ g.1 - g.2 * a := by
  have hlt : a % m < m := Nat.mod_lt _ hm
  have hfuel : m * (a % m) < 2 ^ (2 * bitLen m + 1) := by
    have hb := lt_two_pow_bitLen m
    have h2 : 2 ^ (2 * bitLen m + 1) = 2 * (2 ^ bitLen m * 2 ^ bitLen m) := by ring
    rw [h2]
    nlinarith
  have hrem : (m : Int) ∣ (a % m : Nat) - 1 * (a : Int) := by
    rw [Int.natCast_mod, one_mul, Int.emod_def, sub_sub_cancel_left]
    exact (dvd_mul_right _ _).neg_right
  obtain ⟨hg, hc⟩ := euclid_gcd m a (2 * bitLen m + 1) m (a % m : Nat) 0 1 (by positivity) (by exact_mod_cast hlt)
    (by exact_mod_cast hfuel) (by simp) hrem
  refine ⟨hg.trans ?_, hc⟩
  rw [Int.gcd_natCast_natCast, Nat.gcd_comm m, ← Nat.gcd_rec, Nat.gcd_comm]

theorem invMod_of_coprime {a m : Nat} (hm : 0 < m) (h : Nat.gcd a m = 1) : invMod a m < m ∧ a * invMod a m % m = 1 % m := by
  obtain ⟨hg, hc⟩ := invMod_euclid (a := a) hm
  have hone : (euclid (2 * bitLen m + 2) m (a % m : Nat) 0 1).1 = 1 := by rw [hg, h]; rfl
  rw [hone] at hc
  unfold invMod
  dsimp only
  rw [if_pos hone]
  generalize (euclid (2 * bitLen m + 2) m (a % m : Nat) 0 1).2 = c at hc ⊢
  have h0 : 0 ≤ c % m := Int.emod_nonneg _ (by omega)
  have h1 : c % m < m := Int.emod_lt_of_pos _ (by omega)
  refine ⟨by omega, ?_⟩
  have hmod : ((a * (c % m).toNat : Nat) : Int) ≡ (1 : Nat) [ZMOD m] := by
    rw [Nat.cast_mul, Int.toNat_of_nonneg h0]
    calc (a : Int) * (c % m) ≡ a * c [ZMOD m] := (Int.mod_modEq c m).mul_left _
      _ ≡ 1 [ZMOD m] := by rw [mul_comm]; exact (Int.modEq_iff_dvd.2 hc)
  exact (Int.natCast_modEq_iff.1 hmod)

theorem invMod_of_not_coprime {a m : Nat} (hm : 0 < m) (h : Nat.gcd a m ≠ 1) : invMod a m = 0 := by
  obtain ⟨hg, -⟩ := invMod_euclid (a := a) hm
  have hone : (euclid (2 * bitLen m + 2) m (a % m : Nat) 0 1).1 ≠ 1 := by rw [hg]; exact_mod_cast h
  exact if_neg hone

theorem operand_eq_word (b : Bytes) (w i : Nat) : operand b w i = Claims.word b w i := rfl

/-- Without key fragments a raw command ends with S_OK and its result (R224). -/
theorem rawOutcome_of_plain {x : Seat} (iv : Nat) (out : Bytes) (h : x.frags.any Fragment.isKey = false) :
    rawOutcome x iv out = done out iv [] := by
  simp [rawOutcome, h]

theorem modResult_of_odd {s : State} {x : Seat} {b : Bytes} {w m v : Nat} (h : m % 2 = 1) :
    modResult s x b w m v = beBytes (8 * w) v := by
  simp [modResult, h]

/-- Settles O13: the raw commands give their results on the operands' values. -/
theorem rawResults : Obligations.RawResults := by
  unfold Obligations.RawResults
  intro s x b w m a hf hodd
  have hm : 0 < m := by omega
  unfold modMul modExp modInv
  simp only [operand_eq_word, rawOutcome_of_plain _ _ hf]
  rw [modResult_of_odd hodd, modResult_of_odd hodd, modResult_of_odd hodd, powMod_eq _ _ hm]
  refine ⟨⟨rfl, rfl⟩, ⟨rfl, rfl⟩, rfl, fun h => ?_, fun h => ?_⟩
  · obtain ⟨hlt, hinv⟩ := invMod_of_coprime hm h
    exact ⟨_, hlt, hinv, rfl⟩
  · exact congrArg (beBytes (8 * w)) (invMod_of_not_coprime hm h)

/-! ### Random bytes -/

/-- Settles O14: the two branches of OP_RANDOM. -/
theorem randomReturnsItsReservation : Obligations.RandomReturnsItsReservation := by
  unfold Obligations.RandomReturnsItsReservation
  intro s x b n good bad
  refine ⟨fun ⟨h1, h2⟩ => ?_, fun h => if_pos h⟩
  exact if_neg (by omega)

/-! ### Streams -/

theorem onStream_of_some {s : State} {x : Seat} {n : Nat} {t : Stream} (f : Nat → Stream → Outcome)
    (h : streamOf s x.entry.auxHandle.toNat = some (n, t)) : onStream s x f = f n t := by
  simp [onStream, h]

section
variable {s : State} {x : Seat} {n : Nat} {t : Stream} (b : Bytes)
  (h : streamOf s x.entry.auxHandle.toNat = some (n, t)) (ho : t.state = .opened) (hf : fragmentRefused s x = false)
include h

theorem streamSuspend_of_open (ho : t.state = .opened) :
    ∃ out, streamSuspend s x b = done out 1200 [.closeStream n] := by
  unfold streamSuspend
  rw [onStream_of_some _ h, ho]
  exact ⟨_, rfl⟩

include ho hf

/-- An OPEN stream takes the bytes of an ABSORB and stays OPEN (R236, R237). -/
theorem streamAbsorb_of_open : ∃ iv, streamAbsorb s x b = done [] iv [.setStream n (t.absorb b (keyedNow x))] := by
  unfold streamAbsorb
  rw [onStream_of_some _ h, ho, hf]
  exact ⟨_, rfl⟩

theorem streamFinish_of_open (hd : dlenOk t.alg (x.entry.argN 0 4) (2 ^ 32 - 1) = true) :
    ∃ iv dlen, streamFinish s x b
      = done [] iv [.setStream n { t.absorb b (keyedNow x) with state := .finished, dlen := dlen, pos := 0 }] := by
  unfold streamFinish
  rw [onStream_of_some _ h]
  dsimp only
  rw [ho, hd, hf]
  exact ⟨_, _, rfl⟩

end

/-- Settles O15: in each state of the stream, the branch that the opcode takes. -/
theorem streamStates : Obligations.StreamStates := by
  unfold Obligations.StreamStates
  intro s x b n t h
  refine ⟨fun hfin => ?finished, fun ho => ⟨?suspend, fun hf => ?absorb, fun hf hd => ?finish, fun ha => ?read⟩, ?close⟩
  case finished =>
    unfold streamAbsorb streamFinish streamSuspend
    simp [onStream_of_some _ h, hfin, ended]
  case suspend =>
    obtain ⟨out, hsuspend⟩ := streamSuspend_of_open b h ho
    rw [hsuspend]
    exact ⟨rfl, rfl⟩
  case absorb =>
    obtain ⟨iv, habsorb⟩ := streamAbsorb_of_open b h ho hf
    rw [habsorb]
    exact ⟨rfl, _, rfl, ho, rfl⟩
  case finish =>
    obtain ⟨iv, dlen, hfinish⟩ := streamFinish_of_open b h ho hf hd
    rw [hfinish]
    exact ⟨rfl, _, rfl, rfl, rfl⟩
  case read =>
    unfold digestRead
    simp [onStream_of_some _ h, ho, ha, ended, zeros]
  case close =>
    unfold streamClose
    rw [onStream_of_some _ h]
    exact ⟨rfl, rfl⟩

end Sys2Proof.Machine

/-! PROOF. Rings: polls, entries that arrive, halts, refusals, seats taken, and the registers of the usher (chapter 03). -/

namespace Sys2Proof.Machine

open Sys2Proof.Claims

/-! ### What a command leaves where the effect is known -/

/-- A command whose meaning is `run f` answers a state that is `f s` but for the views, the queue and the fuses. -/
theorem views_of_run {i : Instr} {f : State → State} {s u : State} (h : exec i s = run f s) (hu : f s = u) :
    ∃ t, exec i s = .next t ∧ OnlyViews { u with pending := s.pending, otp := s.otp } t := by
  obtain ⟨t, ht, hv⟩ := run_leads f s
  exact ⟨t, h.trans ht, hu ▸ hv⟩

/-! ### Reads of a ring -/

@[simp] theorem setRing_get? (c : Nat) (q : Ring) (s : State) : (setRing c q s).ush.rings.get? c = some q :=
  Tab.get?_put_same ..

theorem updRing_eq_setRing {c : Nat} {r : Ring} {s : State} (f : Ring → Ring) (h : s.ush.rings.get? c = some r) :
    updRing c f s = setRing c (f r) s := updRing_some h

theorem updRing_setRing (c : Nat) (q : Ring) (f : Ring → Ring) (s : State) :
    updRing c f (setRing c q s) = setRing c (f q) s := by
  rw [updRing_eq_setRing f (setRing_get? c q s)]
  simp [setRing, Tab.put_put]

/-- A live read that returns an entry of the expected phase, on a ring that is read, delivers a valid entry. -/
theorem entryArrives_valid {c : Nat} {r : Ring} {e : Entry} {s : State} (hr : s.ush.rings.get? c = some r)
    (hfrag : r.frag = none) (hreads : r.reads ≠ 0) (hstale : r.stale = 0) (hread : readable s r = true)
    (hphase : e.phase = r.expPhase) :
    entryArrives c e s = takeEntry c r e (setRing c { r with reads := r.reads - 1 } s) := by
  have hread' : ∀ q, readable (setRing c q s) r = true := fun _ => hread
  simp [entryArrives, hr, hfrag, hreads, hstale, updRing_eq_setRing _ hr, hread', hphase]

/-- Settles O16: a poll by its one guard, an arrival by the guard that turns it away. -/
theorem ringReads : Obligations.RingReads := by
  unfold Obligations.RingReads
  refine ⟨fun s c r hr hread hhot hstale hfrag hout => ?poll, fun s c r e hr hfrag => ⟨fun hreads hstale => ?discarded,
    fun hreads hstale hphase => ?wrongPhase⟩⟩
  case poll =>
    have hout' : readsOut s < maxReads := hout
    refine leadsTo_of_run (f := pollRing c) rfl ?_ rfl rfl
    simp [pollRing, hr, hread, hhot, hstale, hfrag, hout', updRing_eq_setRing _ hr]
  case discarded =>
    refine leadsTo_of_run (f := entryArrives c e) rfl ?_ rfl rfl
    simp [entryArrives, hr, hfrag, hreads, hstale, updRing_eq_setRing _ hr]
  case wrongPhase =>
    refine leadsTo_of_run (f := entryArrives c e) rfl ?_ rfl rfl
    simp [entryArrives, hr, hfrag, hreads, hstale, hphase, updRing_eq_setRing _ hr, updRing_setRing, stopReads]

/-! ### Halts -/

/-- The rings of a function that halts: none is read, and of each batch what is closed stays. -/
def haltRings (f : Nat) (t : Tab Ring) : Tab Ring :=
  t.mapRows fun _ q => if q.owner = f then { stopReads q with batch := closedBatches q.batch } else q

/-- The effect of a malformation, whose sequence number and count the recorder and the earlier halts give. -/
theorem haltFunction_effect {c : Nat} {r : Ring} {s : State} (e : Entry) (n : Nat) (code : HaltCode) (i : Nat)
    (hr : s.ush.rings.get? c = some r) :
    (haltFunction c e n code i s).seats = s.seats ∧ (haltFunction c e n code i s).writer = s.writer
      ∧ ∃ sequence count, (haltFunction c e n code i s).ush = { s.ush with
          halts := s.ush.halts.put r.owner
            { code := code, ringId := r.ringId, check := n, index := r.sqNext, opcode := e.opcode.toNat, fragment := i,
              sequence := sequence, addr := r.sqBase + 128 * r.sqNext, count := count },
          halted := insertSorted r.owner s.ush.halted, rings := haltRings r.owner s.ush.rings } := by
  simp only [haltFunction, hr]
  split
  all_goals
    refine ⟨by simp, by simp, ?_⟩
    simp only [bump_ush, signal_ush, raise_ush, spend_ush, event_ush]
    exact ⟨_, _, rfl⟩

/-- Settles O17: the entry reaches the structural checks, and the halt writes its record and stops every ring of the owner. -/
theorem malformationHalts : Obligations.MalformationHalts := by
  unfold Obligations.MalformationHalts
  intro s c r e n code hr hfrag hreads hstale hread hphase hcheck
  have hcheck' : ∀ q, structural (setRing c q s) r.owner e = some (n, code) := fun _ => hcheck
  have hu : entryArrives c e s = haltFunction c e n code 0xFFFF (setRing c { r with reads := r.reads - 1 } s) := by
    rw [entryArrives_valid hr hfrag hreads hstale hread hphase]
    simp only [takeEntry, hcheck']
  obtain ⟨t, ht, hv⟩ := views_of_run (i := .entryRead c e false) rfl hu
  obtain ⟨hseats, hwriter, sequence, count, hush⟩ := haltFunction_effect e n code 0xFFFF
    (setRing_get? c { r with reads := r.reads - 1 } s)
  have hush' : t.ush = _ := (views_ush hv).trans hush
  refine ⟨t, _, ht, (congrArg (fun u => u.halts.get? r.owner) hush').trans (Tab.get?_put_same ..), rfl, rfl, rfl, rfl, rfl, ?_,
    (views_seats hv).trans hseats, (views_writer hv).trans hwriter, ?_⟩
  · rw [hush', mem_insertSorted]
    exact Or.inl rfl
  · rw [hush', haltRings, Tab.get?_mapRows, setRing_get?]
    exact ⟨_, rfl, by simp [stopReads]⟩

/-! ### Entries that pass the structural checks -/

/-- Reading ahead only issues reads. -/
theorem readAhead_frame (c : Nat) (s : State) :
    (readAhead c s).seats = s.seats ∧ (readAhead c s).writer = s.writer
      ∧ ∀ q, s.ush.rings.get? c = some q → ∃ n, (readAhead c s).ush.rings.get? c = some { q with reads := n } := by
  unfold readAhead
  split
  case h_1 h => exact ⟨rfl, rfl, fun q hq => by simp [h] at hq⟩
  case h_2 r h =>
    split
    · refine ⟨rfl, rfl, fun q hq => ?_⟩
      dsimp only
      rw [updRing_eq_setRing _ hq]
      exact ⟨_, setRing_get? c _ s⟩
    · exact ⟨rfl, rfl, fun q hq => ⟨q.reads, hq⟩⟩

/-- An entry without fragment list that passed the structural checks goes to the admission checks, its ring hot. -/
theorem takeEntry_seats {c : Nat} {r q : Ring} {e : Entry} {s : State} (hcheck : structural s r.owner e = none)
    (hfrags : e.fragCount = 0) :
    takeEntry c r e (setRing c q s) = readAhead c (seatEntry c e [] (setRing c { q with hot := true } s)) := by
  have hcheck' : structural (setRing c q s) r.owner e = none := hcheck
  simp [takeEntry, hcheck', hfrags, updRing_setRing]

theorem countCompletion_frame (st : Status) (s : State) :
    (countCompletion st s).seats = s.seats ∧ (countCompletion st s).writer = s.writer
      ∧ (countCompletion st s).ush = s.ush := by
  unfold countCompletion
  split <;> exact ⟨rfl, rfl, rfl⟩

/-- The item of an entry that is refused with a status, the record's OUT_LEN given. -/
def refusedItem (c : Nat) (r : Ring) (e : Entry) (st : Status) (n : Nat) (s : State) : Item :=
  { fn := r.owner, ring := c, seq := r.seq, index := r.sqNext, seat := none, outPtr := e.outPtr, out := [],
    batchEnd := e.batchEnd, record := plainRecord s 0xFFFF e st n, stopped := false }

theorem refuseEntry_frame (c : Nat) (r : Ring) (e : Entry) (st : Status) (n : Nat) (s : State) :
    (refuseEntry c r e st n s).seats = s.seats ∧ (refuseEntry c r e st n s).ush = s.ush
      ∧ (refuseEntry c r e st n s).writer = s.writer ++ [refusedItem c r e st n s] := by
  obtain ⟨hseats, hwriter, hush⟩ := countCompletion_frame st (handOver (refusedItem c r e st n s) s)
  exact ⟨hseats, hush, hwriter⟩

/-- An entry that fails an admission check leaves its item with the writer and its ring past it. -/
theorem seatEntry_refuses {c : Nat} {q : Ring} {e : Entry} {fs : List Fragment} {s : State} {p : OpEntry} {st : Status}
    {n : Nat} (hq : s.ush.rings.get? c = some q) (hplan : planEntry s e.opc e.ps = some p)
    (hcheck : admissionCheck s q.owner q.ringId e fs = some (st, n)) :
    seatEntry c e fs s = setRing c (consume e none q) (refuseEntry c q e st n s) := by
  obtain ⟨-, hush, -⟩ := refuseEntry_frame c q e st n s
  simp only [seatEntry, hq, hplan, hcheck]
  exact updRing_eq_setRing _ (hush ▸ hq)

/-- Settles O18: `seatEntry_refuses` on the ring as the arrival leaves it. -/
theorem refusedEntriesCompleteAtOnce : Obligations.RefusedEntriesCompleteAtOnce := by
  unfold Obligations.RefusedEntriesCompleteAtOnce
  intro s c r e st n p hr hfrag hreads hstale hread hphase hstruct hfrags hplan hcheck
  let q : Ring := { r with reads := r.reads - 1, hot := true }
  have hu : entryArrives c e s
      = readAhead c (setRing c (consume e none q) (refuseEntry c q e st n (setRing c q s))) := by
    rw [entryArrives_valid hr hfrag hreads hstale hread hphase, takeEntry_seats hstruct hfrags,
      seatEntry_refuses (setRing_get? c q s) (p := p) hplan hcheck]
  obtain ⟨t, ht, hv⟩ := views_of_run (i := .entryRead c e false) rfl hu
  obtain ⟨hseats, hwriter, hring⟩ := readAhead_frame c (setRing c (consume e none q) (refuseEntry c q e st n (setRing c q s)))
  obtain ⟨hseats', -, hwriter'⟩ := refuseEntry_frame c q e st n (setRing c q s)
  obtain ⟨m, hring⟩ := hring _ (setRing_get? ..)
  refine ⟨t, refusedItem c q e st n (setRing c q s), ht, ?_, ?_, rfl, rfl, rfl, rfl, rfl, rfl, rfl, rfl, rfl, ?_⟩
  · exact (views_seats hv).trans (hseats.trans hseats')
  · exact (views_writer hv).trans (hwriter.trans hwriter')
  · exact ⟨_, (congrArg (fun u => u.rings.get? c) (views_ush hv)).trans hring, rfl⟩

/-! ### Seats taken -/

/-- A seat that is free has no row. -/
theorem get?_of_freeSeat {s : State} {f k : Nat} (h : freeSeat s f = some k) : s.seats.get? k = none := by
  unfold freeSeat at h
  split at h
  · cases h
  · simpa using (List.mem_filter.1 (pick_mem h)).2

/-- An entry that passes the checks, with a free seat, takes it, and its ring moves past it. -/
theorem seatEntry_seats {c k : Nat} {q : Ring} {e : Entry} {fs : List Fragment} {s : State} {p : OpEntry}
    (hq : s.ush.rings.get? c = some q) (hplan : planEntry s e.opc e.ps = some p)
    (hcheck : admissionCheck s q.owner q.ringId e fs = none) (hfree : freeSeat s q.owner = some k) :
    seatEntry c e fs s = bump Ctr.admitted 1 (spend (setRing c { consume e none q with admitted := q.admitted + 1 }
      { s with seats := s.seats.put k (newSeat s c q e fs p), order := s.order + 1 })) := by
  simp only [seatEntry, hq, hplan, hcheck, hfree]
  exact congrArg (fun u => bump Ctr.admitted 1 (spend u)) (updRing_eq_setRing _ hq)

theorem consume_expPhase (e : Entry) (done : Option Record) (r : Ring) :
    (consume e done r).expPhase = r.expPhase ↔ (consume e done r).sqNext ≠ 0 := by
  unfold consume
  dsimp only
  split
  · next h => simp [h]
  · next h => simp [h]

/-- What O19 says of a state in which an entry has taken seat `k`. -/
def TakesSeat (s : State) (c : Nat) (r : Ring) (e : Entry) (k : Nat) (p : OpEntry) (fs : List Fragment) (t : State) : Prop :=
  s.seats.get? k = none ∧ t.writer = s.writer ∧ ∃ x, t.seats = s.seats.put k x ∧ x.fn = r.owner ∧ x.ring = c ∧ x.entry = e
    ∧ x.frags = fs ∧ x.index = r.sqNext ∧ x.phase = .waiting ∧ x.bank = s.stg.active ∧ x.table = p ∧ x.outcome = none
    ∧ ∃ q, t.ush.rings.get? c = some q ∧ q.sqNext = (r.sqNext + 1) % 2 ^ r.log2 ∧ (q.expPhase = r.expPhase ↔ q.sqNext ≠ 0)

/-- A command that seats an entry from its ring, whose reads, hot state and waiting entry alone differ from before. -/
theorem takesSeat_of_seatEntry {i : Instr} {f : State → State} {c k reads : Nat} {hot : Bool} {frag : Option Entry} {r : Ring}
    {e : Entry} {fs : List Fragment} {s : State} {p : OpEntry} (hi : exec i s = run f s)
    (hu : f s = readAhead c (seatEntry c e fs (setRing c { r with reads := reads, hot := hot, frag := frag } s)))
    (hplan : planEntry s e.opc e.ps = some p) (hcheck : admissionCheck s r.owner r.ringId e fs = none)
    (hfree : freeSeat s r.owner = some k) : ∃ t, exec i s = .next t ∧ TakesSeat s c r e k p fs t := by
  rw [seatEntry_seats (setRing_get? c { r with reads := reads, hot := hot, frag := frag } s) (p := p) hplan hcheck hfree] at hu
  obtain ⟨t, ht, hv⟩ := views_of_run hi hu
  obtain ⟨hseats, hwriter, hring⟩ := readAhead_frame c (bump Ctr.admitted 1 (spend (setRing c _ _)))
  obtain ⟨m, hring⟩ := hring _ (setRing_get? ..)
  refine ⟨t, ht, get?_of_freeSeat hfree, (views_writer hv).trans hwriter, _, (views_seats hv).trans hseats, rfl, rfl, rfl, rfl,
    rfl, rfl, rfl, rfl, rfl, _, (congrArg (fun u => u.rings.get? c) (views_ush hv)).trans hring, rfl, ?_⟩
  exact consume_expPhase e none { r with reads := reads, hot := hot, frag := frag }

/-- Settles O19: both paths come to `seatEntry`. -/
theorem admittedEntriesTakeASeat : Obligations.AdmittedEntriesTakeASeat := by
  unfold Obligations.AdmittedEntriesTakeASeat
  intro s c r e k p fs hr hread hplan hcheck hfree
  refine ⟨fun hfrag hreads hstale hphase hstruct hfrags hfs => ?entry, fun hfrag hlen hfragments => ?list⟩
  case entry =>
    subst hfs
    refine takesSeat_of_seatEntry (f := entryArrives c e) (reads := r.reads - 1) (hot := true) (frag := r.frag) rfl ?_ hplan
      hcheck hfree
    rw [entryArrives_valid hr hfrag hreads hstale hread hphase, takeEntry_seats hstruct hfrags]
  case list =>
    refine takesSeat_of_seatEntry (f := fragmentsArrive c fs) (reads := r.reads) (hot := r.hot) (frag := none) rfl ?_ hplan
      hcheck hfree
    simp [fragmentsArrive, hr, hfrag, hlen, hread, hfragments, updRing_eq_setRing _ hr]

/-! ### The registers of the usher -/

theorem pfWrite_of_takes {off : Nat} {f : State → State} {s : State} (h : Takes s) : pfWrite off f s = f s := by
  obtain ⟨hretry, hlc, hready, hpairs⟩ := h
  exact pfWrite_takes hretry hlc hready hpairs

theorem pfGuarded_of_takes {off : Nat} {f : State → State} {s : State} (h : Takes s) (hbad : s.tmp.shadowBad = []) :
    pfGuarded off f s = f s := by
  obtain ⟨hretry, hlc, hready, hpairs⟩ := h
  exact pfGuarded_clean hretry hlc hready hpairs hbad

theorem storedInterval_eq {v : Nat} (h : v < 2 ^ 18) :
    storedInterval (v % 2 ^ 18) = if v = 0 then 0 else if v < 4 then 4 else v := by
  rw [Nat.mod_eq_of_lt h]
  unfold storedInterval
  split
  · rfl
  · split <;> split <;> omega

theorem storedBudget_eq {v : Nat} (h : v < 512) : storedBudget (v % 2 ^ 9) = max 1 (min 256 v) := by
  unfold storedBudget
  split
  · omega
  · split <;> omega

theorem resetRings_halted (f : Nat) (s : State) : halted (resetRings f s) f = false := by
  simp [halted, resetRings]

theorem resetRings_get? {c : Nat} {r : Ring} {s : State} (f : Nat) (hr : s.ush.rings.get? c = some r) :
    (resetRings f s).ush.rings.get? c = some (if r.owner = f then resetRing r else r) := by
  simp [resetRings, Tab.get?_mapRows, hr]

/-- USH_ADMIN_CFG as kept, then SETUP_ERR. It is stated for any kept value, on which the two writes do not depend. -/
theorem keepAdminCfg_setupErr (kept : Nat) (s : State) :
    (let u := { s with ush := { s.ush with adminCfg := kept } }
     { u with ush := { u.ush with setupErr := true } })
      = { s with ush := { s.ush with adminCfg := kept, setupErr := true } } := rfl

/-- USH_ADMIN_CFG as kept, then the ring that it creates. -/
theorem keepAdminCfg_placeRing (kept : Nat) {r : RingSpec} {s : State} (hsize : r.log2 ≠ 0) :
    (let u := placeRing 0 r { s with ush := { s.ush with adminCfg := kept } }
     { u with ush := { u.ush with setupErr := false } })
      = { s with ush := { s.ush with adminCfg := kept, rings := s.ush.rings.put 0 (ringStart r), setupErr := false } } := by
  rw [placeRing, if_neg hsize]

/-- A set-up of PF ring 0 that passes its checks. -/
theorem adminCfg_creates {v : Nat} {s : State} (hnone : ringContext s 0 0 = none) (hen : bit v 16 = true)
    (hsize : (adminSpec s v).log2 ≠ 0) (hcheck : ringSetupCheck s (adminSpec s v) true = none) :
    ∃ kept, adminCfg v s = { s with ush := { s.ush with
      adminCfg := kept, rings := s.ush.rings.put 0 (ringStart (adminSpec s v)), setupErr := false } } := by
  refine ⟨keptAdminCfg v, ?_⟩
  unfold adminCfg
  split
  · next h => rw [hnone] at h; cases h
  · refine (if_neg (by simp [hen])).trans ((if_neg hsize).trans ?_)
    split
    · next h => rw [hcheck] at h; cases h
    · exact keepAdminCfg_placeRing (keptAdminCfg v) hsize

/-- A set-up of PF ring 0 that names no size, or fails a check of R68. -/
theorem adminCfg_fails {v : Nat} {s : State} (hnone : ringContext s 0 0 = none) (hen : bit v 16 = true)
    (h : (adminSpec s v).log2 = 0 ∨ ringSetupCheck s (adminSpec s v) true ≠ none) :
    ∃ kept, adminCfg v s = { s with ush := { s.ush with adminCfg := kept, setupErr := true } } := by
  refine ⟨keptAdminCfg v, ?_⟩
  unfold adminCfg
  split
  · next h => rw [hnone] at h; cases h
  · refine (if_neg (by simp [hen])).trans ?_
    by_cases hsize : (adminSpec s v).log2 = 0
    · exact (if_pos hsize).trans (keepAdminCfg_setupErr (keptAdminCfg v) s)
    · obtain ⟨st, hst⟩ := Option.ne_none_iff_exists'.1 (h.resolve_left hsize)
      refine (if_neg hsize).trans ?_
      split
      · exact keepAdminCfg_setupErr (keptAdminCfg v) s
      · next h => rw [hst] at h; cases h

/-- Settles O20: the registers take their writes, as stored, and `adminCfg` by its checks. -/
theorem usherRegisters : Obligations.UsherRegisters := by
  unfold Obligations.UsherRegisters
  refine ⟨fun s htakes => ⟨fun c r v hr hv => ?interval, fun v hv hbad => ?budget, fun v hv => ?restart⟩,
    fun s v htakes hnone hen => ⟨fun hsize hcheck => ?creates, fun h => ?fails⟩⟩
  case interval =>
    refine leadsTo_of_run (f := setInterval c v) rfl ?_ rfl rfl
    rw [setInterval, pfWrite_of_takes htakes, updRing_eq_setRing _ hr, storedInterval_eq hv]
  case budget =>
    refine leadsTo_of_run (i := .ushBudgetWrite v) rfl ?_ rfl rfl
    rw [pfGuarded_of_takes htakes hbad, storedBudget_eq hv]
  case restart =>
    have hu : pfWrite 0x40018 (fun s => if v.getLsbD 0 then resetRings 0 s else s) s = resetRings 0 s := by
      rw [pfWrite_of_takes htakes, if_pos hv]
    obtain ⟨t, ht, hv⟩ := views_of_run (i := .ushPfRestart v) rfl hu
    have hush : t.ush = (resetRings 0 s).ush := views_ush hv
    refine ⟨t, ht, ?_, fun c r hr => ?_⟩
    · rw [halted, hush]
      exact resetRings_halted 0 s
    · rw [hush, resetRings_get? 0 hr]
      exact ⟨fun hpf => by rw [if_neg hpf], fun hpf => ⟨resetRing r, by rw [if_pos hpf], rfl, rfl, rfl, rfl, rfl, rfl, rfl⟩⟩
  case creates =>
    obtain ⟨kept, hu⟩ := adminCfg_creates hnone hen hsize hcheck
    obtain ⟨t, ht, hv⟩ := views_of_run (i := .ushAdminCfgWrite v) rfl ((pfWrite_of_takes htakes).trans hu)
    refine ⟨t, _, ht, congrArg Ush.setupErr (views_ush hv), congrArg Ush.rings (views_ush hv), rfl, rfl, rfl, rfl, ?_, rfl⟩
    simp [ringStart, adminSpec, bits]
  case fails =>
    obtain ⟨kept, hu⟩ := adminCfg_fails hnone hen h
    obtain ⟨t, ht, hview⟩ := views_of_run (i := .ushAdminCfgWrite v) rfl ((pfWrite_of_takes htakes).trans hu)
    exact ⟨t, ht, congrArg Ush.setupErr (views_ush hview), (congrArg Ush.rings (views_ush hview) :)⟩

end Sys2Proof.Machine

/-! PROOF. Pages, operands and the steps of a run (chapters 03 and 12). -/

namespace Sys2Proof.Machine

open Sys2Proof.Claims

theorem exists_get?_of_mem {α : Type} {t : Tab α} {k : Nat} {a : α} (h : (k, a) ∈ t) : ∃ b, t.get? k = some b := by
  induction t with
  | nil => cases h
  | cons r t ih =>
    obtain ⟨i, b⟩ := r
    simp only [Tab.get?]
    split
    · exact ⟨b, rfl⟩
    · next hne =>
      rcases List.mem_cons.1 h with heq | hmem
      · exact absurd (congrArg Prod.fst heq).symm hne
      · exact ih hmem

/-! ### The grant of pages -/

/-- The oldest waiting seat of a function, found from `b` on in a list, is `b` or a seat of the list that waits. -/
theorem oldest_of_foldl {l : List (Nat × Seat)} {b : Option (Nat × Seat)} {y : Nat × Seat}
    (h : l.foldl (fun b y => if y.2.phase != .waiting then b else match b with
      | none => some y
      | some z => if y.2.order < z.2.order then some y else some z) b = some y) :
    b = some y ∨ y ∈ l ∧ y.2.phase = .waiting := by
  induction l generalizing b with
  | nil => exact Or.inl h
  | cons z l ih =>
    rcases ih h with hb | ⟨hmem, hwait⟩
    · dsimp only at hb
      split at hb
      · exact Or.inl hb
      · next hz =>
        have hz' : z.2.phase = .waiting := by simpa using hz
        split at hb
        · obtain rfl := Option.some.inj hb
          exact Or.inr ⟨List.mem_cons_self .., hz'⟩
        · split at hb
          · obtain rfl := Option.some.inj hb
            exact Or.inr ⟨List.mem_cons_self .., hz'⟩
          · exact Or.inl hb
    · exact Or.inr ⟨List.mem_cons_of_mem _ hmem, hwait⟩

theorem oldestWaiting_spec {s : State} {f : Nat} {y : Nat × Seat} (h : oldestWaiting s f = some y) :
    y ∈ s.seats ∧ y.2.phase = .waiting := by
  rcases oldest_of_foldl h with hnone | ⟨hmem, hwait⟩
  · cases hnone
  · exact ⟨List.mem_of_mem_filter hmem, hwait⟩

/-- A seat in the order of grants waits, and its function's quota admits it. -/
theorem grantOrder_spec {s : State} {y : Nat × Seat} (h : y ∈ grantOrder s) :
    y ∈ s.seats ∧ y.2.phase = .waiting ∧ fitsQuota s y.2 = true := by
  obtain ⟨d, -, hd⟩ := List.mem_filterMap.1 h
  split at hd
  · cases hd
  · next z hz =>
    split at hd
    · next hfits =>
      obtain rfl := Option.some.inj hd
      exact ⟨(oldestWaiting_spec hz).1, (oldestWaiting_spec hz).2, hfits⟩
    · cases hd

theorem nextGrant_spec {s : State} {y : Nat × Seat} (h : nextGrant s = some y) :
    y ∈ grantOrder s ∧ fitsPages s y.2 = true := by
  unfold nextGrant at h
  dsimp only at h
  split at h
  · next z hz =>
    split at h
    · next hfits =>
      obtain rfl := Option.some.inj h
      exact ⟨List.mem_of_find?_eq_some hz, hfits⟩
    · cases h
  · exact ⟨List.mem_of_find?_eq_some h, by simpa using List.find?_some h⟩

theorem askOperand_phase (s : State) (x : Seat) : (askOperand s x).phase = x.phase := by
  unfold askOperand
  split <;> rfl

/-- Settles O21: the candidates wait within quota and pages, and the grant changes the seat chosen alone. -/
theorem pagesAreGranted : Obligations.PagesAreGranted := by
  unfold Obligations.PagesAreGranted
  intro s k x hnext
  obtain ⟨horder, hpages⟩ := nextGrant_spec hnext
  obtain ⟨hmem, hwait, hquota⟩ := grantOrder_spec horder
  obtain ⟨y, hy⟩ := exists_get?_of_mem hmem
  have hgrant : ∃ u : State, grantPages s
        = updSeat k (fun y => askOperand u { y with phase := .granted, input := readyInput y }) u
      ∧ u.seats = s.seats ∧ u.writer = s.writer ∧ u.ush.granted = x.fn := by
    simp only [grantPages, hnext]
    exact ⟨_, rfl, rfl, rfl, rfl⟩
  obtain ⟨u, hu, huseats, huwriter, hugranted⟩ := hgrant
  obtain ⟨t, ht, hv⟩ := views_of_run (i := .pageGrant) rfl hu
  have hseats := views_seats hv
  have hush := views_ush hv
  have hwriter := views_writer hv
  refine ⟨by simpa [fitsPages] using hpages, fun hpf => by simpa [fitsQuota, hpf] using hquota, hwait, t,
    askOperand u { y with phase := .granted, input := readyInput y }, ht, ?_, askOperand_phase _ _,
    (congrArg Ush.granted hush).trans hugranted, hwriter.trans huwriter, fun j hj => ?_⟩
  · rw [hseats]
    rw [updSeat_seats, Tab.get?_upd, if_pos rfl, huseats, hy]
    rfl
  · rw [hseats, updSeat_seats, Tab.get?_upd, if_neg (Ne.symm hj), huseats]

/-! ### Operands -/

theorem updSeat_eq_setSeat {k : Nat} {x : Seat} {s : State} (f : Seat → Seat) (h : s.seats.get? k = some x) :
    updSeat k f s = setSeat k (f x) s := updSeat_some h

theorem ne_waiting_of_stagingOpen {x : Seat} (h : stagingOpen x = true) : x.phase ≠ .waiting := by
  intro hwait
  simp [stagingOpen, hwait] at h

/-- The reads of a seat that holds pages are asked for while its function may master the bus. -/
theorem askOperand_of_staged {s : State} {x : Seat} (h : x.phase ≠ .waiting) :
    askOperand s x = { x with asked := if canMaster s x.fn = true then x.processed + 2 else x.asked } := by
  unfold askOperand
  by_cases hm : canMaster s x.fn = true <;> simp [hm, h]

/-- Settles O22: each row by the guard that its premises meet. -/
theorem operandsAreStaged : Obligations.OperandsAreStaged := by
  unfold Obligations.OperandsAreStaged
  intro s k x hx
  refine ⟨fun input hopen hnone hwhole hasked hlen => ?whole,
    fun chunk hopen hstreamed hnone hcount hahead hasked hlen => ?chunk, fun chunk hfull => ?full,
    fun hphase hopc hstaged => ?processed⟩
  case whole =>
    refine leadsTo_of_run (f := stageOperand k input) rfl ?_ rfl rfl
    simp [stageOperand, hx, hopen, hnone, hwhole, hasked, hlen, updSeat_eq_setSeat _ hx]
  case chunk =>
    refine leadsTo_of_run (f := stageChunk k chunk) rfl ?_ rfl rfl
    have hphase := ne_waiting_of_stagingOpen hopen
    simp only [stageChunk, hx, hopen, hstreamed, hnone, hcount, hahead, hasked, hlen, Option.isNone_none, Bool.and_self,
      decide_true, if_true, updSeat_eq_setSeat _ hx]
    rw [askOperand_of_staged (by exact hphase)]
    simp only [Bool.and_eq_true, decide_eq_true_eq]
  case full =>
    refine leadsTo_of_run (f := stageChunk k chunk) rfl ?_ rfl rfl
    have hfull' : ¬ x.staged < x.processed + 2 := by omega
    simp [stageChunk, hx, hfull']
  case processed =>
    refine leadsTo_of_run (f := processChunk k) rfl ?_ rfl rfl
    have hguard : (decide (x.phase = .executing) && decide (x.entry.opc = 0x401) && decide (x.processed < x.staged)) = true := by
      simp [hphase, hopc, hstaged]
    simp only [processChunk, hx, hguard, if_true, updSeat_eq_setSeat _ hx]
    rw [askOperand_of_staged (by simp [hphase])]

/-! ### The steps of a run -/

theorem stopSide_of_none {k : Nat} {side : Side} {s : State} (h : s.scr.sides.get? k = none) : stopSide k side s = s := by
  simp [stopSide, Tab.upd_of_none _ h]

theorem overrun_a {k : Nat} {x : Seat} {s : State} (hx : s.seats.get? k = some x) (hphase : x.phase = .executing) :
    overrun k .a s = setSeat k { x with overA := true } s :=
  (updSeat_eq_setSeat _ hx).trans (congrArg (setSeat k · s) (if_pos hphase))

theorem overrun_b {k : Nat} {x : Seat} {s : State} (hx : s.seats.get? k = some x) (hphase : x.phase = .executing) :
    overrun k .b s = setSeat k { x with overB := true } s :=
  (updSeat_eq_setSeat _ hx).trans (congrArg (setSeat k · s) (if_pos hphase))

/-- Settles O24: each row on a seat that runs. -/
theorem stepsOfARun : Obligations.StepsOfARun := by
  unfold Obligations.StepsOfARun
  intro s k x hx hphase
  refine ⟨fun hcatch => ?catchUp, fun hcatch => ?recompute, fun hsides => ⟨?overA, ?overB⟩⟩
  case catchUp =>
    refine leadsTo_of_run (f := catchUpDone k) rfl ?_ rfl rfl
    simp [catchUpDone, updSeat_eq_setSeat _ hx, hphase, hcatch]
  case recompute =>
    refine leadsTo_of_run (f := recomputed k) rfl ?_ rfl rfl
    simp [recomputed, hx, updSeat_eq_setSeat _ hx, hphase, hcatch]
  case overA =>
    refine leadsTo_of_run (f := fun s => stopSide k .a (overrun k .a s)) rfl ?_ rfl rfl
    exact (stopSide_of_none (s := overrun k .a s) hsides).trans (overrun_a hx hphase)
  case overB =>
    refine leadsTo_of_run (f := fun s => stopSide k .b (overrun k .b s)) rfl ?_ rfl rfl
    exact (stopSide_of_none (s := overrun k .b s) hsides).trans (overrun_b hx hphase)

end Sys2Proof.Machine

/-! PROOF. The end of a seat's run: what releases, ends and commits leave alone (chapters 01 and 12). -/

namespace Sys2Proof.Machine

open Sys2Proof.Claims

/-! ### What happens to tiles happens to tiles only -/

/-- `t` is `s` but for the tiles, the recorder, the counters, the views and the free counter. -/
def OnlyTiles (s t : State) : Prop :=
  t = { s with til := t.til, evr := t.evr, host := t.host, free := t.free,
               pcie := { s.pcie with msixPending := t.pcie.msixPending },
               glb := { s.glb with trouble := t.glb.trouble, evtPend := t.glb.evtPend, counters := t.glb.counters } }

theorem onlyTiles_refl (s : State) : OnlyTiles s s := rfl

theorem onlyTiles_trans {s t u : State} (h : OnlyTiles s t) (g : OnlyTiles t u) : OnlyTiles s u := by
  unfold OnlyTiles at *
  rw [g, h]

theorem onlyTiles_of_logs {s t : State} (h : OnlyLogs s t) : OnlyTiles s t := by
  unfold OnlyTiles
  rw [h]

theorem OnlyTiles.seats {s t : State} (h : OnlyTiles s t) : t.seats = s.seats := by rw [h]

theorem retireTile_only (t cause : Nat) (s : State) : OnlyTiles s (retireTile t cause s) := by
  unfold retireTile
  dsimp only
  split
  · exact onlyTiles_refl s
  · have h : OnlyTiles s (trouble 7 (event 0x0602 2 deviceWide [byte t, byte cause]
        (updTile t (fun y => { y with state := .retired, retiredHour := hoursOf s.evr.time, retireWanted := false }) s))) := by
      refine onlyTiles_trans ?_ (onlyTiles_of_logs (onlyLogs_trans (event_logs ..) (trouble_logs ..)))
      rfl
    split
    · exact onlyTiles_trans h rfl
    · exact h

theorem atRelease_only (t : Nat) (s : State) : OnlyTiles s (atRelease t s) := by
  unfold atRelease
  dsimp only
  split
  · exact onlyTiles_refl s
  · have h : OnlyTiles s (match (tileAt s t).next with
        | none => s
        | some n => updTile t (fun y => { y with pool := n.1, split := n.2, next := none, cached := [], cachedB := [] }) s) := by
      split <;> rfl
    split
    · exact onlyTiles_trans h (retireTile_only ..)
    · exact h

theorem freeUnit?_only (u : Option Nat) (s : State) : OnlyTiles s (freeUnit? u s) := by
  cases u with
  | none => exact onlyTiles_refl s
  | some v => exact onlyTiles_trans (t := updTile (v / 2) _ s) rfl (atRelease_only ..)

theorem blame?_only (t : Option Nat) (s : State) : OnlyTiles s (blame? t s) := by
  cases t with
  | none => exact onlyTiles_refl s
  | some n =>
    unfold blame? blame
    dsimp only
    split
    · exact onlyTiles_trans (t := updTile n _ s) rfl (retireTile_only ..)
    · rfl

theorem decideBlame_only (runs : List Run) (last : List Nat) (s : State) : OnlyTiles s (decideBlame runs last s) := by
  induction runs generalizing s with
  | nil => exact onlyTiles_refl s
  | cons r rest ih =>
    unfold decideBlame
    dsimp only
    refine onlyTiles_trans ?_ (ih _)
    split
    · exact blame?_only ..
    · split
      · exact blame?_only ..
      · exact onlyTiles_trans (blame?_only ..) (blame?_only ..)

theorem countRun_only (x : Seat) (cclk : Nat) (s : State) : OnlyTiles s (countRun x cclk s) := by
  have htile (u : Option Nat) (v : State) :
      OnlyTiles v (match u with | some n => bump (Ctr.tilBusy (n / 2)) cclk v | none => v) := by cases u <;> rfl
  unfold countRun
  dsimp only
  have h1 := onlyTiles_trans (htile x.tileA s) (htile x.tileB _)
  split
  · split
    · exact h1
    · exact onlyTiles_trans h1 rfl
  · split
    · exact onlyTiles_trans h1 rfl
    · exact onlyTiles_trans h1 rfl

/-! ### What the end of a run may touch -/

/-- `t` is `s` but for what the end of an operation may touch: of the key table the slots and the working records, of the plan
the images that load; neither the writer, nor the rings, the meters, the monitors or the twin link are part of it. -/
def OnlyEnds (s t : State) : Prop :=
  t = { s with seats := t.seats, til := t.til, scr := { s.scr with sides := t.scr.sides },
               keys := { s.keys with slots := t.keys.slots, stateful := t.keys.stateful, curves := t.keys.curves, log := t.keys.log },
               dig := { s.dig with streams := t.dig.streams }, stg := { s.stg with loading := t.stg.loading },
               tkb := { s.tkb with approval := t.tkb.approval, result := t.tkb.result },
               rng := { s.rng with insts := t.rng.insts }, evr := t.evr, host := t.host, free := t.free,
               ten := { s.ten with table := t.ten.table, quiesceWaits := t.ten.quiesceWaits },
               pcie := { s.pcie with msixPending := t.pcie.msixPending },
               glb := { s.glb with trouble := t.glb.trouble, evtPend := t.glb.evtPend, counters := t.glb.counters } }

theorem onlyEnds_refl (s : State) : OnlyEnds s s := rfl

theorem onlyEnds_trans {s t u : State} (h : OnlyEnds s t) (g : OnlyEnds t u) : OnlyEnds s u := by
  unfold OnlyEnds at *
  rw [g, h]

theorem onlyEnds_of_tiles {s t : State} (h : OnlyTiles s t) : OnlyEnds s t := by
  unfold OnlyEnds
  rw [h]

section
variable {s t : State} (h : OnlyEnds s t)
include h

theorem OnlyEnds.writer : t.writer = s.writer := by rw [h]
theorem OnlyEnds.ush : t.ush = s.ush := by rw [h]
theorem OnlyEnds.twn : t.twn = s.twn := by rw [h]
theorem OnlyEnds.tmp : t.tmp = s.tmp := by rw [h]
theorem OnlyEnds.lcs : t.lcs = s.lcs := by rw [h]
theorem OnlyEnds.otp : t.otp = s.otp := by rw [h]
theorem OnlyEnds.pending : t.pending = s.pending := by rw [h]
theorem OnlyEnds.now : t.now = s.now := by rw [h]
theorem OnlyEnds.box : t.box = s.box := by rw [h]
theorem OnlyEnds.resets : t.ten.resets = s.ten.resets := by rw [h]
theorem OnlyEnds.evtEnable : t.glb.evtEnable = s.glb.evtEnable := by rw [h]
theorem OnlyEnds.scratch : t.glb.scratch = s.glb.scratch := by rw [h]
theorem OnlyEnds.pcie : t.pcie = { s.pcie with msixPending := t.pcie.msixPending } := congrArg State.pcie h
theorem OnlyEnds.keys : t.keys = { s.keys with slots := t.keys.slots, stateful := t.keys.stateful, curves := t.keys.curves,
                                               log := t.keys.log } := congrArg State.keys h
theorem OnlyEnds.stg : t.stg = { s.stg with loading := t.stg.loading } := congrArg State.stg h

end

theorem onlyEnds_foldl {α : Type} (f : State → α → State) (h : ∀ s a, OnlyEnds s (f s a)) (l : List α) (s : State) :
    OnlyEnds s (l.foldl f s) := by
  induction l generalizing s with
  | nil => exact onlyEnds_refl s
  | cons a l ih => exact onlyEnds_trans (h s a) (ih _)

theorem updSeat_ends (k : Nat) (f : Seat → Seat) (s : State) : OnlyEnds s (updSeat k f s) := rfl

/-! ### The pair -/

/-- A seat without its pair and its lease. -/
def withoutPair (y : Seat) : Seat := { y with tileA := none, tileB := none, lease := { group := 0, keccak := 0, sha2 := 0 } }

theorem releasePair_ends (k : Nat) (s : State) : OnlyEnds s (releasePair k s) := by
  unfold releasePair
  split
  · exact onlyEnds_refl s
  · refine onlyEnds_trans ?_ (updSeat_ends ..)
    refine onlyEnds_trans ?_ (onlyEnds_of_tiles (freeUnit?_only ..))
    refine onlyEnds_trans ?_ (onlyEnds_of_tiles (freeUnit?_only ..))
    rfl

/-- Of the seats, only the seat whose pair is released changes. -/
theorem releasePair_seats (k : Nat) (s : State) : (releasePair k s).seats = s.seats.upd k withoutPair := by
  unfold releasePair
  split
  · next h => exact (Tab.upd_of_none _ h).symm
  · dsimp only
    rw [updSeat_seats, (freeUnit?_only ..).seats, (freeUnit?_only ..).seats]
    rfl

/-! ### Approvals, leaves and held changes -/

theorem endCeremony_ends (result : Nat) (s : State) : OnlyEnds s (endCeremony result s) := by
  have hfinish (c : Ceremony) : OnlyEnds s (event 0x0C02 1 deviceWide ([byte c.action, byte result] ++ leBytes 2 (countedMask c))
      { s with tkb := { s.tkb with approval := .none, result := result } }) := by
    refine onlyEnds_trans ?_ (onlyEnds_of_tiles (onlyTiles_of_logs (event_logs ..)))
    rfl
  unfold endCeremony
  dsimp only
  split
  · exact hfinish _
  · exact hfinish _
  · exact onlyEnds_refl s

theorem endCeremony_seats (result : Nat) (s : State) : (endCeremony result s).seats = s.seats := by
  unfold endCeremony
  dsimp only
  split <;> simp

theorem lapseApproval_ends (k : Nat) (s : State) : OnlyEnds s (lapseApproval k s) := by
  unfold lapseApproval
  split
  · split
    · exact onlyEnds_refl s
    · dsimp only
      split
      · exact onlyEnds_trans (t := { s with tkb := _ }) rfl (endCeremony_ends ..)
      · rfl
  · exact onlyEnds_refl s

theorem lapseApproval_seats (k : Nat) (s : State) : (lapseApproval k s).seats = s.seats := by
  unfold lapseApproval
  split
  · split
    · rfl
    · dsimp only
      split
      · exact endCeremony_seats ..
      · rfl
  · rfl

theorem forfeitLeaf_ends (x : Seat) (s : State) : OnlyEnds s (forfeitLeaf x s) := by
  unfold forfeitLeaf
  split
  · exact onlyEnds_refl s
  · split
    · rfl
    · exact onlyEnds_refl s

theorem forfeitLeaf_seats (x : Seat) (s : State) : (forfeitLeaf x s).seats = s.seats := by
  unfold forfeitLeaf
  split
  · rfl
  · split <;> rfl

/-! ### The run dropped -/

/-- A seat whose run is dropped. -/
def withoutRun (y : Seat) : Seat := { withoutPair y with leaf := none, awaits := none, credit := none, undo := Undo.none }

theorem dropRun_ends (k : Nat) (s : State) : OnlyEnds s (dropRun k s) := by
  unfold dropRun
  split
  · exact onlyEnds_refl s
  · next x _ =>
    dsimp only
    have h1 : OnlyEnds s (if x.phase = .held then undoHold x.undo (releasePair k s) else releasePair k s) := by
      split
      · exact onlyEnds_trans (releasePair_ends k s) rfl
      · exact releasePair_ends k s
    exact onlyEnds_trans (onlyEnds_trans (onlyEnds_trans (onlyEnds_trans h1 (forfeitLeaf_ends ..)) (lapseApproval_ends ..))
      (updSeat_ends ..)) rfl

/-- Of the seats, only the seat whose run is dropped changes. -/
theorem dropRun_seats (k : Nat) (s : State) : (dropRun k s).seats = s.seats.upd k withoutRun := by
  unfold dropRun
  split
  · next h => exact (Tab.upd_of_none _ h).symm
  · next x _ =>
    dsimp only
    have h1 : (if x.phase = .held then undoHold x.undo (releasePair k s) else releasePair k s).seats
        = s.seats.upd k withoutPair := by
      split <;> exact releasePair_seats k s
    rw [updSeat_seats, lapseApproval_seats, forfeitLeaf_seats, h1, Tab.upd_upd]
    rfl

/-! ### The seat released -/

theorem endQuiesce_ends (st : Status) (k : Nat) (s : State) : OnlyEnds s (endQuiesce st k s) := rfl

theorem endQuiesces_ends (s : State) : OnlyEnds s (endQuiesces s) := by
  unfold endQuiesces
  generalize s.ten.quiesceWaits = l
  refine onlyEnds_foldl _ (fun u w => ?_) l s
  split
  · exact endQuiesce_ends ..
  · exact onlyEnds_refl u

theorem releaseSeat_ends (k : Nat) (s : State) : OnlyEnds s (releaseSeat k s) :=
  onlyEnds_trans (t := { s with seats := _, scr := _, ten := _, rng := _ }) rfl (endQuiesces_ends _)

/-- What a quiesce that ends changes of a seat is its outcome. -/
theorem endQuiesces_get? {k : Nat} {x : Seat} {s : State} (h : s.seats.get? k = some x) :
    ∃ o, (endQuiesces s).seats.get? k = some { x with outcome := o } := by
  suffices hfold : ∀ (l : List (Nat × Nat)) (u : State), (∃ o, u.seats.get? k = some { x with outcome := o }) →
      ∃ o, (l.foldl (fun t w => if quiet t w.2 then endQuiesce .ok w.1 t else t) u).seats.get? k
        = some { x with outcome := o } from hfold _ s ⟨x.outcome, h⟩
  intro l
  induction l with
  | nil => exact fun u hu => hu
  | cons w l ih =>
    rintro u ⟨o, ho⟩
    refine ih _ ?_
    dsimp only
    split
    · simp only [endQuiesce, updSeat_seats, Tab.get?_upd, ho]
      split
      · exact ⟨_, rfl⟩
      · exact ⟨o, rfl⟩
    · exact ⟨o, ho⟩

/-- The release of another seat changes of a seat no more than its outcome. -/
theorem releaseSeat_get?_other {j k : Nat} {x : Seat} {s : State} (hjk : j ≠ k) (h : s.seats.get? k = some x) :
    ∃ o, (releaseSeat j s).seats.get? k = some { x with outcome := o } := by
  refine endQuiesces_get? ?_
  dsimp only
  rw [Tab.get?_del, if_neg hjk, h]

/-! ### An operation that ends without a commit instant -/

theorem complete_writer (i : Item) (s : State) : (complete i s).writer = s.writer ++ [i] :=
  (countCompletion_frame i.record.status (handOver i s)).2.1

theorem complete_seats (i : Item) (s : State) : (complete i s).seats = s.seats :=
  (countCompletion_frame i.record.status (handOver i s)).1

/-- `t` is `s` with an item more in the writer's queue, but for what the end of an operation may touch. -/
def EndsWith (i : Item) (s t : State) : Prop :=
  OnlyEnds (handOver i s) t

theorem complete_endsWith (i : Item) (s : State) : EndsWith i s (complete i s) := by
  unfold EndsWith complete countCompletion
  split <;> rfl

theorem endsWith_of_ends {i : Item} {s t u : State} (h : OnlyEnds s t) (g : EndsWith i t u) : EndsWith i s u := by
  unfold EndsWith handOver OnlyEnds at *
  rw [g, h]

theorem EndsWith.writer {i : Item} {s t : State} (h : EndsWith i s t) : t.writer = s.writer ++ [i] := OnlyEnds.writer h

theorem EndsWith.tmp {i : Item} {s t : State} (h : EndsWith i s t) : t.tmp = s.tmp :=
  OnlyEnds.tmp (s := handOver i s) h

/-- A seated operation that is not detached ends with its status: its item stands last in the writer's queue, and its record
charges nothing. -/
theorem endSeat_endsWith {k : Nat} {x : Seat} {s : State} (st : Status) (hx : s.seats.get? k = some x)
    (hd : x.detached = false) :
    ∃ i, EndsWith i s (endSeat k st s) ∧ i.seat = some k ∧ i.out = [] ∧ i.record.status = st ∧ i.record.units = 0
      ∧ i.record.exec = 0 ∧ i.record.userTag = x.entry.userTag := by
  have hends : ∀ i, EndsWith i s (complete i (updSeat k (fun y => { y with phase := .committed }) (dropRun k s))) := fun i =>
    endsWith_of_ends (onlyEnds_trans (dropRun_ends k s) (updSeat_ends ..)) (complete_endsWith ..)
  simp only [endSeat, hx, hd, Bool.false_eq_true, if_false]
  exact ⟨_, hends _, rfl, rfl, rfl, rfl, rfl, rfl⟩

/-! ### The commit instant -/

theorem commitApproval_ends (k : Nat) (s : State) : OnlyEnds s (commitApproval k s) := by
  unfold commitApproval
  split
  · split <;> rfl
  · exact onlyEnds_refl s

theorem commitApproval_seats (k : Nat) (s : State) : (commitApproval k s).seats = s.seats := by
  unfold commitApproval
  split
  · split <;> rfl
  · rfl

theorem markSigned_ends (x : Seat) (s : State) : OnlyEnds s (markSigned x s) := by
  unfold markSigned
  split
  · rfl
  · exact onlyEnds_refl s

theorem markSigned_seats (x : Seat) (s : State) : (markSigned x s).seats = s.seats := by
  unfold markSigned
  split <;> rfl

/-- A seat at its commit instant. -/
def committedSeat (y : Seat) : Seat := { y with phase := .committed, leaf := none, awaits := none, undo := Undo.none }

/-- The state of a seat's commit instant, before its item is handed over. -/
def commitBody (k : Nat) (x : Seat) (o : Outcome) (held : Nat) (s : State) : State :=
  let s' := updSeat k committedSeat
    (markSigned x (commitApproval k (charge x.fn x.table.cls (commitRecord s k x o held).units s)))
  { s' with scr := { s'.scr with sides := s'.scr.sides.del k } }

/-- The item of a seat that commits. -/
def committedItem (k : Nat) (x : Seat) (o : Outcome) (held : Nat) (s : State) : Item :=
  { fn := x.fn, ring := x.ring, seq := x.seq, index := x.index, seat := some k, outPtr := x.entry.outPtr,
    out := o.out, batchEnd := x.entry.batchEnd, record := commitRecord s k x o held, stopped := false }

theorem commitSeat_eq {k : Nat} {x : Seat} {o : Outcome} {s : State} (held : Nat) (hx : s.seats.get? k = some x)
    (ho : x.outcome = some o) :
    commitSeat k held s = if x.detached then releaseSeat k (commitBody k x o held s)
      else complete (committedItem k x o held s) (commitBody k x o held s) := by
  simp only [commitSeat, hx, ho]
  rfl

theorem commitBody_ends (k : Nat) (x : Seat) (o : Outcome) (held : Nat) (s : State) :
    OnlyEnds (charge x.fn x.table.cls (commitRecord s k x o held).units s) (commitBody k x o held s) :=
  onlyEnds_trans (onlyEnds_trans (onlyEnds_trans (commitApproval_ends ..) (markSigned_ends ..)) (updSeat_ends ..)) rfl

theorem commitBody_writer (k : Nat) (x : Seat) (o : Outcome) (held : Nat) (s : State) :
    (commitBody k x o held s).writer = s.writer := (commitBody_ends k x o held s).writer

theorem commitBody_seats (k : Nat) (x : Seat) (o : Outcome) (held : Nat) (s : State) :
    (commitBody k x o held s).seats = s.seats.upd k committedSeat := by
  simp only [commitBody, updSeat_seats, markSigned_seats, commitApproval_seats]
  rfl

end Sys2Proof.Machine

/-! PROOF. The comparison at the end of an interval: commits (R26, R27, R75, R116) and reruns (R316, R317). -/

namespace Sys2Proof.Machine

open Sys2Proof.Claims

theorem sharing_of_twn {s t : State} (h : t.twn = s.twn) : sharing t = sharing s := by
  unfold sharing
  rw [h]

/-! ### What the holds that are released leave of a seat that committed -/

/-- Seat `k` has passed its commit instant: its pair is free, and its function is still there. -/
def Committed (k : Nat) (s : State) : Prop :=
  ∃ y, s.seats.get? k = some y ∧ y.phase = .committed ∧ y.tileA = none ∧ y.tileB = none ∧ y.detached = false

theorem commitBody_get? {j k : Nat} {x y : Seat} {o : Outcome} {s : State} (held : Nat) (h : s.seats.get? k = some y) :
    (commitBody j x o held s).seats.get? k = some (if j = k then committedSeat y else y) := by
  rw [commitBody_seats, Tab.get?_upd, h]
  split <;> rfl

/-- The commit of any seat leaves a committed seat so. -/
theorem commitSeat_committed {k : Nat} {s : State} (j held : Nat) (h : Committed k s) : Committed k (commitSeat j held s) := by
  obtain ⟨y, hy, hphase, hA, hB, hd⟩ := h
  have hstay : Committed k s := ⟨y, hy, hphase, hA, hB, hd⟩
  cases hx : s.seats.get? j with
  | none => simpa only [commitSeat, hx] using hstay
  | some x =>
    cases ho : x.outcome with
    | none => simpa only [commitSeat, hx, ho] using hstay
    | some o =>
      have hbody := commitBody_get? (j := j) (x := x) (o := o) held hy
      rw [commitSeat_eq held hx ho]
      by_cases hjk : j = k
      · subst hjk
        obtain rfl : x = y := Option.some.inj (hx.symm.trans hy)
        rw [if_neg (by simp [hd])]
        exact ⟨committedSeat x, by rw [complete_seats, hbody, if_pos rfl], rfl, hA, hB, hd⟩
      · rw [if_neg hjk] at hbody
        split
        · obtain ⟨o', ho'⟩ := releaseSeat_get?_other hjk hbody
          exact ⟨_, ho', hphase, hA, hB, hd⟩
        · exact ⟨y, by rw [complete_seats, hbody], hphase, hA, hB, hd⟩

/-- A commit adds to the writer's queue at its end. -/
theorem commitSeat_writer (j held : Nat) (s : State) : s.writer <+: (commitSeat j held s).writer := by
  cases hx : s.seats.get? j with
  | none => simp only [commitSeat, hx, List.prefix_rfl]
  | some x =>
    cases ho : x.outcome with
    | none => simp only [commitSeat, hx, ho, List.prefix_rfl]
    | some o =>
      rw [commitSeat_eq held hx ho]
      split
      · rw [(releaseSeat_ends ..).writer, commitBody_writer]
      · rw [complete_writer, commitBody_writer]
        exact List.prefix_append ..

theorem releaseHolds_keeps {k : Nat} {s : State} (held : List (Nat × Nat)) (h : Committed k s) :
    Committed k (releaseHolds held s) ∧ s.writer <+: (releaseHolds held s).writer := by
  refine List.foldlRecOn (motive := fun t => Committed k t ∧ s.writer <+: t.writer) _ _ ⟨h, List.prefix_rfl⟩
    fun t ht j _ => ?_
  split
  · exact ⟨commitSeat_committed _ _ ht.1, ht.2.trans (commitSeat_writer ..)⟩
  · exact ⟨commitSeat_committed _ _ ht.1, ht.2.trans (commitSeat_writer j _ t)⟩

theorem releaseAbandoned_keeps {k : Nat} {s : State} (h : Committed k s) :
    Committed k (releaseAbandoned s) ∧ s.writer <+: (releaseAbandoned s).writer := by
  unfold releaseAbandoned
  split
  · exact ⟨h, List.prefix_rfl⟩
  · exact releaseHolds_keeps [] h

/-! ### A run that matched -/

/-- What O25 says of a seat that committed in `t`, its interval having lasted `time`. -/
def Commits (s : State) (k : Nat) (x : Seat) (o : Outcome) (t : State) (time : Nat) : Prop :=
  ∃ i rest, t.writer = s.writer ++ i :: rest ∧ i.seat = some k ∧ i.ring = x.ring ∧ i.index = x.index ∧ i.out = o.out
    ∧ i.record.status = o.status ∧ i.record.outLen = o.out.length ∧ i.record.rounds = o.rounds
    ∧ i.record.userTag = x.entry.userTag ∧ i.record.seatHint = k ∧ i.record.exec = time ∧ i.record.scale = false
    ∧ i.record.units = chargeUnits x.header x.table x.entry.ps
    ∧ ∃ y, t.seats.get? k = some y ∧ y.phase = .committed ∧ y.tileA = none ∧ y.tileB = none

/-- A seat whose changes were made, before it commits. -/
def heldSeat (x : Seat) (o : Outcome) (u : Undo) (y : Seat) : Seat :=
  { y with outcome := some o, awaits := x.awaits, phase := .held, undo := u }

/-- Where nothing is shared with a twin, a run without changes commits at once. -/
theorem finishRun_eq {s : State} (k : Nat) (x : Seat) {o : Outcome} (hs : sharing s = false) (hch : o.changes = [])
    (hq : o.status ≠ .quota) :
    finishRun k x o s = releaseAbandoned (commitSeat k 0 (updSeat k (heldSeat x o (undoOf s s)) s)) := by
  have hs' : ∀ f, sharing (updSeat k f s) = false := fun _ => hs
  have ho : ({ status := o.status, out := o.out, rounds := o.rounds, interval := o.interval, changes := [] } : Outcome) = o := by
    rw [← hch]
  simp only [finishRun, hch, applyChanges, if_neg hq, hs, hs', ho, Bool.false_and, Bool.false_eq_true, if_false]
  rfl

theorem execField_of_short {n : Nat} (h : n < 2 ^ 32) : execField n = (false, n) := if_neg (by omega)

theorem reported_of_onTime {x : Seat} (o : Outcome) (h : x.overA = false) : reported x o = o := by
  simp [reported, h]

/-- Sides that match commit their outcome, its interval as EXEC_CCLK. -/
theorem compareRun_commits {s : State} {k a b : Nat} {x : Seat} {o : Outcome} (cclk : Nat) (hx : s.seats.get? k = some x)
    (hover : x.overA = false) (hm : mismatched s k x a b = false) (hd : x.detached = false) (hs : sharing s = false)
    (hch : o.changes = []) (hq : o.status ≠ .quota) (hiv : o.interval < 2 ^ 32) :
    Commits s k x o (compareRun k a b cclk x o s) o.interval := by
  let u := decideBlame x.runs [sidePrint a x.overA] (releasePair k (countRun x cclk s))
  have hends : OnlyEnds s u := onlyEnds_trans (onlyEnds_trans (onlyEnds_of_tiles (countRun_only ..)) (releasePair_ends ..))
    (onlyEnds_of_tiles (decideBlame_only ..))
  have hu : u.seats.get? k = some (withoutPair x) := by
    rw [(decideBlame_only ..).seats, releasePair_seats, (countRun_only ..).seats, Tab.get?_upd, if_pos rfl, hx]
    rfl
  let w := updSeat k (heldSeat x o (undoOf u u)) u
  let z := heldSeat x o (undoOf u u) (withoutPair x)
  have hw : w.seats.get? k = some z := by
    rw [updSeat_seats, Tab.get?_upd, if_pos rfl, hu]
    rfl
  have heq : compareRun k a b cclk x o s = releaseAbandoned (commitSeat k 0 w) := by
    simp only [compareRun, hm, Bool.false_eq_true, if_false, reported_of_onTime o hover]
    exact finishRun_eq k x ((sharing_of_twn hends.twn).trans hs) hch hq
  have hcommit : commitSeat k 0 w
      = complete (committedItem k z o 0 w) (commitBody k z o 0 w) := by
    rw [commitSeat_eq 0 hw rfl]
    exact if_neg (by simp [z, heldSeat, withoutPair, hd])
  have hdone : Committed k (commitSeat k 0 w) := by
    refine ⟨committedSeat z, ?_, rfl, rfl, rfl, hd⟩
    rw [hcommit, complete_seats, commitBody_get? 0 hw, if_pos rfl]
  obtain ⟨⟨y, hy, hphase, hA, hB, -⟩, rest, hrest⟩ := releaseAbandoned_keeps hdone
  have hexec := execField_of_short hiv
  refine ⟨committedItem k z o 0 w, rest, ?_, rfl, rfl, rfl, rfl, rfl, rfl, rfl, rfl,
    rfl, congrArg Prod.snd hexec, congrArg Prod.fst hexec, rfl, y, by rw [heq, hy], hphase, hA, hB⟩
  rw [heq, ← hrest, hcommit, complete_writer, commitBody_writer, (updSeat_ends ..).writer, hends.writer]
  simp

theorem finished_of {s : State} {k : Nat} {x : Seat} {o : Outcome} (hx : s.seats.get? k = some x) (hphase : x.phase = .executing)
    (ho : x.outcome = some o) : finished s k = some (x, o) := by
  simp [finished, hx, hphase, ho]

/-- What commits, commits whatever the end of the command adds to the views. -/
theorem commits_of_views {s u t : State} {k time : Nat} {x : Seat} {o : Outcome} (h : Commits s k x o u time)
    (hv : OnlyViews { u with pending := s.pending, otp := s.otp } t) : Commits s k x o t time := by
  have hseats := views_seats hv
  have hwriter := views_writer hv
  unfold Commits
  rw [hseats, hwriter]
  exact h

/-- Settles O25: both rows compare sides that match. -/
theorem matchingRunsCommit : Obligations.MatchingRunsCommit := by
  unfold Obligations.MatchingRunsCommit
  intro s k a b cclk x o hx hphase ho hover hm hd hs hch hq hiv hcclk
  refine ⟨fun hfixed => ?fixed, fun hfree hm0 => ?unfixed⟩
  case fixed =>
    have hu : intervalEnds k a b s = compareRun k a b o.interval x o s := by
      simp only [intervalEnds, finished_of hx hphase ho, hfixed, Bool.false_eq_true, if_false]
    obtain ⟨t, ht, hv⟩ := views_of_run (i := .intervalEnd k a b) (f := intervalEnds k a b) rfl hu
    exact ⟨t, ht, commits_of_views (compareRun_commits _ hx hover hm hd hs hch hq hiv) hv⟩
  case unfixed =>
    have hu : unfixedEnds k cclk s = compareRun k 0 0 cclk x { o with interval := cclk } s := by
      simp only [unfixedEnds, finished_of hx hphase ho, hfree, if_true]
    obtain ⟨t, ht, hv⟩ := views_of_run (i := .unfixedIntervalCommit k cclk) (f := unfixedEnds k cclk) rfl hu
    exact ⟨t, ht, commits_of_views (o := { o with interval := cclk }) (compareRun_commits _ hx hover hm0 hd hs hch hq hcclk) hv⟩

/-! ### A run that mismatched -/

/-- An event that leaves its channel below its K is counted, and changes no more (R449). -/
theorem countEvent_below {s : State} {n : Nat} (h : (monAt s n).stamps.length + 1 < (monAt s n).k) :
    OnlyLogs { s with tmp := (countEvent n s).tmp } (countEvent n s) := by
  have hlen : ¬ (monAt s n).k
      ≤ (within (within ((monAt s n).stamps ++ [s.now]) s.now (2 ^ 24)) s.now (monAt s n).w).length := by
    have h1 := List.length_filter_le (fun t => decide (s.now < t + (monAt s n).w))
      (within ((monAt s n).stamps ++ [s.now]) s.now (2 ^ 24))
    have h2 := List.length_filter_le (fun t => decide (s.now < t + 2 ^ 24)) ((monAt s n).stamps ++ [s.now])
    rw [List.length_append, List.length_singleton] at h2
    unfold within at *
    omega
  unfold countEvent
  split
  · rfl
  · dsimp only
    split <;> rw [if_neg (by exact hlen)] <;> rfl

theorem noteRun_ends (k : Nat) (x : Seat) (a b : Nat) (s : State) : OnlyEnds s (noteRun k x a b s) := by
  unfold noteRun
  split
  · split
    · exact onlyEnds_of_tiles (blame?_only (some _) s)
    · exact onlyEnds_refl s
  · rfl

/-- A mismatch changes of the seats no more than the list of the runs of its own. -/
theorem noteRun_get? {k : Nat} {x y : Seat} {s : State} (a b : Nat) (h : s.seats.get? k = some y) :
    ∃ runs, (noteRun k x a b s).seats.get? k = some { y with runs := runs } := by
  unfold noteRun
  split
  · refine ⟨y.runs, ?_⟩
    split
    · exact (congrArg (Tab.get? · k) (blame?_only (some _) s).seats).trans h
    · exact h
  · simp only [updSeat_seats, Tab.get?_upd, if_true, h]
    exact ⟨_, rfl⟩

/-- The state of a mismatched run that is discarded, its pair released. -/
def discarded (k : Nat) (x : Seat) (a b : Nat) (s : State) : State :=
  let detail := leBytes 2 x.entry.opc ++ [tileByte x.tileA, tileByte x.tileB, byte x.run]
  let s' := noteRun k x a b (releasePair k (bump Ctr.mismatches 1 (event 0x0601 1 x.fn detail s)))
  { s' with scr := { s'.scr with sides := s'.scr.sides.del k } }

theorem discarded_ends (k : Nat) (x : Seat) (a b : Nat) (s : State) : OnlyEnds s (discarded k x a b s) := by
  have hlogs : OnlyEnds s (bump Ctr.mismatches 1 (event 0x0601 1 x.fn
      (leBytes 2 x.entry.opc ++ [tileByte x.tileA, tileByte x.tileB, byte x.run]) s)) :=
    onlyEnds_of_tiles (onlyTiles_of_logs (onlyLogs_trans (event_logs ..) (bump_logs ..)))
  exact onlyEnds_trans (onlyEnds_trans (onlyEnds_trans hlogs (releasePair_ends ..)) (noteRun_ends ..)) rfl

theorem discarded_get? {k : Nat} {x : Seat} {s : State} (a b : Nat) (h : s.seats.get? k = some x) :
    ∃ runs, (discarded k x a b s).seats.get? k = some { withoutPair x with runs := runs } := by
  refine noteRun_get? a b ?_
  rw [releasePair_seats, bump_seats, event_seats, Tab.get?_upd, if_pos rfl, h]
  rfl

/-- The operation waits for its next run. -/
def rerunning (k : Nat) (s : State) : State := bump Ctr.reruns 1 (updSeat k (rerunSeat s) s)

theorem rerunning_get? {k : Nat} {y : Seat} {s : State} (h : s.seats.get? k = some y) :
    (rerunning k s).seats.get? k = some (rerunSeat s y) := by
  rw [rerunning, bump_seats, updSeat_seats, Tab.get?_upd, if_pos rfl, h]
  rfl

/-- A seat that waits for its next run keeps all but what that run makes anew. -/
theorem rerunSeat_spec (s : State) (y : Seat) :
    (rerunSeat s y).phase = .granted ∧ (rerunSeat s y).run = y.run + 1 ∧ (rerunSeat s y).outcome = none
      ∧ (rerunSeat s y).tileA = y.tileA ∧ (rerunSeat s y).tileB = y.tileB ∧ (rerunSeat s y).used = y.used
      ∧ (rerunSeat s y).detached = y.detached := by
  unfold rerunSeat askOperand
  dsimp only
  split <;> exact ⟨rfl, rfl, rfl, rfl, rfl, rfl, rfl⟩

theorem discardRun_eq (k : Nat) (x : Seat) (a b : Nat) (s : State) :
    discardRun k x a b s = countEvent 40 (
      let u := discarded k x a b s
      if 2 ≤ x.run then
        let runs := match u.seats.get? k with | some y => y.runs | none => []
        endSeat k .faultRepeat (countFaultRepeat .faultRepeat (decideBlame runs [] u))
      else match (rerunning k u).seats.get? k with
        | some y => if y.detached && y.input.isNone then operandFails k (rerunning k u) else rerunning k u
        | none => rerunning k u) := rfl

theorem monAt_of_tmp {s t : State} (n : Nat) (h : t.tmp = s.tmp) : monAt t n = monAt s n := by
  unfold monAt
  rw [h]

/-- A mismatch is counted, and no more, after whatever keeps the monitors. -/
theorem countEvent_quiet {s t : State} (ht : t.tmp = s.tmp) (h : (monAt s 40).stamps.length + 1 < (monAt s 40).k) :
    (countEvent 40 t).writer = t.writer ∧ (countEvent 40 t).seats = t.seats := by
  have hlogs : OnlyLogs _ _ := countEvent_below (s := t) (n := 40) (by rw [monAt_of_tmp 40 ht]; exact h)
  constructor <;> rw [hlogs]

theorem countFaultRepeat_only (st : Status) (s : State) : OnlyTiles s (countFaultRepeat st s) := by
  unfold countFaultRepeat
  split <;> rfl

section
variable {k a b : Nat} {x : Seat} {s : State} (hx : s.seats.get? k = some x) (hd : x.detached = false)
  (hk : (monAt s 40).stamps.length + 1 < (monAt s 40).k)
include hx hd hk

/-- The first two mismatches of an operation let it run again. -/
theorem discardRun_again (hrun : x.run < 2) :
    (discardRun k x a b s).writer = s.writer ∧ ∃ y, (discardRun k x a b s).seats.get? k = some y ∧ y.phase = .granted
      ∧ y.run = x.run + 1 ∧ y.outcome = none ∧ y.tileA = none ∧ y.tileB = none ∧ y.used = x.used := by
  obtain ⟨runs, hget⟩ := discarded_get? a b hx
  have hrerun := rerunning_get? hget
  obtain ⟨hphase, hnext, ho, hA, hB, hused, hdet⟩ := rerunSeat_spec (discarded k x a b s) { withoutPair x with runs := runs }
  have hends : OnlyEnds s (rerunning k (discarded k x a b s)) := onlyEnds_trans (discarded_ends k x a b s) rfl
  have heq : discardRun k x a b s = countEvent 40 (rerunning k (discarded k x a b s)) := by
    have hdet' : (rerunSeat (discarded k x a b s) { withoutPair x with runs := runs }).detached = false := hdet.trans hd
    rw [discardRun_eq]
    simp only [if_neg (Nat.not_le.2 hrun), hrerun, hdet', Bool.false_and, Bool.false_eq_true, if_false]
  obtain ⟨hwriter, hseats⟩ := countEvent_quiet hends.tmp hk
  rw [heq, hwriter, hseats, hrerun]
  exact ⟨hends.writer, _, rfl, hphase, hnext, ho, hA, hB, hused⟩

/-- The third ends it. -/
theorem discardRun_ends (hrun : 2 ≤ x.run) :
    ∃ i, (discardRun k x a b s).writer = s.writer ++ [i] ∧ i.seat = some k ∧ i.out = [] ∧ i.record.status = .faultRepeat
      ∧ i.record.units = 0 := by
  obtain ⟨runs, hget⟩ := discarded_get? a b hx
  let u := countFaultRepeat .faultRepeat (decideBlame runs [] (discarded k x a b s))
  have htiles : OnlyTiles (discarded k x a b s) u := onlyTiles_trans (decideBlame_only ..) (countFaultRepeat_only ..)
  have hends : OnlyEnds s u := onlyEnds_trans (discarded_ends k x a b s) (onlyEnds_of_tiles htiles)
  have hu : u.seats.get? k = some { withoutPair x with runs := runs } := by rw [htiles.seats, hget]
  obtain ⟨i, hi, hseat, hout, hst, hunits, -⟩ := endSeat_endsWith .faultRepeat hu hd
  have heq : discardRun k x a b s = countEvent 40 (endSeat k .faultRepeat u) := by
    rw [discardRun_eq]
    simp only [if_pos hrun, hget]
    rfl
  obtain ⟨hwriter, -⟩ := countEvent_quiet (hi.tmp.trans hends.tmp) hk
  exact ⟨i, by rw [heq, hwriter, hi.writer, hends.writer], hseat, hout, hst, hunits⟩

end

/-- Settles O26: `discardRun` on what the counters of the run leave. -/
theorem mismatchesRunAgain : Obligations.MismatchesRunAgain := by
  unfold Obligations.MismatchesRunAgain
  intro s k a b x o hx hphase ho hm hfixed hd hk
  have hcount : OnlyTiles s (countRun x o.interval s) := countRun_only ..
  have hx' : (countRun x o.interval s).seats.get? k = some x := by rw [hcount.seats, hx]
  have hk' : (monAt (countRun x o.interval s) 40).stamps.length + 1 < (monAt (countRun x o.interval s) 40).k := by
    rw [monAt_of_tmp 40 (onlyEnds_of_tiles hcount).tmp]
    exact hk
  have hu : intervalEnds k a b s = discardRun k x a b (countRun x o.interval s) := by
    simp only [intervalEnds, finished_of hx hphase ho, hfixed, Bool.false_eq_true, if_false, compareRun, hm, if_true]
  obtain ⟨t, ht, hv⟩ := views_of_run (i := .intervalEnd k a b) (f := intervalEnds k a b) rfl hu
  have hwriter := views_writer hv
  have hseats := views_seats hv
  refine ⟨fun hrun => ?again, fun hrun => ?ends⟩
  case again =>
    obtain ⟨hw, y, hy, hspec⟩ := discardRun_again (a := a) (b := b) hx' hd hk' hrun
    exact ⟨t, y, ht, hwriter.trans (hw.trans (onlyEnds_of_tiles hcount).writer), (congrArg (Tab.get? · k) hseats).trans hy, hspec⟩
  case ends =>
    obtain ⟨i, hw, hspec⟩ := discardRun_ends (a := a) (b := b) hx' hd hk' hrun
    exact ⟨t, i, ht, hwriter.trans (hw.trans (by rw [(onlyEnds_of_tiles hcount).writer])), hspec⟩

end Sys2Proof.Machine

/-! PROOF. The dispatcher: what a dispatch gives a seat, or how it ends it (R76, R305, R306). -/

namespace Sys2Proof.Machine

open Sys2Proof.Claims

/-! ### What the journal engine may touch -/

/-- `t` is `s` but for the journal, the working records of the keys, the frames of the journal's channel, the messages and the
counters. -/
def OnlyJournal (s t : State) : Prop :=
  t = { s with keys := { s.keys with stateful := t.keys.stateful, seq := t.keys.seq, ackedSeq := t.keys.ackedSeq, head := t.keys.head,
                                     journal := t.keys.journal, log := t.keys.log },
               twn := { s.twn with journalQueue := t.twn.journalQueue, framesTx := t.twn.framesTx, journal := t.twn.journal },
               host := t.host, glb := { s.glb with counters := t.glb.counters } }

theorem onlyJournal_refl (s : State) : OnlyJournal s s := rfl

theorem onlyJournal_trans {s t u : State} (h : OnlyJournal s t) (g : OnlyJournal t u) : OnlyJournal s u := by
  unfold OnlyJournal at *
  rw [g, h]

section
variable {s t : State} (h : OnlyJournal s t)
include h

theorem OnlyJournal.seats : t.seats = s.seats := by rw [h]
theorem OnlyJournal.writer : t.writer = s.writer := by rw [h]
theorem OnlyJournal.til : t.til = s.til := by rw [h]

end

theorem onlyJournal_foldl {α : Type} (f : State → α → State) (h : ∀ s a, OnlyJournal s (f s a)) (l : List α) (s : State) :
    OnlyJournal s (l.foldl f s) := by
  induction l generalizing s with
  | nil => exact onlyJournal_refl s
  | cons a l ih => exact onlyJournal_trans (h s a) (ih _)

theorem pumpJournal_only (s : State) : OnlyJournal s (pumpJournal s) := by
  unfold pumpJournal
  split
  · exact onlyJournal_refl s
  · exact onlyJournal_trans (onlyJournal_foldl (fun t m => emit (.twinJournal m) t) (fun _ _ => rfl) _ s) rfl

theorem sendJournal_only (m : JournalMessage) (s : State) : OnlyJournal s (sendJournal m s) :=
  onlyJournal_trans (t := { s with twn := _ }) rfl (pumpJournal_only _)

theorem shareRecord_only (h : Nat) (m : JournalMessage) (s : State) : OnlyJournal s (shareRecord h m s) := by
  unfold shareRecord
  split
  · exact onlyJournal_trans (t := { s with keys := _ }) rfl (sendJournal_only _ _)
  · exact onlyJournal_refl s

theorem carryForward_only (n fuel : Nat) (s : State) : OnlyJournal s (carryForward n fuel s) := by
  induction fuel generalizing s with
  | zero => exact onlyJournal_refl s
  | succ fuel ih =>
    unfold carryForward
    split
    · exact onlyJournal_refl s
    · refine onlyJournal_trans (onlyJournal_trans ?_ (shareRecord_only ..)) (ih _)
      rfl

theorem writeShared_only (r : JournalRecord) (m : Nat → JournalMessage) (s : State) : OnlyJournal s (writeShared r m s) := by
  refine onlyJournal_trans (onlyJournal_trans (carryForward_only r.size Config.statefulTotal s) ?_) (shareRecord_only ..)
  rfl

theorem writeRecord_only (r : JournalRecord) (s : State) : OnlyJournal s (writeRecord r s) :=
  onlyJournal_trans (carryForward_only r.size Config.statefulTotal s) rfl

theorem deactivate_only (i : Nat) (s : State) : OnlyJournal s (deactivate i s) := by
  unfold deactivate
  exact onlyJournal_trans (writeRecord_only ..) rfl

theorem makeRoom_only (n fuel : Nat) (s : State) : OnlyJournal s (makeRoom n fuel s) := by
  induction fuel generalizing s with
  | zero => exact onlyJournal_refl s
  | succ fuel ih =>
    unfold makeRoom
    split
    · exact onlyJournal_refl s
    · split
      · exact onlyJournal_refl s
      · exact onlyJournal_trans (deactivate_only ..) (ih _)

/-- Room is made where a key is not active yet. -/
theorem roomMade_only (b : Bool) (n fuel : Nat) (s : State) : OnlyJournal s (if b = true then s else makeRoom n fuel s) := by
  split
  · exact onlyJournal_refl s
  · exact makeRoom_only ..

theorem takeLeaf_only {i leaf : Nat} {r : Option Nat} {s t : State} (h : takeLeaf i s = some (leaf, r, t)) : OnlyJournal s t := by
  unfold takeLeaf at h
  split at h
  · cases h
  · split at h
    · split at h
      · cases h
      · simp only [Option.some.injEq, Prod.mk.injEq] at h
        obtain ⟨-, -, rfl⟩ := h
        rfl
    · split at h
      · simp only [Option.some.injEq, Prod.mk.injEq] at h
        obtain ⟨-, -, rfl⟩ := h
        exact onlyJournal_trans (writeShared_only ..) rfl
      · cases h

/-! ### The pair that a dispatch picks -/

theorem foldl_insertSorted_one {us : List Nat} {c : Nat} {l : List Nat} (hl : l = [] ∨ l = [c]) (h : ∀ u ∈ us, u / 2 = c) :
    (us.foldl (fun l u => insertSorted (u / 2) l) l).length ≤ 1 := by
  induction us generalizing l with
  | nil => rcases hl with rfl | rfl <;> simp
  | cons u us ih =>
    rw [List.forall_mem_cons] at h
    refine ih (Or.inr ?_) h.2
    rcases hl with rfl | rfl <;> simp [insertSorted, h.1]

/-- Where units offer a pair, they lie on two tiles. -/
theorem exists_other_tile {us : List Nat} (c : Nat) (h : 0 < pairsOf us) : ∃ u ∈ us, u / 2 ≠ c := by
  by_contra hall
  push Not at hall
  have hlen := foldl_insertSorted_one (c := c) (Or.inl rfl) hall
  have hnone : pairsOf us = 0 := by
    unfold pairsOf
    dsimp only
    rw [if_pos (by omega)]
  omega

theorem getD_mod_mem {l : List Nat} (n : Nat) (h : l ≠ []) : l.getD (n % l.length) 0 ∈ l := by
  have hlt : n % l.length < l.length := Nat.mod_lt _ (List.length_pos_iff.2 h)
  rw [List.getD_eq_getElem _ _ hlt]
  exact List.getElem_mem hlt

/-- The pair picked is of two units offered, on two tiles. -/
theorem pickPair_spec {us : List Nat} (s : State) (h : 0 < pairsOf us) :
    (pickPair s us).1 ∈ us ∧ (pickPair s us).2 ∈ us ∧ (pickPair s us).1 / 2 ≠ (pickPair s us).2 / 2 := by
  have hne : us ≠ [] := by
    rintro rfl
    obtain ⟨u, hu, -⟩ := exists_other_tile 0 h
    cases hu
  have ha : (pickPair s us).1 ∈ us := getD_mod_mem _ hne
  have hrest : us.filter (fun u => u / 2 != (pickPair s us).1 / 2) ≠ [] := by
    obtain ⟨u, hu, htile⟩ := exists_other_tile ((pickPair s us).1 / 2) h
    exact List.ne_nil_of_mem (List.mem_filter.2 ⟨hu, by simpa using htile⟩)
  have hb : (pickPair s us).2 ∈ us.filter fun u => u / 2 != (pickPair s us).1 / 2 := getD_mod_mem _ hrest
  obtain ⟨hb, htile⟩ := List.mem_filter.1 hb
  exact ⟨ha, hb, fun heq => by simp [heq] at htile⟩

/-- A unit that can serve a seat lies on an active tile of its pool. -/
theorem candidates_spec {s : State} {x : Seat} {u : Nat} (h : u ∈ candidates s x) :
    (tileAt s (u / 2)).pool = poolOf x ∧ (tileAt s (u / 2)).state = .active := by
  have hfree : u ∈ freeUnits s (poolOf x) (runsHalf s x) x.used := by
    unfold candidates at h
    dsimp only at h
    split at h
    · exact List.mem_of_mem_filter h
    · exact h
  obtain ⟨t, -, ht⟩ := List.mem_flatMap.1 hfree
  dsimp only at ht
  split at ht
  · cases ht
  · next hok =>
    simp only [Bool.or_eq_true, bne_iff_ne, ne_eq, not_or, not_not] at hok
    obtain ⟨⟨⟨⟨hstate, hpool⟩, -⟩, -⟩, -⟩ := hok
    have hu : u / 2 = t := by
      split at ht
      · rcases List.mem_append.1 ht with hm | hm
        all_goals
          split at hm
          · cases hm
          · rw [List.mem_singleton] at hm
            omega
      · split at ht
        · rw [List.mem_singleton] at ht
          omega
        · cases ht
    rw [hu]
    exact ⟨hpool, hstate⟩

/-! ### What a dispatch gives before the pair -/

/-- `t` is `s` but for what a dispatch gives a seat before its pair: the tiles and their mask generators stand. -/
def OnlyGrants (s t : State) : Prop :=
  t = { s with seats := t.seats, free := t.free, tkb := t.tkb, stg := t.stg,
               til := { s.til with leased := t.til.leased, served := t.til.served },
               rng := { s.rng with insts := t.rng.insts }, glb := { s.glb with counters := t.glb.counters } }

theorem onlyGrants_trans {s t u : State} (h : OnlyGrants s t) (g : OnlyGrants t u) : OnlyGrants s u := by
  unfold OnlyGrants at *
  rw [g, h]

/-- Grants change neither the units that can serve a seat nor their tiles. -/
theorem candidates_of_grants {s t : State} (x : Seat) (h : OnlyGrants s t) : candidates t x = candidates s x := by
  rw [h]
  rfl

theorem tileAt_of_grants {s t : State} (n : Nat) (h : OnlyGrants s t) : tileAt t n = tileAt s n := by
  rw [h]
  rfl

section
variable (k : Nat) (x : Seat) (s : State)

theorem assignLog_grants : OnlyGrants s (assignLog k x s) := by
  unfold assignLog
  split <;> rfl

theorem assignBank_grants : OnlyGrants s (assignBank k x s) := by
  unfold assignBank emptyBank
  dsimp only
  split
  · rfl
  · split
    · rfl
    · split <;> rfl

theorem assignApproval_grants : OnlyGrants s (assignApproval k x s) := by
  unfold assignApproval
  split
  · split <;> rfl
  · rfl

theorem assignDrbg_grants : OnlyGrants s (assignDrbg k x s) := by
  unfold assignDrbg
  split
  · rfl
  · split <;> rfl

theorem assignLease_grants : OnlyGrants s (assignLease k x s) := rfl

theorem chosen_grants : OnlyGrants s (chosen k x s) := rfl

end

/-! ### What a dispatch leaves alone -/

/-- Neither the writer's queue nor the function served last differs. -/
def SameTurn (s t : State) : Prop := t.writer = s.writer ∧ t.til.served = s.til.served

theorem sameTurn_trans {s t u : State} (h : SameTurn s t) (g : SameTurn t u) : SameTurn s u :=
  ⟨g.1.trans h.1, g.2.trans h.2⟩

section
variable (k : Nat) (x : Seat) (s : State)

theorem assignLog_turn : SameTurn s (assignLog k x s) := by
  unfold assignLog
  split <;> exact ⟨rfl, rfl⟩

theorem assignBank_turn : SameTurn s (assignBank k x s) := by
  unfold assignBank emptyBank
  dsimp only
  split
  · exact ⟨rfl, rfl⟩
  · split
    · exact ⟨rfl, rfl⟩
    · split <;> exact ⟨rfl, rfl⟩

theorem assignApproval_turn : SameTurn s (assignApproval k x s) := by
  unfold assignApproval
  split
  · split <;> exact ⟨rfl, rfl⟩
  · exact ⟨rfl, rfl⟩

theorem assignDrbg_turn : SameTurn s (assignDrbg k x s) := by
  unfold assignDrbg
  split
  · exact ⟨rfl, rfl⟩
  · split <;> exact ⟨rfl, rfl⟩

theorem takeUnit_turn (f : Footprint) (half : Bool) (u : Nat) : SameTurn s (takeUnit f half u s) := ⟨rfl, rfl⟩

theorem countMaskOp_turn (u : Nat) : SameTurn s (countMaskOp u s) := ⟨rfl, rfl⟩

theorem updSeat_turn (f : Seat → Seat) : SameTurn s (updSeat k f s) := ⟨rfl, rfl⟩

theorem journal_turn {t : State} (h : OnlyJournal s t) : SameTurn s t := ⟨h.writer, congrArg Til.served h.til⟩

/-- The pair is taken, and its units are the seat's. -/
theorem assignPair_of_needed (h : needsPair x = true) :
    ∃ f u, assignPair k x s = updSeat k f u ∧ u.seats = s.seats ∧ SameTurn s u
      ∧ ∀ y, (f y).entry = y.entry ∧ (f y).tileA = some (pickPair s (candidates s x)).1
        ∧ (f y).tileB = some (pickPair s (candidates s x)).2 := by
  simp only [assignPair, h, Bool.not_true, Bool.false_eq_true, if_false]
  generalize pickPair s (candidates s x) = p
  obtain ⟨a, b⟩ := p
  refine ⟨_, _, rfl, ?_, ?_, fun y => ⟨rfl, rfl, rfl⟩⟩
  · simp
  · refine sameTurn_trans (sameTurn_trans (sameTurn_trans (sameTurn_trans ?_ (takeUnit_turn ..)) (takeUnit_turn ..))
      (countMaskOp_turn ..)) (countMaskOp_turn ..)
    exact ⟨rfl, rfl⟩

theorem assignPair_of_unneeded (h : needsPair x = false) : assignPair k x s = s := by
  simp [assignPair, h]

theorem assignPair_turn : SameTurn s (assignPair k x s) := by
  cases h : needsPair x with
  | false => rw [assignPair_of_unneeded k x s h]; exact ⟨rfl, rfl⟩
  | true =>
    obtain ⟨f, u, hu, -, hturn, -⟩ := assignPair_of_needed k x s h
    rw [hu]
    exact sameTurn_trans hturn (updSeat_turn ..)

theorem assignLeaf_turn : SameTurn s (assignLeaf k x s) := by
  unfold assignLeaf
  split
  · exact ⟨rfl, rfl⟩
  · dsimp only
    split
    · exact journal_turn _ (roomMade_only ..)
    · next hleaf =>
      have hroom := journal_turn s (onlyJournal_trans (roomMade_only ..) (takeLeaf_only hleaf))
      refine sameTurn_trans (sameTurn_trans hroom ?_) (updSeat_turn ..)
      exact ⟨rfl, rfl⟩

/-- A counter of delays is bumped, or nothing is. -/
theorem bumpIf_turn (b : Bool) (off : Nat) : SameTurn s (if b = true then bump off 1 s else s) := by
  split <;> exact ⟨rfl, rfl⟩

theorem beginRun_turn : SameTurn s (beginRun k x s) := by
  unfold beginRun
  dsimp only
  refine sameTurn_trans ?_ (updSeat_turn ..)
  refine sameTurn_trans ?_ (bumpIf_turn ..)
  refine sameTurn_trans ?_ (bumpIf_turn ..)
  have hleaf : SameTurn s (assignLeaf k x (assignPair k x (assignLease k x (assignDrbg k x
      (assignApproval k x (assignBank k x (assignLog k x s))))))) := by
    refine sameTurn_trans ?_ (assignLeaf_turn ..)
    refine sameTurn_trans ?_ (assignPair_turn ..)
    refine sameTurn_trans ?_ (show SameTurn _ (assignLease k x _) from ⟨rfl, rfl⟩)
    refine sameTurn_trans ?_ (assignDrbg_turn ..)
    refine sameTurn_trans ?_ (assignApproval_turn ..)
    exact sameTurn_trans (assignLog_turn ..) (assignBank_turn ..)
  split
  · exact sameTurn_trans hleaf ⟨rfl, rfl⟩
  · exact hleaf

theorem beginRerun_turn : SameTurn s (beginRerun k x s) := by
  unfold beginRerun
  refine sameTurn_trans ?_ (updSeat_turn ..)
  exact sameTurn_trans (t := assignLease k x s) ⟨rfl, rfl⟩ (assignPair_turn ..)

end

/-! ### What a dispatch leaves in its seat -/

/-- What of seat `k` a function of the seat shows. -/
def seatView {α : Type} (v : Seat → α) (k : Nat) (s : State) : Option α := (s.seats.get? k).map v

theorem seatView_of_seats {α : Type} {s t : State} (v : Seat → α) (k : Nat) (h : t.seats = s.seats) :
    seatView v k t = seatView v k s := by
  simp [seatView, h]

theorem seatView_updSeat {α : Type} {v : Seat → α} {f : Seat → Seat} (j k : Nat) (s : State) (hf : ∀ y, v (f y) = v y) :
    seatView v k (updSeat j f s) = seatView v k s := by
  simp only [seatView, updSeat_seats, Tab.get?_upd]
  split <;> cases s.seats.get? k <;> simp [hf]

theorem seatView_mapRows {α : Type} {v : Seat → α} {f : Nat → Seat → Seat} (k : Nat) (s : State)
    (hf : ∀ j y, v (f j y) = v y) : seatView v k { s with seats := s.seats.mapRows f } = seatView v k s := by
  simp only [seatView, Tab.get?_mapRows]
  cases s.seats.get? k <;> simp [hf]

/-- The entry and the pair of a seat. -/
def pairView (y : Seat) : Entry × Option Nat × Option Nat := (y.entry, y.tileA, y.tileB)

section
variable (k : Nat) (x : Seat) (s : State)

theorem assignLog_view : seatView pairView k (assignLog k x s) = seatView pairView k s := by
  unfold assignLog
  split
  · exact seatView_updSeat _ _ _ fun _ => rfl
  · rfl

theorem assignBank_view : seatView pairView k (assignBank k x s) = seatView pairView k s := by
  have hempty (b : Bool) : seatView pairView k (emptyBank b s) = seatView pairView k s := by
    have hrows : ∀ (j : Nat) (y : Seat), pairView (if y.bank = b then { y with bank := s.stg.active } else y) = pairView y :=
      fun _ _ => by split <;> rfl
    unfold emptyBank
    dsimp only
    split <;> exact seatView_mapRows k s hrows
  unfold assignBank
  split
  · rfl
  · dsimp only
    split
    · rfl
    · exact hempty _

theorem assignApproval_view : seatView pairView k (assignApproval k x s) = seatView pairView k s := by
  unfold assignApproval
  split
  · split
    · exact seatView_updSeat _ _ _ fun _ => rfl
    · rfl
  · rfl

theorem assignDrbg_view : seatView pairView k (assignDrbg k x s) = seatView pairView k s := by
  unfold assignDrbg
  split
  · rfl
  · split
    · exact seatView_updSeat _ _ _ fun _ => rfl
    · exact seatView_updSeat _ _ _ fun _ => rfl

theorem assignLease_view : seatView pairView k (assignLease k x s) = seatView pairView k s :=
  seatView_updSeat _ _ _ fun _ => rfl

theorem assignLeaf_view : seatView pairView k (assignLeaf k x s) = seatView pairView k s := by
  unfold assignLeaf
  split
  · rfl
  · dsimp only
    split
    · exact seatView_of_seats _ k (roomMade_only ..).seats
    · next hleaf =>
      rw [seatView_updSeat]
      · exact seatView_of_seats _ k (onlyJournal_trans (roomMade_only ..) (takeLeaf_only hleaf)).seats
      · exact fun _ => rfl

/-- The pair of a seat: two units of its pool, on two active tiles, where its opcode needs a pair and one is free. -/
def PairOf (s : State) (x : Seat) (p : Option Nat × Option Nat) : Prop :=
  needsPair x = true → 0 < pairsOf (candidates s x) →
    ∃ a b, p = (some a, some b) ∧ a / 2 ≠ b / 2 ∧ (tileAt s (a / 2)).pool = poolOf x ∧ (tileAt s (b / 2)).pool = poolOf x
      ∧ (tileAt s (a / 2)).state = .active ∧ (tileAt s (b / 2)).state = .active

theorem pairOf_of_grants {t : State} {p : Option Nat × Option Nat} (h : OnlyGrants s t) (hp : PairOf t x p) : PairOf s x p := by
  unfold PairOf at *
  simp only [candidates_of_grants x h, tileAt_of_grants _ h] at hp
  exact hp

theorem assignPair_view {e : Entry} (h : (seatView pairView k s).map Prod.fst = some e) :
    ∃ p, seatView pairView k (assignPair k x s) = some (e, p) ∧ PairOf s x p := by
  obtain ⟨q, hq, rfl⟩ := Option.map_eq_some_iff.1 h
  cases hn : needsPair x with
  | false => exact ⟨q.2, by rw [assignPair_of_unneeded k x s hn, hq], fun hn' => by rw [hn] at hn'; cases hn'⟩
  | true =>
    obtain ⟨f, u, hu, hseats, -, hf⟩ := assignPair_of_needed k x s hn
    obtain ⟨y, hy, rfl⟩ := Option.map_eq_some_iff.1 hq
    obtain ⟨hentry, hA, hB⟩ := hf y
    refine ⟨(some (pickPair s (candidates s x)).1, some (pickPair s (candidates s x)).2), ?_, fun _ hpairs => ?_⟩
    · rw [hu, seatView, updSeat_seats, Tab.get?_upd, if_pos rfl, hseats, hy]
      simp only [Option.map_some, pairView, hentry, hA, hB]
    · obtain ⟨ha, hb, hne⟩ := pickPair_spec s hpairs
      exact ⟨_, _, rfl, hne, (candidates_spec ha).1, (candidates_spec hb).1, (candidates_spec ha).2, (candidates_spec hb).2⟩

/-- A seat whose run begins keeps its entry, and has its pair. -/
theorem beginRun_seat {e : Entry} (h : (seatView pairView k s).map Prod.fst = some e) :
    ∃ y, (beginRun k x s).seats.get? k = some y ∧ y.phase = .executing ∧ y.entry = e ∧ PairOf s x (y.tileA, y.tileB) := by
  let u := assignLease k x (assignDrbg k x (assignApproval k x (assignBank k x (assignLog k x s))))
  have hgrants : OnlyGrants s u :=
    onlyGrants_trans (onlyGrants_trans (onlyGrants_trans (onlyGrants_trans (assignLog_grants ..) (assignBank_grants ..))
      (assignApproval_grants ..)) (assignDrbg_grants ..)) (assignLease_grants ..)
  have hview : seatView pairView k u = seatView pairView k s := by
    rw [assignLease_view, assignDrbg_view, assignApproval_view, assignBank_view, assignLog_view]
  obtain ⟨p, hp, hpair⟩ := assignPair_view k x u (hview ▸ h)
  have hbump (b : Bool) (off : Nat) (w : State) : (if b = true then bump off 1 w else w).seats = w.seats := by split <;> rfl
  have hcredit (n : Nat) (w : State) :
      (if keyChange x.entry = true then takeCredit (changeSlot x.entry) n w else w).seats = w.seats := by split <;> rfl
  rw [← assignLeaf_view k x] at hp
  obtain ⟨y, hy, hyp⟩ := Option.map_eq_some_iff.1 hp
  simp only [pairView, Prod.mk.injEq] at hyp
  obtain ⟨hentry, hpyp⟩ := hyp
  unfold beginRun
  dsimp only
  simp only [updSeat_seats, hbump, hcredit, Tab.get?_upd, if_true]
  rw [hy]
  refine ⟨_, rfl, rfl, hentry, pairOf_of_grants x s hgrants ?_⟩
  rw [hpyp]
  exact hpair

/-- The same of a rerun. -/
theorem beginRerun_seat {e : Entry} (h : (seatView pairView k s).map Prod.fst = some e) :
    ∃ y, (beginRerun k x s).seats.get? k = some y ∧ y.phase = .executing ∧ y.entry = e ∧ PairOf s x (y.tileA, y.tileB) := by
  obtain ⟨p, hp, hpair⟩ := assignPair_view k x (assignLease k x s) (assignLease_view k x s ▸ h)
  obtain ⟨y, hy, hyp⟩ := Option.map_eq_some_iff.1 hp
  simp only [pairView, Prod.mk.injEq] at hyp
  obtain ⟨hentry, hpyp⟩ := hyp
  unfold beginRerun
  dsimp only
  rw [updSeat_seats, Tab.get?_upd, if_pos rfl, hy]
  refine ⟨_, rfl, rfl, hentry, pairOf_of_grants x s (assignLease_grants k x s) ?_⟩
  rw [hpyp]
  exact hpair

end

/-! ### DISPATCH -/

/-- A seat served that nothing ends at dispatch begins its run, or its next one. -/
theorem dispatchSeat_runs {s : State} {k : Nat} {x : Seat} (hx : s.seats.get? k = some x) (hs : servedNext s k x = true)
    (hd : dispatchCheck s x = none) :
    dispatchSeat k s = if x.run = 0 then beginRun k x (chosen k x s) else beginRerun k x (chosen k x s) := by
  simp only [dispatchSeat, hx, hs, hd, Bool.not_true, Bool.false_eq_true, if_false]
  rfl

theorem chosen_view (k : Nat) (x : Seat) (s : State) : seatView pairView k (chosen k x s) = seatView pairView k s := by
  have hrows (j : Nat) (y : Seat) : pairView (if (j != k && goesBefore s y x && ready s y) = true
      then { y with passed := y.passed + 1 } else y) = pairView y := by split <;> rfl
  exact (seatView_of_seats (s := passOver k x s) pairView k rfl).trans (seatView_mapRows k s hrows)

/-- A seat is served with a pair free, where its opcode needs one. -/
theorem pairs_of_servedNext {s : State} {k : Nat} {x : Seat} (hs : servedNext s k x = true) (hd : dispatchCheck s x = none)
    (hn : needsPair x = true) : 0 < pairsOf (candidates s x) := by
  have hfree : pairFree s k x = true := by
    have h := (Bool.and_eq_true_iff.1 hs).1
    simp only [servable, hd, Option.isSome_none, Bool.false_or, resourcesFree, Bool.and_eq_true] at h
    exact h.2.1.1
  simp only [pairFree, hn, Bool.not_true, Bool.false_or, decide_eq_true_eq] at hfree
  omega

/-- A dispatch that begins a run: the seat runs with its entry and its pair, its function was served last, and nothing is
written. -/
theorem dispatchSeat_seat {s : State} {k : Nat} {x : Seat} (hx : s.seats.get? k = some x) (hs : servedNext s k x = true)
    (hd : dispatchCheck s x = none) :
    (dispatchSeat k s).writer = s.writer ∧ (dispatchSeat k s).til.served = x.fn
      ∧ ∃ y, (dispatchSeat k s).seats.get? k = some y ∧ y.phase = .executing ∧ y.entry = x.entry
        ∧ PairOf s x (y.tileA, y.tileB) := by
  have hview : (seatView pairView k (chosen k x s)).map Prod.fst = some x.entry := by
    rw [chosen_view, seatView, hx]
    rfl
  rw [dispatchSeat_runs hx hs hd]
  split
  · obtain ⟨hwriter, hserved⟩ := beginRun_turn k x (chosen k x s)
    obtain ⟨y, hy, hphase, hentry, hpair⟩ := beginRun_seat k x (chosen k x s) hview
    exact ⟨hwriter, hserved, y, hy, hphase, hentry, pairOf_of_grants x s (chosen_grants k x s) hpair⟩
  · obtain ⟨hwriter, hserved⟩ := beginRerun_turn k x (chosen k x s)
    obtain ⟨y, hy, hphase, hentry, hpair⟩ := beginRerun_seat k x (chosen k x s) hview
    exact ⟨hwriter, hserved, y, hy, hphase, hentry, pairOf_of_grants x s (chosen_grants k x s) hpair⟩

theorem roomTried_only (st : Status) (x : Seat) (s : State) : OnlyJournal s (roomTried st x s) := by
  unfold roomTried
  split
  · exact onlyJournal_refl s
  · split
    · exact makeRoom_only ..
    · exact onlyJournal_refl s

/-- A dispatch that ends the operation: its item stands last in the writer's queue. -/
theorem dispatchSeat_ends {s : State} {k : Nat} {x : Seat} {st : Status} (hx : s.seats.get? k = some x)
    (hs : servedNext s k x = true) (hd : dispatchCheck s x = some (.status st)) (hdet : x.detached = false) :
    ∃ i, (dispatchSeat k s).writer = s.writer ++ [i] ∧ i.seat = some k ∧ i.out = [] ∧ i.record.status = st
      ∧ i.record.units = 0 ∧ i.record.exec = 0 ∧ i.record.userTag = x.entry.userTag := by
  let u := roomTried st x (chosen k x s)
  let v := countFaultRepeat st (decideBlame x.runs [] u)
  have htiles : OnlyTiles u v := onlyTiles_trans (decideBlame_only ..) (countFaultRepeat_only ..)
  have hroom : OnlyJournal (chosen k x s) u := roomTried_only ..
  have hself : (chosen k x s).seats.get? k = some x := by
    simp [chosen, passOver, Tab.get?_mapRows, hx]
  have hv : v.seats.get? k = some x := by rw [htiles.seats, hroom.seats, hself]
  have heq : dispatchSeat k s = endSeat k st v := by
    simp only [dispatchSeat, hx, hs, hd, Bool.not_true, Bool.false_eq_true, if_false]
    rfl
  obtain ⟨i, hi, hspec⟩ := endSeat_endsWith st hv hdet
  refine ⟨i, ?_, hspec⟩
  rw [heq, hi.writer, (onlyEnds_of_tiles htiles).writer, hroom.writer]
  rfl

theorem markCredit_get? {s : State} {k : Nat} {x : Seat} (h : s.seats.get? k = some x) :
    (markCredit s).seats.get? k = some (recredit (creditMark s) x) := by
  rw [markCredit_eq_recreditAll]
  simp [recreditAll, withSeats, Tab.get?_mapRows, h]

/-- Settles O23: marking credit changes nothing that the dispatcher looks at, and the dispatcher by what it decides. -/
theorem dispatch : Obligations.Dispatch := by
  unfold Obligations.Dispatch
  refine ⟨fun s k x hx hs hd => ?runs, fun s k x st hx hs hd hdet => ?ends⟩
  all_goals
    have hx' := markCredit_get? hx
    have hs' : servedNext (markCredit s) k (recredit (creditMark s) x) = true := by
      rw [markCredit_eq_recreditAll, servedNext_recreditAll, hs]
    have hd' : dispatchCheck (markCredit s) (recredit (creditMark s) x) = dispatchCheck s x := by
      rw [markCredit_eq_recreditAll, dispatchCheck_recreditAll]
    obtain ⟨t, ht, hv⟩ := views_of_run (i := .dispatch k) (f := fun u => markCredit (dispatchSeat k (markCredit u))) (s := s)
      rfl rfl
    have hwriter := views_writer hv
    have hseats := views_seats hv
    have htil := views_til hv
  case runs =>
    obtain ⟨hw, hserved, y, hy, hphase, hentry, hpair⟩ := dispatchSeat_seat hx' hs' (hd'.trans hd)
    refine ⟨t, _, ht, (congrArg (Tab.get? · k) hseats).trans (markCredit_get? hy), hphase, hentry,
      (congrArg Til.served htil).trans hserved, hwriter.trans hw, fun hn => ?_⟩
    obtain ⟨a, b, hab, hspec⟩ := hpair hn (pairs_of_servedNext hs' (hd'.trans hd) hn)
    rw [Prod.mk.injEq] at hab
    exact ⟨a, b, hab.1, hab.2, hspec⟩
  case ends =>
    obtain ⟨i, hi, hspec⟩ := dispatchSeat_ends hx' hs' (hd'.trans hd) hdet
    exact ⟨t, i, ht, hwriter.trans hi, hspec⟩

end Sys2Proof.Machine

/-! PROOF. Tenants: VF resets (R92, R109, R112), quiesce (R113) and mailboxes (R105). -/

namespace Sys2Proof.Machine

open Sys2Proof.Claims

/-! ### What a command leaves, with what it adds to the views -/

/-- A command whose meaning is `run f` answers a state that follows `f s`. -/
theorem follows_of_run {i : Instr} {f : State → State} {s u : State} (h : exec i s = run f s) (hu : f s = u) :
    ∃ t, exec i s = .next t ∧ Follows { u with pending := s.pending, otp := s.otp } t := by
  obtain ⟨t, ht, hf⟩ := run_follows f s
  exact ⟨t, h.trans ht, hu ▸ hf⟩

/-- A command whose effect is `u` but for the views leads to `u`. -/
theorem leadsTo_of_views {i : Instr} {f : State → State} {s u : State} (h : exec i s = run f s) (hu : OnlyViews u (f s))
    (hp : u.pending = s.pending) (ho : u.otp = s.otp) : LeadsTo i s u := by
  obtain ⟨t, ht, hv⟩ := run_leads f s
  refine ⟨t, h.trans ht, ?_⟩
  unfold OnlyViews at *
  rw [hv, hu, ← hp, ← ho]

/-! ### What happens to one seat leaves the others -/

/-- Of seats other than `j`, nothing but an outcome differs; no seat appears. -/
def OthersStay (j : Nat) (s t : State) : Prop :=
  ∀ k, k ≠ j → (t.seats.get? k = none ∧ s.seats.get? k = none)
    ∨ ∃ x o, s.seats.get? k = some x ∧ t.seats.get? k = some { x with outcome := o }

theorem othersStay_of_get? {j : Nat} {s t : State} (h : ∀ k, k ≠ j → t.seats.get? k = s.seats.get? k) : OthersStay j s t := by
  intro k hk
  rw [h k hk]
  cases s.seats.get? k with
  | none => exact Or.inl ⟨rfl, rfl⟩
  | some x => exact Or.inr ⟨x, x.outcome, rfl, rfl⟩

theorem othersStay_refl (j : Nat) (s : State) : OthersStay j s s := othersStay_of_get? fun _ _ => rfl

theorem othersStay_trans {j : Nat} {s t u : State} (h : OthersStay j s t) (g : OthersStay j t u) : OthersStay j s u := by
  intro k hk
  rcases h k hk with ⟨ht, hs⟩ | ⟨x, o, hs, ht⟩
  · rcases g k hk with ⟨hu, -⟩ | ⟨y, o', ht', -⟩
    · exact Or.inl ⟨hu, hs⟩
    · rw [ht] at ht'; cases ht'
  · rcases g k hk with ⟨-, ht'⟩ | ⟨y, o', ht', hu⟩
    · rw [ht] at ht'; cases ht'
    · obtain rfl := Option.some.inj (ht.symm.trans ht')
      exact Or.inr ⟨x, o', hs, hu⟩

theorem othersStay_of_upd {j : Nat} {f : Seat → Seat} {s t : State} (h : t.seats = s.seats.upd j f) : OthersStay j s t :=
  othersStay_of_get? fun k hk => by rw [h, Tab.get?_upd, if_neg (Ne.symm hk)]

theorem endQuiesces_none {k : Nat} {s : State} (h : s.seats.get? k = none) : (endQuiesces s).seats.get? k = none := by
  unfold endQuiesces
  refine List.foldlRecOn (motive := fun t : State => t.seats.get? k = none) _ _ h fun t ht w _ => ?_
  split
  · simp only [endQuiesce, updSeat_seats, Tab.get?_upd, ht]
    split <;> rfl
  · exact ht

theorem releaseSeat_get?_self (j : Nat) (s : State) : (releaseSeat j s).seats.get? j = none := by
  refine endQuiesces_none ?_
  exact (Tab.get?_del ..).trans (if_pos rfl)

theorem releaseSeat_others (j : Nat) (s : State) : OthersStay j s (releaseSeat j s) := by
  intro k hk
  cases h : s.seats.get? k with
  | none =>
    refine Or.inl ⟨endQuiesces_none ?_, rfl⟩
    exact ((Tab.get?_del ..).trans (if_neg (Ne.symm hk))).trans h
  | some x =>
    obtain ⟨o, ho⟩ := releaseSeat_get?_other (Ne.symm hk) h
    exact Or.inr ⟨x, o, rfl, ho⟩

/-! ### A reset's part in one seat (R109) -/

theorem squashSeat_others (j : Nat) (s : State) : OthersStay j s (squashSeat j s) :=
  othersStay_trans (othersStay_of_upd (dropRun_seats j s)) (releaseSeat_others _ _)

theorem squashSeat_ends (j : Nat) (s : State) : OnlyEnds s (squashSeat j s) :=
  onlyEnds_trans (dropRun_ends ..) (releaseSeat_ends ..)

/-- A detached operation whose input cannot come any more leaves no record. -/
theorem operandFails_detached {j : Nat} {x : Seat} {s : State} (hx : s.seats.get? j = some x) (hd : x.detached = true) :
    ∃ u, OnlyEnds s u ∧ u.seats = s.seats ∧ operandFails j s = squashSeat j u := by
  simp only [operandFails, hx]
  split
  · refine ⟨s, onlyEnds_refl s, rfl, ?_⟩
    simp only [endSeat, hx, hd, if_true]
    rfl
  · next i _ =>
    refine ⟨{ s with dig := { s.dig with streams := s.dig.streams.upd i fun t => { t with state := .broken } } }, rfl, rfl, ?_⟩
    simp only [endSeat, hx, hd, if_true]
    rfl

/-- A seat that is detached: it is gone, or marked. -/
theorem detach_spec {j : Nat} {x : Seat} {s : State} (hx : s.seats.get? j = some x) :
    OnlyEnds s (detach j s) ∧ OthersStay j s (detach j s)
      ∧ ((detach j s).seats.get? j = none ∨ (detach j s).seats.get? j = some { x with detached := true }) := by
  have hmark : (updSeat j (fun y => { y with detached := true }) s).seats.get? j = some { x with detached := true } := by
    rw [updSeat_seats, Tab.get?_upd, if_pos rfl, hx]
    rfl
  have hothers : OthersStay j s (updSeat j (fun y => { y with detached := true }) s) := othersStay_of_upd rfl
  simp only [detach, hx]
  split
  · obtain ⟨u, hu, hseats, heq⟩ := operandFails_detached hmark rfl
    rw [heq]
    refine ⟨onlyEnds_trans (onlyEnds_trans (updSeat_ends ..) hu) (squashSeat_ends ..), ?_, Or.inl (releaseSeat_get?_self ..)⟩
    exact othersStay_trans (othersStay_trans hothers (othersStay_of_get? fun k _ => by rw [hseats])) (squashSeat_others _ _)
  · exact ⟨updSeat_ends .., hothers, Or.inr hmark⟩

/-- A seat that a reset leaves: detached, dispatched and not committed. -/
def Outlives (x : Seat) : Prop :=
  x.detached = true ∧ x.phase ≠ .waiting ∧ x.phase ≠ .committed ∧ (x.phase = .granted → x.run ≠ 0)

/-- What a reset does to a seat: others stay, and what is left of it outlives the reset. -/
theorem resetSeat_spec (s : State) (j : Nat) :
    OnlyEnds s (resetSeat s j) ∧ OthersStay j s (resetSeat s j)
      ∧ ∀ y, (resetSeat s j).seats.get? j = some y → Outlives y := by
  have hgone (u : State) (h : u.seats.get? j = none) : ∀ y, u.seats.get? j = some y → Outlives y := fun y hy => by
    rw [h] at hy; cases hy
  have hdetach (x : Seat) (hx : s.seats.get? j = some x) (hlive : Outlives { x with detached := true }) :
      OnlyEnds s (detach j s) ∧ OthersStay j s (detach j s) ∧ ∀ y, (detach j s).seats.get? j = some y → Outlives y := by
    obtain ⟨hends, hothers, hnone | hsome⟩ := detach_spec hx
    · exact ⟨hends, hothers, hgone _ hnone⟩
    · exact ⟨hends, hothers, fun y hy => by rw [hsome] at hy; cases hy; exact hlive⟩
  unfold resetSeat
  split
  · next h => exact ⟨onlyEnds_refl s, othersStay_refl j s, hgone s h⟩
  · next x hx =>
    split
    · exact ⟨squashSeat_ends .., squashSeat_others _ _, hgone _ (releaseSeat_get?_self ..)⟩
    · next hphase =>
      split
      · exact ⟨squashSeat_ends .., squashSeat_others _ _, hgone _ (releaseSeat_get?_self ..)⟩
      · next hrun => exact hdetach x hx ⟨rfl, by simp [hphase], by simp [hphase], fun _ => hrun⟩
    · exact ⟨releaseSeat_ends .., releaseSeat_others _ _, hgone _ (releaseSeat_get?_self ..)⟩
    · next hphase =>
      refine ⟨updSeat_ends .., othersStay_of_upd rfl, fun y hy => ?_⟩
      rw [updSeat_seats, Tab.get?_upd, if_pos rfl, hx] at hy
      cases hy
      exact ⟨rfl, by simp [hphase], by simp [hphase], by simp [hphase]⟩
    · next hphase => exact hdetach x hx ⟨rfl, by simp [hphase], by simp [hphase], by simp [hphase]⟩

/-! ### The drain of a function -/

/-- A seat after those of a list were reset is one of the list, and outlives the reset, or it stands as before. -/
theorem foldl_resetSeat_spec (l : List Nat) (s : State) :
    OnlyEnds s (l.foldl resetSeat s)
      ∧ ∀ k y, (l.foldl resetSeat s).seats.get? k = some y →
        (k ∈ l ∧ Outlives y) ∨ (k ∉ l ∧ ∃ x o, s.seats.get? k = some x ∧ y = { x with outcome := o }) := by
  induction l generalizing s with
  | nil => exact ⟨onlyEnds_refl s, fun k y hy => Or.inr ⟨List.not_mem_nil, y, y.outcome, hy, rfl⟩⟩
  | cons j l ih =>
    obtain ⟨hends, hothers, hself⟩ := resetSeat_spec s j
    obtain ⟨hends', hget⟩ := ih (resetSeat s j)
    refine ⟨onlyEnds_trans hends hends', fun k y hy => ?_⟩
    rcases hget k y hy with ⟨hmem, hlive⟩ | ⟨hmem, x, o, hx, rfl⟩
    · exact Or.inl ⟨List.mem_cons_of_mem _ hmem, hlive⟩
    · by_cases hkj : k = j
      · subst hkj
        exact Or.inl ⟨List.mem_cons_self .., hself x hx⟩
      · rcases hothers k hkj with ⟨hnone, -⟩ | ⟨z, o', hz, hz'⟩
        · rw [hnone] at hx; cases hx
        · obtain rfl := Option.some.inj (hz'.symm.trans hx)
          exact Or.inr ⟨by simp [hkj, hmem], z, o, hz, rfl⟩

theorem mem_of_get? {α : Type} {t : Tab α} {k : Nat} {a : α} (h : t.get? k = some a) : (k, a) ∈ t := by
  induction t with
  | nil => cases h
  | cons r t ih =>
    obtain ⟨i, b⟩ := r
    simp only [Tab.get?] at h
    split at h
    · next hik =>
      obtain rfl := Option.some.inj h
      rw [hik]
      exact List.mem_cons_self ..
    · exact List.mem_cons_of_mem _ (ih h)

/-- The state of a function's rings and of the writer when its operations are about to be drained. -/
def drainQueues (f : Nat) (s : State) : State :=
  { s with ush := { s.ush with rings := s.ush.rings.mapRows fun _ q => if q.owner = f then stopReads q else q },
           writer := s.writer.filter fun i => i.fn != f }

theorem drainFunction_eq (f : Nat) (s : State) :
    drainFunction f s = (Tab.keys (seatsOf s f)).foldl resetSeat (drainQueues f s) := rfl

theorem drainFunction_ends (f : Nat) (s : State) : OnlyEnds (drainQueues f s) (drainFunction f s) :=
  (foldl_resetSeat_spec _ _).1

/-- Every seat of the function that is left outlives the reset. -/
theorem drainFunction_outlives {f k : Nat} {y : Seat} {s : State} (hy : (drainFunction f s).seats.get? k = some y)
    (hfn : y.fn = f) : Outlives y := by
  rcases (foldl_resetSeat_spec _ _).2 k y hy with ⟨-, hlive⟩ | ⟨hmem, x, o, hx, rfl⟩
  · exact hlive
  · refine absurd (List.mem_map.2 ⟨(k, x), List.mem_filter.2 ⟨mem_of_get? hx, ?_⟩, rfl⟩) hmem
    simpa using hfn

/-! ### The start of a reset -/

/-- The row of a reset that operations, or another cause, joined. -/
def joinedRow (cause : Nat) (joined : List Nat) (vanishes : Bool) (r : VfReset) : VfReset :=
  { cause := if cause = 0 then 0 else r.cause, joined := r.joined ++ joined, vanishes := r.vanishes || vanishes }

theorem startReset_joins {f cause : Nat} {r : VfReset} {s : State} (joined : List Nat) (vanishes : Bool)
    (hr : s.ten.resets.get? f = some r) :
    startReset f cause joined vanishes s
      = { s with ten := { s.ten with resets := s.ten.resets.put f (joinedRow cause joined vanishes r) } } := by
  simp only [startReset, hr]
  rfl

/-- The state with the row of a reset that starts. -/
def resetRow (f cause : Nat) (joined : List Nat) (vanishes : Bool) (s : State) : State :=
  { s with ten := { s.ten with resets := s.ten.resets.put f { cause := cause, joined := joined, vanishes := vanishes } } }

theorem startReset_drains {f : Nat} {s : State} (cause : Nat) (joined : List Nat) (vanishes : Bool)
    (hr : s.ten.resets.get? f = none) :
    startReset f cause joined vanishes s
      = event 0x0103 0 f [byte cause] (drainFunction f (resetRow f cause joined vanishes s)) := by
  simp only [startReset, hr]
  rfl

theorem startReset_ends {f : Nat} {s : State} (cause : Nat) (joined : List Nat) (vanishes : Bool)
    (hr : s.ten.resets.get? f = none) :
    OnlyEnds (drainQueues f (resetRow f cause joined vanishes s)) (startReset f cause joined vanishes s) := by
  rw [startReset_drains cause joined vanishes hr]
  exact onlyEnds_trans (drainFunction_ends ..) (onlyEnds_of_tiles (onlyTiles_of_logs (event_logs ..)))

theorem drainQueues_get?_other {f c : Nat} {r : Ring} {s : State} (hr : s.ush.rings.get? c = some r) (hne : r.owner ≠ f) :
    (drainQueues f s).ush.rings.get? c = some r := by
  simp [drainQueues, Tab.get?_mapRows, hr, hne]

/-! ### The end of a reset -/

/-- The state of a completed reset, before the operations that joined it end. -/
def resetDone (f : Nat) (r : VfReset) (s : State) : State :=
  let s := resetRings f s
  let s := { s with ten := { s.ten with mail := s.ten.mail.del f, resets := s.ten.resets.del f } }
  raise (288 + (f - 1) / 16) (if r.cause = 0 && fnExists s f then emit (.frs f) s else s)

theorem completeReset_eq {f : Nat} {r : VfReset} {s : State} (hr : s.ten.resets.get? f = some r) :
    completeReset f s = (r.joined.filter (joinedReset (resetDone f r s) f)).foldl (finishSeat (done [] 0 [])) (resetDone f r s) := by
  simp only [completeReset, hr]
  rfl

theorem resetDone_frame (f : Nat) (r : VfReset) (s : State) :
    (resetDone f r s).seats = s.seats ∧ (resetDone f r s).writer = s.writer ∧ (resetDone f r s).ush = (resetRings f s).ush
      ∧ (resetDone f r s).ten = { s.ten with mail := s.ten.mail.del f, resets := s.ten.resets.del f } := by
  unfold resetDone
  simp only [raise_seats, raise_writer, raise_ush, raise_ten]
  split <;> exact ⟨rfl, rfl, rfl, rfl⟩

theorem resetDone_sends {f : Nat} {r : VfReset} {s : State} (hc : r.cause = 0) (hf : fnExists s f = true) :
    Emit.frs f ∈ (resetDone f r s).host := by
  refine follows_sends (raise_follows ..) ?_
  rw [if_pos (Bool.and_eq_true_iff.2 ⟨by simpa using hc, by exact hf⟩)]
  exact List.mem_append_right _ (List.mem_singleton_self _)

/-- Ending operations touches no more than their seats. -/
theorem foldl_finishSeat_frame (o : Outcome) (l : List Nat) (s : State) :
    ∃ t, l.foldl (finishSeat o) s = { s with seats := t } := by
  induction l generalizing s with
  | nil => exact ⟨s.seats, rfl⟩
  | cons j l ih =>
    obtain ⟨t, ht⟩ := ih (finishSeat o s j)
    exact ⟨t, ht⟩

theorem foldl_finishSeat_get? {k : Nat} {x : Seat} {s : State} (o : Outcome) (l : List Nat) (hx : s.seats.get? k = some x) :
    (l.foldl (finishSeat o) s).seats.get? k = some (if k ∈ l then { x with outcome := some o } else x) := by
  induction l generalizing s x with
  | nil => simpa using hx
  | cons j l ih =>
    have hstep : (finishSeat o s j).seats.get? k = some (if j = k then { x with outcome := some o } else x) := by
      rw [finishSeat, updSeat_seats, Tab.get?_upd, hx]
      split <;> rfl
    rw [List.foldl_cons, ih hstep]
    by_cases hjk : j = k
    · by_cases hmem : k ∈ l <;> simp [hjk, hmem]
    · simp [hjk, Ne.symm hjk]

/-! ### The obligation on resets -/

theorem finishSeat_eq {k : Nat} {x : Seat} {s : State} (o : Outcome) (hx : s.seats.get? k = some x) :
    finishSeat o s k = setSeat k { x with outcome := some o } s := updSeat_eq_setSeat _ hx

section
variable {s : State} {k : Nat} {x : Seat} (hx : s.seats.get? k = some x) (hc : computing x 0x012 = true)
include hx hc

theorem opReset_refuses (h : x.entry.argN 0 2 = 0 ∨ fnExists s (x.entry.argN 0 2) = false) :
    opReset k s = setSeat k { x with outcome := some (ended .invalidInput 0) } s := by
  have hbad : (strayHandle x || decide (x.entry.argN 0 2 = 0) || !fnExists s (x.entry.argN 0 2)) = true := by
    rcases h with h | h <;> simp [h]
  simp only [opReset, hx, hc, Bool.not_true, Bool.false_eq_true, if_false, hbad, if_true, finishSeat_eq _ hx]

theorem opReset_starts (hstray : strayHandle x = false) (h0 : x.entry.argN 0 2 ≠ 0) (hf : fnExists s (x.entry.argN 0 2) = true)
    (hjoin : (s.ten.resets.any fun q => q.2.joined.contains k) = false) :
    opReset k s = startReset (x.entry.argN 0 2) 1 [k] false s := by
  have hgood : (strayHandle x || decide (x.entry.argN 0 2 = 0) || !fnExists s (x.entry.argN 0 2)) = false := by
    simp [hstray, h0, hf]
  simp only [opReset, hx, hc, Bool.not_true, Bool.false_eq_true, if_false, hgood, hjoin]

end

/-- An operation that joined the reset still runs when the reset is complete. -/
theorem joinedReset_resetDone {f k : Nat} {r : VfReset} {s : State} {x : Seat} (hx : s.seats.get? k = some x)
    (hc : computing x 0x012 = true) (hf : x.entry.argN 0 2 = f) : joinedReset (resetDone f r s) f k = true := by
  simp [joinedReset, (resetDone_frame f r s).1, hx, hc, hf]

/-- Settles O27: `startReset` from OP_VF_RESET and FLR, and `completeReset`. -/
theorem vfResets : Obligations.VfResets := by
  unfold Obligations.VfResets
  refine ⟨fun s k x hx hc hstray => ⟨fun hbad => ?refused, fun h0 hf r hr hjoin => ?joins, fun h0 hf hr hjoin => ?starts⟩,
    fun s f h0 hf hr => ?flr, fun s f r hr => ?complete⟩
  case refused => exact leadsTo_of_run (f := opReset k) rfl (opReset_refuses hx hc hbad) rfl rfl
  case joins =>
    refine leadsTo_of_run (f := opReset k) rfl ?_ rfl rfl
    rw [opReset_starts hx hc hstray h0 hf hjoin, startReset_joins _ _ hr]
    simp [joinedRow]
  case starts =>
    obtain ⟨t, ht, hv⟩ := views_of_run (i := .opVfReset k) (f := opReset k) rfl (opReset_starts hx hc hstray h0 hf hjoin)
    have hten := congrArg Ten.resets (views_ten hv)
    refine ⟨t, ht, ?_⟩
    rw [hten]
    refine (congrArg (Tab.get? · _) (startReset_ends 1 [k] false hr).resets).trans ?_
    exact Tab.get?_put_same ..
  case flr =>
    have hu : (if f != 0 && fnExists s f then startReset f 0 [] false s else s) = startReset f 0 [] false s :=
      if_pos (by simp [h0, hf])
    obtain ⟨t, ht, hv⟩ := views_of_run (i := .vfFlr f)
      (f := fun s => if f != 0 && fnExists s f then startReset f 0 [] false s else s) rfl hu
    have hends := startReset_ends 0 [] false hr
    have hten := congrArg Ten.resets (views_ten hv)
    have hwriter := views_writer hv
    have hbox := congrArg Box.counters (views_box hv)
    have hseats := views_seats hv
    have hush := views_ush hv
    refine ⟨t, ht, ?_, hwriter.trans hends.writer, hbox.trans (congrArg Box.counters hends.box), fun k x hk hfn => ?_,
      fun c q hq hne => ?_⟩
    · rw [hten]
      exact (congrArg (Tab.get? · f) hends.resets).trans (Tab.get?_put_same ..)
    · rw [hseats] at hk
      simp only [startReset_drains 0 [] false hr, event_seats] at hk
      exact drainFunction_outlives hk hfn
    · rw [hush]
      exact (congrArg (fun u => u.rings.get? c) hends.ush).trans (drainQueues_get?_other (s := resetRow f 0 [] false s) hq hne)
  case complete =>
    obtain ⟨t, ht, hv⟩ := follows_of_run (i := .vfResetComplete f) (f := completeReset f) rfl (completeReset_eq hr)
    obtain ⟨seats, hseats⟩ := foldl_finishSeat_frame (done [] 0 []) (r.joined.filter (joinedReset (resetDone f r s) f))
      (resetDone f r s)
    obtain ⟨hsame, hwriter, hush, hten⟩ := resetDone_frame f r s
    have hget (k : Nat) (x : Seat) (hx : s.seats.get? k = some x) := foldl_finishSeat_get? (done [] 0 [])
      (r.joined.filter (joinedReset (resetDone f r s) f)) (s := resetDone f r s) (by rw [hsame]; exact hx)
    have htseats := views_seats hv.only
    have htwriter := views_writer hv.only
    have htush := views_ush hv.only
    have htten := views_ten hv.only
    have hhost := fun e he => follows_sends (e := e) hv he
    rw [hseats] at htwriter htush htten hhost
    have htush := htush.trans hush
    have htten := htten.trans hten
    refine ⟨t, ht, ?_, ?_, ?_, htwriter.trans hwriter, fun c q hq => ⟨fun hne => ?_, fun heq => ?_⟩, fun k x hk hx hc hf => ?_,
      fun hc hf => hhost _ (resetDone_sends hc hf)⟩
    · rw [htten]
      exact (Tab.get?_del ..).trans (if_pos rfl)
    · rw [htten]
      exact (Tab.get?_del ..).trans (if_pos rfl)
    · rw [halted, htush]
      exact resetRings_halted f s
    · rw [htush, resetRings_get? f hq, if_neg hne]
    · rw [htush, resetRings_get? f hq, if_pos heq]
      exact ⟨resetRing q, rfl, rfl, rfl, rfl, rfl, rfl, rfl, rfl⟩
    · have hmem : k ∈ r.joined.filter (joinedReset (resetDone f r s) f) :=
        List.mem_filter.2 ⟨hk, joinedReset_resetDone hx hc hf⟩
      refine ⟨{ x with outcome := some (done [] 0 []) }, ?_, rfl⟩
      rw [htseats]
      exact (hget k x hx).trans (by rw [if_pos hmem])

end Sys2Proof.Machine

/-! PROOF. Quiesce (R113) and the mailboxes (R105). -/

namespace Sys2Proof.Machine

open Sys2Proof.Claims

/-! ### OP_VF_QUIESCE -/

/-- The end of a wait gives its seat the outcome, and the other waits stay. -/
theorem endQuiesce_eq {k : Nat} {x : Seat} {s : State} (st : Status) (hx : s.seats.get? k = some x) :
    endQuiesce st k s = setSeat k { x with outcome := some (ended st 0) }
      { s with ten := { s.ten with quiesceWaits := others k s } } :=
  updSeat_eq_setSeat (s := { s with ten := { s.ten with quiesceWaits := others k s } }) _ hx

/-- The state of a VF that is asked to quiesce, the seat waiting. -/
def quiescingState (k f : Nat) (s : State) : State :=
  { s with ten := { s.ten with quiescing := insertSorted f s.ten.quiescing, quiesceWaits := others k s ++ [(k, f)] } }

theorem others_quiescingState (k f : Nat) (s : State) : others k (quiescingState k f s) = others k s := by
  simp [others, quiescingState, List.filter_append, List.filter_filter]

section
variable {s : State} {k : Nat} {x : Seat} (hx : s.seats.get? k = some x) (hc : computing x 0x014 = true)
  (hstray : strayHandle x = false) (h0 : 1 ≤ x.entry.argN 0 2) (hmax : x.entry.argN 0 2 ≤ 4096)
include hx hc hstray h0 hmax

theorem opQuiesce_releases (hrel : x.entry.argBit 2 0 = true) :
    opQuiesce k s = setSeat k { x with outcome := some (done [] 0 [.unquiesce (x.entry.argN 0 2)]) } s := by
  have hgood : (strayHandle x || decide (x.entry.argN 0 2 = 0) || decide (Config.vfTotal < x.entry.argN 0 2)) = false := by
    simp [hstray, Config.vfTotal, Nat.not_lt.2 hmax, Nat.one_le_iff_ne_zero.1 h0]
  simp only [opQuiesce, hx, hc, hgood, hrel, Bool.not_true, Bool.false_eq_true, if_false, if_true, finishSeat_eq _ hx]

theorem opQuiesce_asks (hrel : x.entry.argBit 2 0 = false) :
    opQuiesce k s = (if !fnExists s (x.entry.argN 0 2) || quiet s (x.entry.argN 0 2)
      then endQuiesce .ok k (quiescingState k (x.entry.argN 0 2) s) else quiescingState k (x.entry.argN 0 2) s) := by
  have hgood : (strayHandle x || decide (x.entry.argN 0 2 = 0) || decide (Config.vfTotal < x.entry.argN 0 2)) = false := by
    simp [hstray, Config.vfTotal, Nat.not_lt.2 hmax, Nat.one_le_iff_ne_zero.1 h0]
  simp only [opQuiesce, hx, hc, hgood, hrel, Bool.not_true, Bool.false_eq_true, if_false]
  rfl

end

/-- The last wait ends as the seat that the VF waited for is released. -/
theorem releaseSeat_endsWait {s : State} {k f j : Nat} {x : Seat} (hw : s.ten.quiesceWaits = [(k, f)])
    (hx : s.seats.get? k = some x) (hj : j ≠ k) (hq : quiet { s with seats := s.seats.del j } f = true) :
    ∃ z, (releaseSeat j s).seats.get? k = some z ∧ z.outcome = some (done [] 0 []) ∧ (releaseSeat j s).ten.quiesceWaits = [] := by
  have hwaits : ((s.ten.quiesceWaits.filter fun w => w.1 != j) : List (Nat × Nat)) = [(k, f)] := by
    simp [hw, Ne.symm hj]
  have hget : (s.seats.del j).get? k = some x := by rw [Tab.get?_del, if_neg hj, hx]
  have hq' : ∀ u : State, u.seats = s.seats.del j → u.dig = s.dig → quiet u f = true := by
    intro u hu hdig
    rw [← hq]
    unfold quiet seatsOf streamsReferenced
    rw [hu, hdig]
  simp only [releaseSeat, endQuiesces, hwaits, List.foldl_cons, List.foldl_nil]
  rw [if_pos (by exact hq' _ rfl rfl)]
  refine ⟨{ x with outcome := some (done [] 0 []) }, ?_, rfl, ?_⟩
  · rw [endQuiesce, updSeat_seats, Tab.get?_upd, if_pos rfl]
    exact congrArg _ hget
  · simp [endQuiesce]

/-! ### The mailboxes -/

/-- `s` with the mailbox of function `f` as given. -/
def setMail (f : Nat) (m : Mailbox) (s : State) : State := { s with ten := { s.ten with mail := s.ten.mail.put f m } }

theorem updMail_eq_setMail (f : Nat) (g : Mailbox → Mailbox) (s : State) : updMail f g s = setMail f (g (mailOf s f)) s := rfl

theorem mailOf_setMail (f : Nat) (m : Mailbox) (s : State) : mailOf (setMail f m s) f = m := Tab.getD_put_same ..

theorem setMail_setMail (f : Nat) (m n : Mailbox) (s : State) : setMail f n (setMail f m s) = setMail f n s := by
  simp [setMail, Tab.put_put]

theorem vfWrite_takes {f : Nat} {s : State} (g : State → State) (h0 : f ≠ 0) (hf : fnExists s f = true) : vfWrite f g s = g s :=
  if_pos (by simp [h0, hf])

theorem mailOut_views (f v : Nat) (s : State) :
    OnlyViews (setMail f { mailOf s f with outLen := mailLen v, busy := (mailOf s f).busy || bit v 16 } s) (mailOut f v s) := by
  simp only [mailOut, updMail_eq_setMail, mailOf_setMail, setMail_setMail]
  split
  · next h =>
    obtain ⟨hsend, hbusy⟩ := Bool.and_eq_true_iff.1 h
    rw [hsend, Bool.or_true]
    exact signal_views ..
  · next h =>
    have hsame : ((mailOf s f).busy || bit v 16) = (mailOf s f).busy := by
      cases hb : (mailOf s f).busy <;> simp_all
    rw [hsame]
    rfl

section
variable {s : State} {v : Nat} (h0 : mailFn s ≠ 0) (hf : fnExists s (mailFn s) = true) (hsend : bit v 16 = true)
include h0 hf hsend

theorem mailTx_delivers (hfull : (mailOf s (mailFn s)).full = false) :
    mailTx v s = signal (mailFn s) 1 (setMail (mailFn s)
      { mailOf s (mailFn s) with txLen := mailLen v, full := true, inLen := mailLen v } s) := by
  simp only [mailTx, vfWrite_takes _ h0 hf, updMail_eq_setMail, mailOf_setMail, setMail_setMail, hsend, hfull, Bool.not_false,
    Bool.and_self, if_true]

theorem mailTx_keeps (hfull : (mailOf s (mailFn s)).full = true) :
    mailTx v s = setMail (mailFn s) { mailOf s (mailFn s) with txLen := mailLen v } s := by
  simp only [mailTx, vfWrite_takes _ h0 hf, updMail_eq_setMail, mailOf_setMail, hsend, hfull, Bool.not_true, Bool.and_false,
    Bool.false_eq_true, if_false]

end

/-! ### The obligation -/

/-- Settles O29: `opQuiesce` by its cases, the release of the last seat, and each mailbox register. -/
theorem quiesceAndMailboxes : Obligations.QuiesceAndMailboxes := by
  unfold Obligations.QuiesceAndMailboxes
  refine ⟨fun s k x hx hc hstray h0 hmax => ⟨fun hrel => ?released, fun hrel hquiet => ?quiet, fun hrel hf hquiet => ?waits,
    fun hwait => ?timeout, fun hnone => ?noWait⟩, fun s k f j x y hw hx hy hj hq => ?lastSeat,
    fun s f h0 hf => ⟨fun v => ?out, ?inAck, fun htakes hsel => ⟨?rxAck, fun v hsend hfull => ?txFree,
      fun v hsend hfull => ?txFull⟩⟩⟩
  case released =>
    exact leadsTo_of_run (f := opQuiesce k) rfl (opQuiesce_releases hx hc hstray h0 hmax hrel) rfl rfl
  case quiet =>
    have hguard : (!fnExists s (x.entry.argN 0 2) || quiet s (x.entry.argN 0 2)) = true := by
      rcases hquiet with h | h <;> simp [h]
    refine leadsTo_of_run (f := opQuiesce k) rfl ?_ rfl rfl
    rw [opQuiesce_asks hx hc hstray h0 hmax hrel, if_pos hguard, endQuiesce_eq (s := quiescingState k _ s) .ok hx,
      others_quiescingState]
    rfl
  case waits =>
    refine leadsTo_of_run (f := opQuiesce k) rfl ?_ rfl rfl
    rw [opQuiesce_asks hx hc hstray h0 hmax hrel, if_neg (by simp [hf, hquiet])]
    rfl
  case timeout =>
    refine leadsTo_of_run (f := quiesceExpires k) rfl ?_ rfl rfl
    simp only [quiesceExpires, hwait]
    exact endQuiesce_eq _ hx
  case noWait =>
    refine leadsTo_of_run (f := quiesceExpires k) rfl ?_ rfl rfl
    simp only [quiesceExpires, hnone]
  case lastSeat => exact releaseSeat_endsWait hw hx hj hq
  case out =>
    refine leadsTo_of_views (f := vfWrite f (mailOut f v.toNat)) rfl ?_ rfl rfl
    rw [vfWrite_takes _ h0 hf]
    exact mailOut_views ..
  case inAck =>
    refine leadsTo_of_run (f := vfWrite f (mailInAck f)) rfl ?_ rfl rfl
    exact vfWrite_takes _ h0 hf
  all_goals subst hsel
  case rxAck =>
    refine leadsTo_of_run (f := pfWrite 0x1017F0 mailRxAck) rfl ?_ rfl rfl
    rw [pfWrite_of_takes htakes]
    exact vfWrite_takes (f := mailFn s) _ h0 hf
  case txFree =>
    have hu := (pfWrite_of_takes (off := 0x101FF0) htakes).trans (mailTx_delivers h0 hf (v := v.toNat) hsend hfull)
    obtain ⟨t, ht, hv⟩ := views_of_run (i := .vfcPfMbxTxSend v) (f := pfWrite 0x101FF0 (mailTx v.toNat)) rfl hu
    refine ⟨t, ht, ?_⟩
    have hten := views_ten hv
    rw [mailOf, hten]
    simp only [signal_ten]
    exact mailOf_setMail ..
  case txFull =>
    refine leadsTo_of_run (f := pfWrite 0x101FF0 (mailTx v.toNat)) rfl ?_ rfl rfl
    rw [pfWrite_of_takes htakes]
    exact mailTx_keeps h0 hf hsend hfull

end Sys2Proof.Machine

/-! PROOF. The bus: VF Enable, bus mastering, vectors, errors of the link, and PTM (chapter 02). -/

namespace Sys2Proof.Machine

open Sys2Proof.Claims

/-! ### Configuration requests, and the parts of a state behind the views -/

theorem configReach_of_answered {f : State → State} {s : State} (h : s.pcie.cfgRetry = false) : configReach f s = f s := by
  simp [configReach, h]

section
variable {u t : State} (h : OnlyViews u t)
include h

theorem views_pcie : t.pcie = { u.pcie with msixPending := t.pcie.msixPending } := congrArg State.pcie h
theorem views_glb : t.glb = { u.glb with trouble := t.glb.trouble, evtPend := t.glb.evtPend } := congrArg State.glb h

theorem views_canMaster (f : Nat) : canMaster t f = canMaster u f := by
  unfold canMaster
  rw [views_pcie h]

end

/-! ### What a command leaves where its effect records events -/

/-- `t` is `s` but for the recorder, the counters and the views. -/
def OnlyNotes (s t : State) : Prop :=
  t = { s with evr := t.evr, host := t.host, pcie := { s.pcie with msixPending := t.pcie.msixPending },
               glb := { s.glb with trouble := t.glb.trouble, evtPend := t.glb.evtPend, counters := t.glb.counters },
               smb := { s.smb with alerts := t.smb.alerts } }

theorem onlyNotes_refl (s : State) : OnlyNotes s s := rfl

theorem onlyNotes_trans {s t u : State} (h : OnlyNotes s t) (g : OnlyNotes t u) : OnlyNotes s u := by
  unfold OnlyNotes at *
  rw [g, h]

theorem onlyNotes_of_logs {s t : State} (h : OnlyLogs s t) : OnlyNotes s t := by
  unfold OnlyNotes
  rw [h]

theorem onlyNotes_of_views {s t : State} (h : OnlyViews s t) : OnlyNotes s t := by
  unfold OnlyNotes
  rw [h]

section
variable {s t : State} (h : OnlyNotes s t)
include h

theorem OnlyNotes.pending : t.pending = s.pending := by rw [h]
theorem OnlyNotes.otp : t.otp = s.otp := by rw [h]
theorem OnlyNotes.now : t.now = s.now := by rw [h]
theorem OnlyNotes.free : t.free = s.free := by rw [h]
theorem OnlyNotes.ush : t.ush = s.ush := by rw [h]
theorem OnlyNotes.seats : t.seats = s.seats := by rw [h]
theorem OnlyNotes.writer : t.writer = s.writer := by rw [h]
theorem OnlyNotes.ten : t.ten = s.ten := by rw [h]
theorem OnlyNotes.box : t.box = s.box := by rw [h]
theorem OnlyNotes.keys : t.keys = s.keys := by rw [h]
theorem OnlyNotes.dig : t.dig = s.dig := by rw [h]
theorem OnlyNotes.rng : t.rng = s.rng := by rw [h]
theorem OnlyNotes.til : t.til = s.til := by rw [h]
theorem OnlyNotes.scr : t.scr = s.scr := by rw [h]
theorem OnlyNotes.stg : t.stg = s.stg := by rw [h]
theorem OnlyNotes.twn : t.twn = s.twn := by rw [h]
theorem OnlyNotes.tkb : t.tkb = s.tkb := by rw [h]
theorem OnlyNotes.tmp : t.tmp = s.tmp := by rw [h]
theorem OnlyNotes.lcs : t.lcs = s.lcs := by rw [h]
theorem OnlyNotes.pwr : t.pwr = s.pwr := by rw [h]
theorem OnlyNotes.pcie : t.pcie = { s.pcie with msixPending := t.pcie.msixPending } := congrArg State.pcie h
theorem OnlyNotes.glb : t.glb = { s.glb with trouble := t.glb.trouble, evtPend := t.glb.evtPend, counters := t.glb.counters } :=
  congrArg State.glb h
theorem OnlyNotes.smb : t.smb = { s.smb with alerts := t.smb.alerts } := congrArg State.smb h

end

/-- A command whose effect is `u` but for the notes answers a state that is `u` but for the notes. -/
theorem notes_of_run {i : Instr} {f : State → State} {s u v : State} (h : exec i s = run f s) (hu : f s = v) (hn : OnlyNotes u v)
    (hp : u.pending = s.pending) (ho : u.otp = s.otp) : ∃ t, exec i s = .next t ∧ OnlyNotes u t := by
  obtain ⟨t, ht, hv⟩ := views_of_run h hu
  refine ⟨t, ht, onlyNotes_trans ?_ (onlyNotes_of_views hv)⟩
  unfold OnlyNotes at *
  rw [hn, ← hp, ← ho]

/-! ### The trouble bits of live causes (R494, R497) -/

/-- What follows a command has the trouble bits of the causes that its effect leaves. -/
theorem settle_causes (b s : State) :
    Follows { s with glb := { s.glb with trouble := s.glb.trouble ||| BitVec.ofNat 32 (liveCauses s) } } (settle b s) := by
  unfold settle
  dsimp only
  refine follows_trans ?_ (settleSmb_follows _ _)
  refine follows_trans ?_ (foldl_follows _ (fun t i => settleVf_follows b (i + 1) t) _ _)
  iterate 12 refine follows_trans ?_ (raiseIf_follows _ _ _)
  exact follows_refl _

/-- Such a command's state follows its effect `v`, and has the trouble bits of the causes that are live there. -/
theorem causes_of_run {i : Instr} {f : State → State} {s u v : State} (h : exec i s = run f s) (hu : f s = v) (hn : OnlyNotes u v)
    (hp : u.pending = s.pending) (ho : u.otp = s.otp) : ∃ t, exec i s = .next t ∧ OnlyNotes u t ∧ Follows v t
      ∧ ∀ b < 32, bit (liveCauses v) b = true → t.glb.trouble.getLsbD b = true := by
  obtain ⟨t, ht, hf⟩ := follows_of_run h hu
  have hsame : ({ v with pending := s.pending, otp := s.otp } : State) = v := by rw [← hp, ← ho, ← hn.pending, ← hn.otp]
  rw [hsame] at hf
  refine ⟨t, ht, onlyNotes_trans hn (onlyNotes_of_views hf.only), hf, fun b hb hc => ?_⟩
  have he : t = { settle s v with pending := s.pending, otp := s.otp } := by
    have := ht.symm.trans h
    simpa [run, hu] using this
  rw [he]
  refine (settle_causes s v).trouble b ?_
  simp only [BitVec.getLsbD_or, BitVec.getLsbD_ofNat, hb, decide_true, Bool.true_and]
  rw [show (liveCauses v).testBit b = true from hc, Bool.or_true]

theorem bnat_le_one (b : Bool) : bnat b ≤ 1 := by cases b <;> decide

/-- Loss of PTM is a live cause of bit 9. -/
theorem liveCauses_ptm {s : State} (h : s.pcie.ptmLost = true) : bit (liveCauses s) 9 = true := by
  unfold liveCauses
  rw [h]
  generalize (s.pcie.vfEnable && !s.pcie.ari) = a
  have h1 := bnat_le_one a
  have h2 := bnat_le_one s.tmp.curtainDown
  have h3 := bnat_le_one s.tmp.hold
  have h4 := bnat_le_one (twinAbsentLive s)
  simp only [bit, fld, Nat.testBit_eq_decide_div_mod_eq, decide_eq_true_eq, bnat, if_true] at *
  omega

/-! ### VF Enable -/

theorem mem_setMember {b : Bool} {f : Nat} {l : List Nat} : (setMember b f l).contains f = b := by
  cases b <;> simp [setMember, mem_insertSorted]

theorem newFunctions_new (n : Nat) (s : State) {f : Nat} (h1 : 1 ≤ f) (hn : f ≤ n) :
    f ∉ (newFunctions n s).pcie.bme ∧ ∀ v < 256, 256 * f + v ∉ (newFunctions n s).pcie.unmasked := by
  refine ⟨by simp [newFunctions, h1, hn], fun v hv => ?_⟩
  have hdiv : (256 * f + v) / 256 = f := by omega
  simp [newFunctions, hdiv, h1, hn]

/-! ### Messages that waited -/

theorem foldl_emit_views {α : Type} (g : State → α → Emit) (l : List α) (s : State) :
    OnlyViews s (l.foldl (fun t a => emit (g t a) t) s) := by
  induction l generalizing s with
  | nil => exact onlyViews_refl s
  | cons a l ih => exact onlyViews_trans (t := emit (g s a) s) rfl (ih _)

theorem sendPending_views (f : Nat) (s : State) : OnlyViews s (sendPending f s) := by
  unfold sendPending
  split
  · exact onlyViews_trans (foldl_emit_views (fun t v => msixMessage t f (v % 256)) _ s) rfl
  · exact onlyViews_refl s

/-- The bus mastering of a function that exists is what was written for it. -/
theorem canMaster_writeBusMaster {f : Nat} {s : State} (bme : Bool) (hf : fnExists s f = true) :
    canMaster (writeBusMaster f bme true s) f = bme := by
  simp only [writeBusMaster, hf, Bool.not_true, Bool.false_eq_true, if_false]
  rw [views_canMaster (sendPending_views f _)]
  show ((setMember bme f s.pcie.bme).contains f && !(setMember false f s.pcie.d3).contains f) = bme
  rw [mem_setMember, mem_setMember, Bool.not_false, Bool.and_true]

theorem mem_logAer (f : Nat) (a : Aer) (s : State) : a ∈ (logAer f a s).pcie.aer.getD f [] := by
  simp only [logAer, Tab.getD_put_same]
  split
  · next h => exact List.contains_iff_mem.1 h
  · simp

/-! ### The obligation -/

/-- Settles O30: each register and message by the branch that its state takes. -/
theorem busAndLink : Obligations.BusAndLink := by
  unfold Obligations.BusAndLink
  refine ⟨fun s n hcfg hoff => ⟨?noAri, ?ari⟩, fun s hcfg => ⟨fun f hf => ⟨?bme, ?noBme, fun v hv => ?unmask, fun r => ?poisoned⟩,
    ?ecrc, fun hptm => ⟨?dialog, fun hdialog hlost time => ⟨fun hrun => ?first, fun hrun => ?second⟩⟩, fun hlost => ?loss⟩⟩
  case noAri =>
    let u : State := { s with pcie := { s.pcie with vfEnable := true, numVfs := n, ari := false } }
    have hu : configReach (writeVfEnable true n false) s = trouble 3 (event 0x0E01 1 0 [] u) := by
      simp only [configReach_of_answered hcfg, writeVfEnable, hoff, Bool.not_true, Bool.not_false, Bool.false_eq_true, if_false,
        if_true, u]
    obtain ⟨t, ht, hn, hf, -⟩ := causes_of_run (i := .vfEnable true n false) (f := configReach (writeVfEnable true n false)) rfl hu
      (onlyNotes_of_logs (onlyLogs_trans (event_logs ..) (trouble_logs ..))) rfl rfl
    refine ⟨t, ht, (congrArg Pcie.vfs hn.pcie :), congrArg Pcie.vfEnable hn.pcie, hf.trouble 3 ?_⟩
    simp [trouble]
  case ari =>
    have hu : configReach (writeVfEnable true n true) s
        = (let u := newFunctions (min n (vfOffer s)) { s with pcie := { s.pcie with vfEnable := true, numVfs := n, ari := true } }
           { u with pcie := { u.pcie with vfs := min n (vfOffer s) } }) := by
      simp only [configReach_of_answered hcfg, writeVfEnable, hoff, Bool.not_true, Bool.false_eq_true, if_false]
      rfl
    obtain ⟨t, ht, hv⟩ := views_of_run (i := .vfEnable true n true) (f := configReach (writeVfEnable true n true)) rfl hu
    have hpcie := views_pcie hv
    refine ⟨t, ht, congrArg Pcie.vfs hpcie, congrArg Pcie.vfEnable hpcie, congrArg Pcie.numVfs hpcie, fun f h1 hn => ?_⟩
    obtain ⟨hbme, hmask⟩ := newFunctions_new (min n (vfOffer s))
      { s with pcie := { s.pcie with vfEnable := true, numVfs := n, ari := true } } h1 hn
    refine ⟨?_, fun v hv' => (congrArg Pcie.unmasked hpcie : t.pcie.unmasked = _) ▸ hmask v hv'⟩
    rw [views_canMaster hv]
    exact Bool.and_eq_false_imp.2 fun h => absurd (List.contains_iff_mem.1 h) hbme
  case bme =>
    obtain ⟨t, ht, hv⟩ := views_of_run (i := .busMasterEnable f true true) (f := configReach (writeBusMaster f true true)) rfl
      (configReach_of_answered hcfg)
    exact ⟨t, ht, (views_canMaster hv f).trans (canMaster_writeBusMaster true hf)⟩
  case noBme =>
    obtain ⟨t, ht, hv⟩ := views_of_run (i := .busMasterEnable f false true) (f := configReach (writeBusMaster f false true)) rfl
      (configReach_of_answered hcfg)
    exact ⟨t, ht, (views_canMaster hv f).trans (canMaster_writeBusMaster false hf)⟩
  case unmask =>
    have hu : unmask f v s = sendPending f { s with pcie := { s.pcie with unmasked := insertSorted (256 * f + v) s.pcie.unmasked } } :=
      if_pos (by simp [hf, hv])
    obtain ⟨t, ht, hn⟩ := notes_of_run (i := .msixUnmask f v) (f := unmask f v) rfl hu
      (onlyNotes_of_views (sendPending_views f _)) rfl rfl
    have hpcie := hn.pcie
    exact ⟨t, ht, (congrArg Pcie.unmasked hpcie : t.pcie.unmasked = _) ▸ (mem_insertSorted ..).2 (Or.inl rfl)⟩
  case poisoned =>
    obtain ⟨t, ht, hv⟩ := run_leads (fun s => if !fnExists s f then s else if r then emit (.unsupported f) (logAer f .poisoned s)
      else logAer f .poisoned s) s
    have hu : OnlyViews (logAer f .poisoned s) t := by
      refine onlyViews_trans ?_ hv
      simp only [hf, Bool.not_true, Bool.false_eq_true, if_false]
      cases r <;> rfl
    exact ⟨t, ht, (congrArg Pcie.aer (views_pcie hu) : t.pcie.aer = _) ▸ mem_logAer f .poisoned s, (views_ten hu :), (views_ush hu :),
      (views_seats hu :)⟩
  case ecrc =>
    obtain ⟨t, ht, hv⟩ := views_of_run (i := .ecrcError) (f := logAer 0 .ecrc) rfl rfl
    exact ⟨t, ht, (congrArg Pcie.aer (views_pcie hv) : t.pcie.aer = _) ▸ mem_logAer 0 .ecrc s⟩
  case dialog =>
    exact leadsTo_of_run (f := startDialog) rfl (if_pos hptm) rfl rfl
  case first =>
    refine leadsTo_of_run (f := dialogDone) rfl ?_ rfl rfl
    simp [dialogDone, hptm, hdialog, hlost, hrun]
  case second =>
    have hu : dialogDone s = event 0x0302 1 deviceWide [0]
        { s with pcie := { s.pcie with ptmDialog := false, ptmLost := false, ptmRun := 0 } } := by
      simp [dialogDone, hptm, hdialog, hlost, hrun]
    obtain ⟨t, ht, hn⟩ := notes_of_run (i := .ptmDialogComplete time) (f := dialogDone) rfl hu
      (onlyNotes_of_logs (event_logs ..)) rfl rfl
    exact ⟨t, ht, congrArg Pcie.ptmLost hn.pcie⟩
  case loss =>
    let u : State := { s with pcie := { s.pcie with ptmLost := true, ptmRun := 0 }, box := { s.box with ptmLost := true } }
    have hu : losePtm s = event 0x0302 1 deviceWide [1] u := by simp [losePtm, hlost, u]
    have hlogs : OnlyNotes u (event 0x0302 1 deviceWide [1] u) := onlyNotes_of_logs (event_logs ..)
    obtain ⟨t, ht, hn, -, hc⟩ := causes_of_run (i := .ptmLoss) (f := losePtm) rfl hu hlogs rfl rfl
    exact ⟨t, ht, congrArg Pcie.ptmLost hn.pcie, congrArg Box.ptmLost hn.box,
      hc 9 (by decide) (liveCauses_ptm (congrArg Pcie.ptmLost hlogs.pcie))⟩

end Sys2Proof.Machine

/-! PROOF. Resets of the PF, and the loss of the compute die's state (R49, R56, R92, R123, R495, R506). -/

namespace Sys2Proof.Machine

open Sys2Proof.Claims

/-! ### Ends of operations that keep the slots of the key table -/

/-- The end of a ceremony touches the token bus's state and the recorder. -/
theorem endCeremony_logs (result : Nat) (s : State) :
    OnlyLogs { s with tkb := (endCeremony result s).tkb } (endCeremony result s) := by
  have hfinish (c : Ceremony) (u : State) (hu : u = event 0x0C02 1 deviceWide ([byte c.action, byte result] ++ leBytes 2 (countedMask c))
      { s with tkb := { s.tkb with approval := .none, result := result } }) : OnlyLogs { s with tkb := u.tkb } u := by
    subst hu
    rw [event_tkb]
    exact event_logs ..
  unfold endCeremony
  dsimp only
  split
  · exact hfinish _ _ rfl
  · exact hfinish _ _ rfl
  · exact onlyLogs_refl s

@[simp] theorem endCeremony_keys (result : Nat) (s : State) : (endCeremony result s).keys = s.keys := by
  rw [endCeremony_logs result s]

theorem lapseApproval_keys (k : Nat) (s : State) : (lapseApproval k s).keys = s.keys := by
  unfold lapseApproval
  split
  · split
    · rfl
    · dsimp only
      split
      · exact endCeremony_keys ..
      · rfl
  · rfl

theorem releasePair_keys (k : Nat) (s : State) : (releasePair k s).keys = s.keys := by
  have hkeys {u v : State} (h : OnlyTiles u v) : v.keys = u.keys := by rw [h]
  unfold releasePair
  split
  · rfl
  · exact (hkeys (freeUnit?_only ..)).trans (hkeys (freeUnit?_only ..))

theorem forfeitLeaf_slots (x : Seat) (s : State) : (forfeitLeaf x s).keys.slots = s.keys.slots := by
  unfold forfeitLeaf
  split
  · rfl
  · split <;> rfl

/-- An operation whose commit is not held leaves every slot as it ends. -/
theorem dropRun_slots {k : Nat} {s : State} (h : ∀ x, s.seats.get? k = some x → x.phase ≠ .held) :
    (dropRun k s).keys.slots = s.keys.slots := by
  unfold dropRun
  split
  · rfl
  · next x hx =>
    show (lapseApproval k (forfeitLeaf x _)).keys.slots = _
    rw [lapseApproval_keys, forfeitLeaf_slots, if_neg (h x hx), releasePair_keys]

theorem releaseSeat_keys (k : Nat) (s : State) : (releaseSeat k s).keys = s.keys := by
  have hfold (l : List (Nat × Nat)) (u : State) :
      (l.foldl (fun t w => if quiet t w.2 then endQuiesce .ok w.1 t else t) u).keys = u.keys := by
    induction l generalizing u with
    | nil => rfl
    | cons w l ih =>
      refine (ih _).trans ?_
      dsimp only
      split <;> rfl
  exact hfold _ _

theorem squashSeat_slots {k : Nat} {s : State} (h : ∀ x, s.seats.get? k = some x → x.phase ≠ .held) :
    (squashSeat k s).keys.slots = s.keys.slots := by
  rw [squashSeat, releaseSeat_keys, dropRun_slots h]

theorem detach_slots {j : Nat} {s : State} (h : ∀ x, s.seats.get? j = some x → x.phase ≠ .held) :
    (detach j s).keys.slots = s.keys.slots := by
  unfold detach
  split
  · rfl
  · next x hx =>
    dsimp only
    split
    · have hmark : (updSeat j (fun y => { y with detached := true }) s).seats.get? j = some { x with detached := true } := by
        rw [updSeat_seats, Tab.get?_upd, if_pos rfl, hx]
        rfl
      have hends : ∀ u : State, u.seats = (updSeat j (fun y => { y with detached := true }) s).seats → u.keys = s.keys →
          (squashSeat j u).keys.slots = s.keys.slots := by
        intro u hu hk
        rw [squashSeat_slots, hk]
        intro y hy
        rw [hu, hmark] at hy
        cases hy
        exact h x hx
      simp only [operandFails, hmark]
      split
      · simp only [endSeat, hmark, if_true]
        exact hends _ rfl rfl
      · simp only [endSeat, hmark, if_true]
        exact hends _ rfl rfl
    · rfl

theorem resetSeat_slots (s : State) (k : Nat) : (resetSeat s k).keys.slots = s.keys.slots := by
  unfold resetSeat
  split
  · rfl
  · next x hx =>
    have hphase {p : Phase} (h : x.phase = p) (hp : p ≠ .held) : ∀ y, s.seats.get? k = some y → y.phase ≠ .held := by
      intro y hy
      obtain rfl := Option.some.inj (hx.symm.trans hy)
      rwa [h]
    split
    · next h => exact squashSeat_slots (hphase h (by decide))
    · next h =>
      split
      · exact squashSeat_slots (hphase h (by decide))
      · exact detach_slots (hphase h (by decide))
    · rw [releaseSeat_keys]
    · rfl
    · next h => exact detach_slots (hphase h (by decide))

theorem drainFunction_slots (f : Nat) (s : State) : (drainFunction f s).keys.slots = s.keys.slots := by
  have hfold (l : List Nat) (u : State) : (l.foldl resetSeat u).keys.slots = u.keys.slots := by
    induction l generalizing u with
    | nil => rfl
    | cons k l ih => exact (ih _).trans (resetSeat_slots u k)
  rw [drainFunction_eq, hfold]
  rfl

/-- Without a seat, a drain stops reads and filters the writer, and no more. -/
theorem drainFunction_empty {f : Nat} {s : State} (h : s.seats = []) : drainFunction f s = drainQueues f s := by
  have hkeys : Tab.keys (seatsOf s f) = [] := by simp [seatsOf, h, Tab.keys]
  rw [drainFunction_eq, hkeys]
  rfl

/-! ### What a reset that ends the VFs keeps of the PF -/

/-- `t` is `s` but for the ends of operations, the reads of rings, the writer and the resets in progress; slots, what is written
of the PF and the PF's rings stay. -/
structure KeepsPf (s t : State) : Prop where
  only : OnlyEnds { s with ush := { s.ush with rings := t.ush.rings }, writer := t.writer,
                           ten := { s.ten with resets := t.ten.resets } } t
  slots : t.keys.slots = s.keys.slots
  writer : ∀ i ∈ t.writer, i ∈ s.writer
  rings : ∀ c r, s.ush.rings.get? c = some r → r.owner = 0 → t.ush.rings.get? c = some r
  empty : s.seats = [] → t.seats = []

theorem keepsPf_refl (s : State) : KeepsPf s s := ⟨rfl, rfl, fun _ h => h, fun _ _ h _ => h, fun h => h⟩

theorem keepsPf_trans {s t u : State} (h : KeepsPf s t) (g : KeepsPf t u) : KeepsPf s u := by
  refine ⟨?_, g.slots.trans h.slots, fun i hi => h.writer i (g.writer i hi),
    fun c r hr h0 => g.rings c r (h.rings c r hr h0) h0, fun he => g.empty (h.empty he)⟩
  have h := h.only
  have g := g.only
  unfold OnlyEnds at *
  rw [g, h]

theorem keepsPf_foldl {α : Type} (f : State → α → State) (h : ∀ s a, KeepsPf s (f s a)) (l : List α) (s : State) :
    KeepsPf s (l.foldl f s) := by
  induction l generalizing s with
  | nil => exact keepsPf_refl s
  | cons a l ih => exact keepsPf_trans (h s a) (ih _)

theorem startReset_keepsPf {f : Nat} (cause : Nat) (joined : List Nat) (vanishes : Bool) (s : State) (hf : f ≠ 0) :
    KeepsPf s (startReset f cause joined vanishes s) := by
  cases hr : s.ten.resets.get? f with
  | some r =>
    rw [startReset_joins joined vanishes hr]
    exact ⟨rfl, rfl, fun _ h => h, fun _ _ h _ => h, fun h => h⟩
  | none =>
    have hends := startReset_ends cause joined vanishes hr
    have heq := startReset_drains cause joined vanishes hr
    refine ⟨?_, ?_, fun i hi => ?_, fun c r hget h0 => ?_, fun he => ?_⟩
    · unfold OnlyEnds at *
      rw [hends]
      rfl
    · rw [heq, event_keys, drainFunction_slots]
      rfl
    · rw [hends.writer] at hi
      exact (List.mem_filter.1 hi).1
    · rw [hends.ush]
      exact drainQueues_get?_other (s := resetRow f cause joined vanishes s) hget (h0.trans_ne hf.symm)
    · rw [heq, event_seats, drainFunction_empty (by exact he)]
      exact he

/-- The starts of the VFs' resets, before VF Enable clears. -/
def resetVfs (s : State) : State := (List.range s.pcie.vfs).foldl (fun t i => startReset (i + 1) 2 [] true t) s

theorem resetVfs_keepsPf (s : State) : KeepsPf s (resetVfs s) :=
  keepsPf_foldl _ (fun u i => startReset_keepsPf 2 [] true u (Nat.succ_ne_zero i)) _ s

/-- What a reset of the PF leaves (R49, R56, R92, R506). -/
structure PfReset (s t : State) : Prop where
  vfEnable : t.pcie.vfEnable = false
  vfs : t.pcie.vfs = 0
  evtEnable : t.glb.evtEnable = []
  pairs : t.glb.pairs = []
  ready : t.pcie.ready = s.pcie.ready
  mkPresent : t.keys.mkPresent = s.keys.mkPresent
  master : t.keys.master = s.keys.master
  slots : t.keys.slots = s.keys.slots
  active : t.stg.active = s.stg.active
  bankA : t.stg.bankA = s.stg.bankA
  bankB : t.stg.bankB = s.stg.bankB
  scratch : t.glb.scratch = s.glb.scratch
  halt : halted t 0 = false
  writer : ∀ i ∈ t.writer, i ∈ s.writer ∧ i.fn ≠ 0
  rings : ∀ c r, s.ush.rings.get? c = some r → r.owner = 0 → ∃ q, t.ush.rings.get? c = some q ∧ q.sqNext = 0 ∧ q.cqNext = 0
    ∧ q.expPhase = true ∧ q.cqPhase = true ∧ q.interval = 0 ∧ q.sqBase = r.sqBase ∧ q.ringId = r.ringId

/-- The PF's own side of its reset. -/
def resetOwn (s : State) : State := resetRings 0 (drainFunction 0 s)

theorem resetPf_eq (s : State) : resetPf s =
    (let v := resetVfs (resetOwn s)
     { v with pcie := { v.pcie with vfEnable := false, vfs := 0 }, stg := { v.stg with overlayMax := v.stg.overlayMaxNext },
              glb := { v.glb with evtPend := [], evtEnable := [], pairs := [] } }) := rfl

theorem resetOwn_get? {c : Nat} {r : Ring} {s : State} (hr : s.ush.rings.get? c = some r) (h0 : r.owner = 0) :
    (resetOwn s).ush.rings.get? c = some (resetRing (stopReads r)) := by
  have hdrain : (drainFunction 0 s).ush.rings.get? c = some (stopReads r) := by
    rw [(drainFunction_ends 0 s).ush]
    simp [drainQueues, Tab.get?_mapRows, hr, h0]
  have hown : (stopReads r).owner = 0 := h0
  simp [resetOwn, resetRings, Tab.get?_mapRows, hdrain, hown]

theorem resetPf_leaves (s : State) : PfReset s (resetPf s) := by
  have hvfs := resetVfs_keepsPf (resetOwn s)
  have hown := drainFunction_ends 0 s
  have hready : (resetVfs (resetOwn s)).pcie.ready = s.pcie.ready :=
    Eq.trans (congrArg Pcie.ready hvfs.only.pcie :) (congrArg Pcie.ready hown.pcie :)
  have hkeys : (resetVfs (resetOwn s)).keys.mkPresent = s.keys.mkPresent :=
    Eq.trans (congrArg Keys.mkPresent hvfs.only.keys :) (congrArg Keys.mkPresent hown.keys :)
  have hmaster : (resetVfs (resetOwn s)).keys.master = s.keys.master :=
    Eq.trans (congrArg Keys.master hvfs.only.keys :) (congrArg Keys.master hown.keys :)
  have hplan {α : Type} (g : Stg → α) (hg : ∀ p l, g { p with loading := l } = g p) : g (resetVfs (resetOwn s)).stg = g s.stg := by
    rw [hvfs.only.stg, hg]
    show g (drainFunction 0 s).stg = g s.stg
    rw [hown.stg, hg]
    rfl
  rw [resetPf_eq]
  refine
    { vfEnable := rfl, vfs := rfl, evtEnable := rfl, pairs := rfl, ready := hready, mkPresent := hkeys
      master := hmaster
      slots := hvfs.slots.trans (drainFunction_slots 0 s), active := hplan Stg.active fun _ _ => rfl
      bankA := hplan Stg.bankA fun _ _ => rfl, bankB := hplan Stg.bankB fun _ _ => rfl, scratch := hvfs.only.scratch.trans hown.scratch, halt := ?_, writer := fun i hi => ?_
      rings := fun c r hr h0 => ⟨_, hvfs.rings c _ (resetOwn_get? hr h0) h0, rfl, rfl, rfl, rfl, rfl, rfl, rfl⟩ }
  · have hush : (resetVfs (resetOwn s)).ush.halted = (resetOwn s).ush.halted := by rw [hvfs.only.ush]
    show (resetVfs (resetOwn s)).ush.halted.contains 0 = false
    rw [hush]
    exact resetRings_halted 0 _
  · have hmem : i ∈ (drainFunction 0 s).writer := hvfs.writer i hi
    rw [hown.writer] at hmem
    obtain ⟨h1, h2⟩ := List.mem_filter.1 hmem
    exact ⟨h1, by simpa using h2⟩

/-! ### The end of a pairing -/

/-- `t` is `s` but for the twin link, the slots and the journal, the homes of partitions and the notes; pins only end, and what
differs of a seat is the copy of a pin. -/
structure ForgetsTwin (s t : State) : Prop where
  only : t = { s with
    keys := { s.keys with slots := t.keys.slots, stateful := t.keys.stateful, seq := t.keys.seq, ackedSeq := t.keys.ackedSeq,
                          head := t.keys.head, journal := t.keys.journal, log := t.keys.log, pins := t.keys.pins,
                          written := t.keys.written, cache := t.keys.cache },
    twn := t.twn, ten := { s.ten with homes := t.ten.homes, eraseCount := t.ten.eraseCount }, seats := t.seats, free := t.free,
    host := t.host, evr := t.evr, pcie := { s.pcie with msixPending := t.pcie.msixPending },
    glb := { s.glb with trouble := t.glb.trouble, evtPend := t.glb.evtPend, counters := t.glb.counters } }
  pins : s.keys.pins = [] → t.keys.pins = []
  phases : ∀ k x, t.seats.get? k = some x → ∃ y, s.seats.get? k = some y ∧ x.phase = y.phase
  outcomes : ∀ k y, s.seats.get? k = some y → ∃ x, t.seats.get? k = some x ∧ x.outcome = y.outcome

theorem forgetsTwin_of_same {s t : State} (h : t.keys.pins = s.keys.pins) (hs : t.seats = s.seats)
    (ho : t = { s with
      keys := { s.keys with slots := t.keys.slots, stateful := t.keys.stateful, seq := t.keys.seq, ackedSeq := t.keys.ackedSeq,
                            head := t.keys.head, journal := t.keys.journal, log := t.keys.log, pins := t.keys.pins,
                            written := t.keys.written, cache := t.keys.cache },
      twn := t.twn, ten := { s.ten with homes := t.ten.homes, eraseCount := t.ten.eraseCount }, seats := t.seats, free := t.free,
      host := t.host, evr := t.evr, pcie := { s.pcie with msixPending := t.pcie.msixPending },
      glb := { s.glb with trouble := t.glb.trouble, evtPend := t.glb.evtPend, counters := t.glb.counters } }) :
    ForgetsTwin s t :=
  ⟨ho, fun hp => h.trans hp, fun _ x hx => ⟨x, hs ▸ hx, rfl⟩, fun _ y hy => ⟨y, hs ▸ hy, rfl⟩⟩

theorem ForgetsTwin.mkPresent {s t : State} (h : ForgetsTwin s t) : t.keys.mkPresent = s.keys.mkPresent := by rw [h.only]
theorem ForgetsTwin.master {s t : State} (h : ForgetsTwin s t) : t.keys.master = s.keys.master := by rw [h.only]
theorem ForgetsTwin.writer {s t : State} (h : ForgetsTwin s t) : t.writer = s.writer := by rw [h.only]
theorem ForgetsTwin.stg {s t : State} (h : ForgetsTwin s t) : t.stg = s.stg := by rw [h.only]
theorem ForgetsTwin.box {s t : State} (h : ForgetsTwin s t) : t.box = s.box := by rw [h.only]

theorem forgetsTwin_refl (s : State) : ForgetsTwin s s := forgetsTwin_of_same rfl rfl rfl

theorem forgetsTwin_trans {s t u : State} (h : ForgetsTwin s t) (g : ForgetsTwin t u) : ForgetsTwin s u := by
  refine ⟨?_, fun hp => g.pins (h.pins hp), fun k x hx => ?_, fun k y hy => ?_⟩
  · rw [g.only, h.only]
  · obtain ⟨y, hy, hxy⟩ := g.phases k x hx
    obtain ⟨z, hz, hyz⟩ := h.phases k y hy
    exact ⟨z, hz, hxy.trans hyz⟩
  · obtain ⟨x, hx, hxy⟩ := h.outcomes k y hy
    obtain ⟨z, hz, hzx⟩ := g.outcomes k x hx
    exact ⟨z, hz, hzx.trans hxy⟩

theorem forgetsTwin_foldl {α : Type} (f : State → α → State) (h : ∀ s a, ForgetsTwin s (f s a)) (l : List α) (s : State) :
    ForgetsTwin s (l.foldl f s) := by
  induction l generalizing s with
  | nil => exact forgetsTwin_refl s
  | cons a l ih => exact forgetsTwin_trans (h s a) (ih _)

theorem forgetsTwin_of_logs {s t : State} (h : OnlyLogs s t) : ForgetsTwin s t :=
  forgetsTwin_of_same (by rw [h]) (by rw [h]) (by rw [h])

theorem forgetsTwin_of_journal {s t : State} (h : OnlyJournal s t) : ForgetsTwin s t :=
  forgetsTwin_of_same (by rw [h]) (by rw [h]) (by rw [h])

theorem endPin_forgets (i : Nat) (s : State) : ForgetsTwin s (endPin i s) := by
  unfold endPin
  split
  · exact forgetsTwin_refl s
  · refine ⟨rfl, fun hp => ?_, fun k x hx => ?_, fun k y hy => ?_⟩
    · show s.keys.pins.del i = []
      rw [hp]
      rfl
    · dsimp only [spend] at hx
      rw [Tab.get?_mapRows] at hx
      obtain ⟨y, hy, rfl⟩ := Option.map_eq_some_iff.1 hx
      refine ⟨y, hy, ?_⟩
      split <;> rfl
    · dsimp only [spend]
      rw [Tab.get?_mapRows, hy]
      refine ⟨_, rfl, ?_⟩
      dsimp only
      split <;> rfl

theorem endKey_forgets (i seq : Nat) (s : State) : ForgetsTwin s (endKey i seq s) := by
  unfold endKey
  split
  · exact forgetsTwin_refl s
  · split
    · exact forgetsTwin_refl s
    · exact forgetsTwin_trans (endPin_forgets i s) (forgetsTwin_of_same rfl rfl rfl)

theorem erasePartition_forgets (f : Nat) (s : State) : ForgetsTwin s (erasePartition f s) := by
  have hslots (seq : Nat) (l : List (Nat × Slot)) (u : State) : ForgetsTwin u (l.foldl (fun t x => endKey x.1 seq t) u) :=
    forgetsTwin_foldl _ (fun t x => endKey_forgets x.1 seq t) l u
  exact forgetsTwin_trans (forgetsTwin_trans (forgetsTwin_of_journal (writeShared_only ..)) (hslots _ _ _))
    (forgetsTwin_of_same rfl rfl rfl)

theorem eraseMirrors_forgets (s : State) : ForgetsTwin s (eraseMirrors s) :=
  forgetsTwin_foldl _ (fun t f => forgetsTwin_trans (erasePartition_forgets f t) (forgetsTwin_of_logs (event_logs ..))) _ s

theorem unpair_forgets (s : State) : ForgetsTwin s (unpair s) := by
  refine forgetsTwin_trans (t := { endSession s with twn := { (endSession s).twn with record := none } })
    (forgetsTwin_of_same rfl rfl rfl) (forgetsTwin_trans (eraseMirrors_forgets _) ?_)
  exact forgetsTwin_of_same rfl rfl rfl

/-! ### The loss of every operation (R31) -/

theorem eq_nil_of_get? {α : Type} {t : Tab α} (h : ∀ k, t.get? k = none) : t = [] := by
  cases t with
  | nil => rfl
  | cons r t =>
    obtain ⟨k, a⟩ := r
    have := h k
    simp [Tab.get?] at this

theorem ForgetsTwin.seats_nil {s t : State} (h : ForgetsTwin s t) (hs : s.seats = []) : t.seats = [] := by
  refine eq_nil_of_get? fun k => Option.eq_none_iff_forall_not_mem.2 fun x hx => ?_
  obtain ⟨y, hy, -⟩ := h.phases k x hx
  rw [hs] at hy
  cases hy

/-- After the squash of the seats of a list none of them is left, and no seat is new. -/
theorem foldl_squashSeat_get? (l : List Nat) (s : State) :
    ∀ k, k ∈ l ∨ s.seats.get? k = none → (l.foldl (fun t k => squashSeat k t) s).seats.get? k = none := by
  induction l generalizing s with
  | nil => simp
  | cons j l ih =>
    intro k hk
    refine ih _ k ?_
    by_cases hkj : k = j
    · exact Or.inr (hkj ▸ releaseSeat_get?_self ..)
    · rcases hk with hk | hk
      · exact Or.inl ((List.mem_cons.1 hk).resolve_left hkj)
      · rcases squashSeat_others j s k hkj with ⟨h, -⟩ | ⟨x, o, hx, -⟩
        · exact Or.inr h
        · rw [hk] at hx; cases hx

theorem foldl_squashSeat_slots (l : List Nat) (s : State) (h : ∀ k x, s.seats.get? k = some x → x.phase ≠ .held) :
    (l.foldl (fun t k => squashSeat k t) s).keys.slots = s.keys.slots := by
  induction l generalizing s with
  | nil => rfl
  | cons j l ih =>
    refine (ih (squashSeat j s) fun k x hx => ?_).trans (squashSeat_slots (h j))
    by_cases hkj : k = j
    · subst hkj
      rw [squashSeat, releaseSeat_get?_self] at hx
      cases hx
    · rcases squashSeat_others j s k hkj with ⟨hnone, -⟩ | ⟨y, o, hy, hy'⟩
      · rw [hnone] at hx; cases hx
      · obtain rfl := Option.some.inj (hy'.symm.trans hx)
        exact h k y hy

theorem loseOperations_seats (s : State) : (loseOperations s).seats = [] := by
  refine eq_nil_of_get? fun k => foldl_squashSeat_get? _ _ k ?_
  cases hk : s.seats.get? k with
  | none => exact Or.inr rfl
  | some x => exact Or.inl (List.mem_map.2 ⟨(k, x), mem_of_get? hk, rfl⟩)

theorem loseOperations_ends (s : State) : OnlyEnds { s with writer := [] } (loseOperations s) :=
  onlyEnds_foldl _ (fun t k => squashSeat_ends k t) _ _

/-! ### What the compute die loses -/

/-- What PERST_N, or a loss of supply, leaves of the compute die's state. -/
structure LosesCompute (s t : State) : Prop where
  seats : t.seats = []
  writer : t.writer = []
  pins : t.keys.pins = []
  mkPresent : t.keys.mkPresent = s.keys.mkPresent
  master : t.keys.master = s.keys.master
  slots : s.twn.state ≠ .pairing → (∀ p ∈ s.seats, p.2.phase ≠ .held) → t.keys.slots = s.keys.slots
  bankA : t.stg.bankA = s.stg.bankA
  bankB : t.stg.bankB = s.stg.bankB
  running : t.box.running = s.box.running
  ready : t.pcie.ready = false
  cfgRetry : t.pcie.cfgRetry = true
  vfs : t.pcie.vfs = 0
  scratch : t.glb.scratch = 0
  pairs : t.glb.pairs = []

theorem resetTwinConfig_forgets (s : State) : ForgetsTwin s (resetTwinConfig s) := by
  unfold resetTwinConfig
  dsimp only
  split
  · exact forgetsTwin_trans (unpair_forgets s) (forgetsTwin_of_same rfl rfl rfl)
  · exact forgetsTwin_of_same rfl rfl rfl

theorem resetHot_empty {s : State} (h : s.seats = []) :
    (resetHot s).seats = [] ∧ (resetHot s).keys.pins = s.keys.pins ∧ (resetHot s).box = s.box := by
  have hvfs := resetVfs_keepsPf (resetOwn s)
  have hown : resetOwn s = resetRings 0 (drainQueues 0 s) := by rw [resetOwn, drainFunction_empty h]
  rw [hown] at hvfs
  have heq : ∀ {α : Type} (g : State → α), g (resetHot s) = g (endLinkSecurity (resetPf s)) := fun _ => rfl
  rw [heq State.seats, heq (fun t => t.keys.pins), heq State.box, resetPf_eq, hown]
  exact ⟨hvfs.empty h, (congrArg Keys.pins hvfs.only.keys :), hvfs.only.box⟩

/-- The loss of PTM touches the controller's and the meters' view of it, and the recorder. -/
theorem losePtm_notes (s : State) :
    ∃ b, OnlyNotes { s with pcie := { s.pcie with ptmLost := true, ptmRun := 0 }, box := { s.box with ptmLost := b } } (losePtm s) := by
  unfold losePtm
  split
  · next h =>
    refine ⟨s.box.ptmLost, ?_⟩
    rw [← h]
    exact onlyNotes_refl _
  · exact ⟨true, onlyNotes_of_logs (event_logs ..)⟩

theorem resetController_frame (s : State) :
    (resetController s).seats = s.seats ∧ (resetController s).writer = s.writer ∧ (resetController s).keys = s.keys
      ∧ (resetController s).stg = s.stg ∧ (resetController s).box.running = s.box.running
      ∧ (resetController s).glb.scratch = s.glb.scratch ∧ (resetController s).glb.pairs = s.glb.pairs
      ∧ (resetController s).pcie.vfs = s.pcie.vfs ∧ (resetController s).pcie.ready = false
      ∧ (resetController s).pcie.cfgRetry = true := by
  obtain ⟨b, h⟩ := losePtm_notes { s with pcie := { s.pcie with ptmEnable := false, ptmDialog := s.pcie.ptmDialog && false } }
  exact ⟨h.seats, h.writer, h.keys, h.stg, (congrArg Box.running h.box :), (congrArg Glb.scratch h.glb :), (congrArg Glb.pairs h.glb :),
    (congrArg Pcie.vfs h.pcie :), rfl, rfl⟩

theorem resetRegisters_frame (s : State) :
    (resetRegisters s).seats = s.seats ∧ (resetRegisters s).writer = s.writer ∧ (resetRegisters s).keys = s.keys
      ∧ (resetRegisters s).stg = s.stg ∧ (resetRegisters s).box.running = s.box.running ∧ (resetRegisters s).pcie = s.pcie
      ∧ (resetRegisters s).glb.scratch = 0 ∧ (resetRegisters s).glb.pairs = [] :=
  ⟨rfl, rfl, rfl, rfl, rfl, rfl, rfl, rfl⟩

/-- The resets of the register map and of the controller keep what a hot reset left of the operations, the keys and the plan. -/
theorem resetRest_frame (s : State) :
    (resetController (resetRegisters s)).seats = s.seats ∧ (resetController (resetRegisters s)).writer = s.writer
      ∧ (resetController (resetRegisters s)).keys = s.keys ∧ (resetController (resetRegisters s)).stg = s.stg
      ∧ (resetController (resetRegisters s)).box.running = s.box.running
      ∧ (resetController (resetRegisters s)).pcie.vfs = s.pcie.vfs
      ∧ (resetController (resetRegisters s)).glb.scratch = 0 ∧ (resetController (resetRegisters s)).glb.pairs = [] := by
  obtain ⟨cseats, cwriter, ckeys, cstg, cbox, cscratch, cpairs, cvfs, -, -⟩ := resetController_frame (resetRegisters s)
  obtain ⟨rseats, rwriter, rkeys, rstg, rbox, rpcie, rscratch, rpairs⟩ := resetRegisters_frame s
  exact ⟨cseats.trans rseats, cwriter.trans rwriter, ckeys.trans rkeys, cstg.trans rstg, cbox.trans rbox,
    cvfs.trans (congrArg Pcie.vfs rpcie), cscratch.trans rscratch, cpairs.trans rpairs⟩

/-- The state of `resetCompute` before the controller's resets. -/
def lostSeats (s : State) : State :=
  let s := resetTwinConfig (resetCeremony (dropSwitch (loseKeyState (loseOperations s))))
  { s with lcs := { s.lcs with challenge := false, unlocked := false, newWanted := false } }

theorem resetCompute_eq (s : State) : resetCompute s = resetController (resetRegisters (resetHot (lostSeats s))) := rfl

theorem lostSeats_leaves (s : State) :
    (lostSeats s).seats = [] ∧ (lostSeats s).writer = [] ∧ (lostSeats s).keys.pins = []
      ∧ (lostSeats s).keys.mkPresent = s.keys.mkPresent ∧ (lostSeats s).keys.master = s.keys.master
      ∧ (s.twn.state ≠ .pairing → (∀ p ∈ s.seats, p.2.phase ≠ .held) → (lostSeats s).keys.slots = s.keys.slots)
      ∧ (lostSeats s).stg.bankA = s.stg.bankA ∧ (lostSeats s).stg.bankB = s.stg.bankB ∧ (lostSeats s).box = s.box := by
  have hops := loseOperations_ends s
  have hcer := onlyNotes_of_logs (endCeremony_logs 0 (dropSwitch (loseKeyState (loseOperations s))))
  have htwin := resetTwinConfig_forgets (resetCeremony (dropSwitch (loseKeyState (loseOperations s))))
  have hseats : (resetCeremony (dropSwitch (loseKeyState (loseOperations s)))).seats = [] := hcer.seats.trans (loseOperations_seats s)
  have hkeys : (resetCeremony (dropSwitch (loseKeyState (loseOperations s)))).keys = (loseKeyState (loseOperations s)).keys := hcer.keys
  have hstg : (lostSeats s).stg = (dropSwitch (loseKeyState (loseOperations s))).stg :=
    htwin.stg.trans hcer.stg
  refine ⟨htwin.seats_nil hseats, ?_, htwin.pins (congrArg Keys.pins hkeys), ?_, ?_, fun hstate hheld => ?_, ?_, ?_, ?_⟩
  · exact htwin.writer.trans (hcer.writer.trans hops.writer)
  · exact htwin.mkPresent.trans ((congrArg Keys.mkPresent hkeys).trans (congrArg Keys.mkPresent hops.keys :))
  · exact htwin.master.trans ((congrArg Keys.master hkeys).trans (congrArg Keys.master hops.keys :))
  · have htwn : (resetCeremony (dropSwitch (loseKeyState (loseOperations s)))).twn = s.twn := hcer.twn.trans hops.twn
    have hsame : (lostSeats s).keys = (resetCeremony (dropSwitch (loseKeyState (loseOperations s)))).keys := by
      unfold lostSeats resetTwinConfig
      simp only [htwn, if_neg hstate]
    rw [hsame, hkeys]
    exact foldl_squashSeat_slots _ _ fun k x hx => hheld (k, x) (mem_of_get? hx)
  · exact Eq.trans (congrArg Stg.bankA hstg :) (congrArg Stg.bankA hops.stg :)
  · exact Eq.trans (congrArg Stg.bankB hstg :) (congrArg Stg.bankB hops.stg :)
  · exact htwin.box.trans (hcer.box.trans hops.box)

theorem resetHot_leaves (s : State) : PfReset s (resetHot s) := { resetPf_leaves s with }

theorem resetCompute_leaves (s : State) : LosesCompute s (resetCompute s) := by
  obtain ⟨hseats, hwriter, hpins, hmk, hmaster, hslots, hbankA, hbankB, hbox⟩ := lostSeats_leaves s
  have hpf := resetHot_leaves (lostSeats s)
  obtain ⟨hhotSeats, hhotPins, hhotBox⟩ := resetHot_empty hseats
  have hframe := resetRest_frame (resetHot (lostSeats s))
  obtain ⟨-, -, -, -, -, -, -, -, cready, cretry⟩ := resetController_frame (resetRegisters (resetHot (lostSeats s)))
  rw [← resetCompute_eq] at hframe cready cretry
  obtain ⟨cseats, cwriter, ckeys, cstg, cbox, cvfs, cscratch, cpairs⟩ := hframe
  have hhotWriter : (resetHot (lostSeats s)).writer = [] :=
    List.eq_nil_iff_forall_not_mem.2 fun i hi => by
      have hmem := (hpf.writer i hi).1
      rw [hwriter] at hmem
      cases hmem
  exact
    { seats := cseats.trans hhotSeats, writer := cwriter.trans hhotWriter
      pins := (congrArg Keys.pins ckeys).trans (hhotPins.trans hpins)
      mkPresent := (congrArg Keys.mkPresent ckeys).trans (hpf.mkPresent.trans hmk)
      master := (congrArg Keys.master ckeys).trans (hpf.master.trans hmaster)
      slots := fun hstate hheld => (congrArg Keys.slots ckeys).trans (hpf.slots.trans (hslots hstate hheld))
      bankA := (congrArg Stg.bankA cstg).trans (hpf.bankA.trans hbankA)
      bankB := (congrArg Stg.bankB cstg).trans (hpf.bankB.trans hbankB)
      running := cbox.trans ((congrArg Box.running hhotBox).trans (congrArg Box.running hbox))
      ready := cready, cfgRetry := cretry, vfs := cvfs.trans hpf.vfs, scratch := cscratch, pairs := cpairs }

/-- The epoch that runs ends, and nothing else of the device (R123). -/
theorem cutEpoch_frame (s : State) :
    (cutEpoch s).box.running = false ∧ ∃ b n, cutEpoch s = { s with box := b, free := n } := by
  unfold cutEpoch
  split
  · exact ⟨rfl, _, _, rfl⟩
  · next h => exact ⟨by simpa using h, s.box, s.free, rfl⟩

/-! ### The obligation -/

theorem PfReset.views {s u t : State} (h : PfReset s u) (hv : OnlyViews { u with pending := s.pending, otp := s.otp } t) :
    PfReset s t := by
  have hush : t.ush = u.ush := (views_ush hv :)
  have hwriter : t.writer = u.writer := (views_writer hv :)
  have hkeys : t.keys = u.keys := (views_keys hv :)
  have hstg : t.stg = u.stg := (views_stg hv :)
  have hpcie : t.pcie = { u.pcie with msixPending := t.pcie.msixPending } := (views_pcie hv :)
  have hglb : t.glb = { u.glb with trouble := t.glb.trouble, evtPend := t.glb.evtPend } := (views_glb hv :)
  exact
    { vfEnable := Eq.trans (congrArg Pcie.vfEnable hpcie :) h.vfEnable, vfs := Eq.trans (congrArg Pcie.vfs hpcie :) h.vfs
      evtEnable := Eq.trans (congrArg Glb.evtEnable hglb :) h.evtEnable, pairs := Eq.trans (congrArg Glb.pairs hglb :) h.pairs
      ready := Eq.trans (congrArg Pcie.ready hpcie :) h.ready, mkPresent := hkeys ▸ h.mkPresent
      master := hkeys ▸ h.master, slots := hkeys ▸ h.slots
      active := hstg ▸ h.active, bankA := hstg ▸ h.bankA, bankB := hstg ▸ h.bankB
      scratch := Eq.trans (congrArg Glb.scratch hglb :) h.scratch
      halt := by unfold halted; rw [hush]; exact h.halt
      writer := hwriter ▸ h.writer, rings := hush ▸ h.rings }

theorem PfReset.facts {s t : State} (h : PfReset s t) :
    t.pcie.vfEnable = false ∧ t.pcie.vfs = 0 ∧ t.glb.evtEnable = [] ∧ t.glb.pairs = []
      ∧ t.pcie.ready = s.pcie.ready ∧ t.keys.mkPresent = s.keys.mkPresent ∧ t.keys.slots = s.keys.slots
      ∧ t.stg.active = s.stg.active ∧ t.stg.bankA = s.stg.bankA ∧ t.stg.bankB = s.stg.bankB ∧ t.glb.scratch = s.glb.scratch
      ∧ halted t 0 = false ∧ (∀ i ∈ t.writer, i ∈ s.writer ∧ i.fn ≠ 0)
      ∧ (∀ c r, s.ush.rings.get? c = some r → r.owner = 0 → ∃ q, t.ush.rings.get? c = some q ∧ q.sqNext = 0 ∧ q.cqNext = 0
        ∧ q.expPhase = true ∧ q.cqPhase = true ∧ q.interval = 0 ∧ q.sqBase = r.sqBase ∧ q.ringId = r.ringId) :=
  ⟨h.vfEnable, h.vfs, h.evtEnable, h.pairs, h.ready, h.mkPresent, h.slots, h.active, h.bankA, h.bankB, h.scratch, h.halt, h.writer,
    h.rings⟩

/-- The link's security is no part of a reset of the PF alone. -/
theorem resetPf_link (s : State) : (resetPf s).pcie.spdmSession = s.pcie.spdmSession ∧ (resetPf s).pcie.ide = s.pcie.ide := by
  have hvfs := (resetVfs_keepsPf (resetOwn s)).only.pcie
  have hown := (drainFunction_ends 0 s).pcie
  rw [resetPf_eq]
  exact ⟨Eq.trans (congrArg Pcie.spdmSession hvfs :) (congrArg Pcie.spdmSession hown :),
    Eq.trans (congrArg Pcie.ide hvfs :) (congrArg Pcie.ide hown :)⟩

/-- The effect of PERST_N_ASSERT. -/
def assertPerst (s : State) : State :=
  if !s.pcie.perstHigh then s
  else
    let s := resetCompute (cutEpoch s)
    { s with pcie := { s.pcie with perstHigh := false } }

theorem assertPerst_of_high {s : State} (h : s.pcie.perstHigh = true) :
    assertPerst s = (let u := resetCompute (cutEpoch s)
                     { u with pcie := { u.pcie with perstHigh := false } }) := by
  simp only [assertPerst, h, Bool.not_true, Bool.false_eq_true, if_false]

/-- Settles O31: what `resetPf` and `resetCompute` leave. -/
theorem resetsOfThePf : Obligations.ResetsOfThePf := by
  unfold Obligations.ResetsOfThePf
  intro s
  refine ⟨?flr, ?hot, fun hhigh => ?perst, fun hlow => ?low⟩
  case flr =>
    obtain ⟨t, ht, hv⟩ := views_of_run (i := .pfFlr) (f := resetPf) (s := s) rfl rfl
    have hpcie := views_pcie hv
    obtain ⟨hspdm, hide⟩ := resetPf_link s
    exact ⟨t, ht, ((resetPf_leaves s).views hv).facts, (congrArg Pcie.spdmSession hpcie).trans hspdm,
      (congrArg Pcie.ide hpcie).trans hide⟩
  case hot =>
    obtain ⟨t, ht, hv⟩ := views_of_run (i := .hotReset) (f := resetHot) (s := s) rfl rfl
    have hpcie := views_pcie hv
    refine ⟨t, ht, ((resetHot_leaves s).views hv).facts, (congrArg Pcie.spdmSession hpcie :), fun i hi => ?_⟩
    rw [(congrArg Pcie.ide hpcie :)] at hi
    obtain ⟨j, -, rfl⟩ := List.mem_map.1 hi
    rfl
  case perst =>
    obtain ⟨hrun, b, n, hcut⟩ := cutEpoch_frame s
    have hlost := resetCompute_leaves (cutEpoch s)
    have hbanks : (cutEpoch s).stg = s.stg := by rw [hcut]
    obtain ⟨t, ht, hv⟩ := views_of_run (i := .perstNAssert) (f := assertPerst) (s := s) rfl (assertPerst_of_high hhigh)
    generalize cutEpoch s = c at hrun hlost hbanks hv
    generalize resetCompute c = u at hlost hv
    have hpcie := views_pcie hv
    have hglb := views_glb hv
    have hkeys : t.keys = u.keys := (views_keys hv :)
    have hstg : t.stg = u.stg := (views_stg hv :)
    have hbox : t.box = u.box := (views_box hv :)
    exact ⟨t, ht, (congrArg Pcie.perstHigh hpcie :), Eq.trans (congrArg Pcie.ready hpcie :) hlost.ready,
      Eq.trans (congrArg Pcie.cfgRetry hpcie :) hlost.cfgRetry, Eq.trans (congrArg Pcie.vfs hpcie :) hlost.vfs,
      Eq.trans (views_seats hv :) hlost.seats, Eq.trans (views_writer hv :) hlost.writer,
      Eq.trans (congrArg Glb.scratch hglb :) hlost.scratch, Eq.trans (congrArg Glb.pairs hglb :) hlost.pairs,
      hkeys ▸ hlost.pins, (congrArg Box.running hbox).trans (hlost.running.trans hrun),
      (congrArg Stg.bankA hstg).trans (hlost.bankA.trans (congrArg Stg.bankA hbanks)),
      (congrArg Stg.bankB hstg).trans (hlost.bankB.trans (congrArg Stg.bankB hbanks))⟩
  case low => exact leadsTo_of_run (f := assertPerst) rfl (if_pos (by simp [hlow])) rfl rfl

end Sys2Proof.Machine

/-! PROOF. The way to READY (R35, R54, R119, R522), and the ports: SMBus and DOE (R57 to R65). -/

namespace Sys2Proof.Machine

open Sys2Proof.Claims

/-! ### Draws from a DRBG, and a new master key -/

/-- A draw is one generate request of a DRBG that serves. -/
theorem drawBytes_some {n : Nat} {s t : State} {v : Bytes} (h : drawBytes n s = some (v, t)) :
    ∃ i, servingInst s = some i ∧ v = drawn s i n ∧ t = generate i n false s := by
  unfold drawBytes at h
  split at h
  · cases h
  · next i hi =>
    obtain ⟨rfl, rfl⟩ := Prod.mk.inj (Option.some.inj h)
    exact ⟨i, hi, rfl, rfl⟩

theorem emptyPartition_forgets (f : Nat) (s : State) : ForgetsTwin s (emptyPartition f s) := by
  have hslots (seq : Nat) (l : List (Nat × Slot)) (u : State) : ForgetsTwin u (l.foldl (fun t x => endKey x.1 seq t) u) :=
    forgetsTwin_foldl _ (fun t x => endKey_forgets x.1 seq t) l u
  exact forgetsTwin_trans (forgetsTwin_of_journal (writeRecord_only ..)) (hslots _ _ _)

theorem emptyTable_forgets (s : State) : ForgetsTwin s (emptyTable s) :=
  forgetsTwin_foldl _ (fun t f => emptyPartition_forgets f t) _ s

/-- What a new master key leaves as it was, and what it is. -/
structure NewMaster (s t : State) : Prop where
  scr : t.scr = s.scr
  box : t.box = s.box
  tmp : t.tmp = s.tmp
  pcie : { t.pcie with msixPending := [] } = { s.pcie with msixPending := [] }
  mkPresent : t.keys.mkPresent = true
  mkGen : t.keys.mkGen = s.keys.mkGen + 1

theorem newMaster_of_forgets {s t : State} (h : ForgetsTwin s t) (mk : Bytes) :
    NewMaster s { t with keys := { t.keys with mkPresent := true, master := mk, mkGen := t.keys.mkGen + 1, sealPresent := false } } := by
  refine ⟨?_, ?_, ?_, ?_, rfl, ?_⟩
  all_goals dsimp only; rw [h.only]

theorem newMasterKey_some {s t : State} (h : newMasterKey s = some t) : NewMaster s t := by
  unfold newMasterKey at h
  split at h
  · cases h
  · next mk u hdraw =>
    obtain ⟨i, -, -, rfl⟩ := drawBytes_some hdraw
    have hnew := newMaster_of_forgets (emptyTable_forgets (generate i 32 false s)) mk
    dsimp only at h
    split at h
    · obtain rfl := Option.some.inj h
      exact ⟨hnew.scr, hnew.box, hnew.tmp, hnew.pcie, rfl, hnew.mkGen⟩
    · next v w hdraw' =>
      obtain ⟨j, -, -, rfl⟩ := drawBytes_some hdraw'
      obtain rfl := Option.some.inj h
      exact ⟨hnew.scr, hnew.box, hnew.tmp, hnew.pcie, rfl, hnew.mkGen⟩

theorem newMasterKey_isSome {s : State} (h : (drawBytes 32 s).isSome = true) : ∃ t, newMasterKey s = some t := by
  obtain ⟨⟨mk, u⟩, hdraw⟩ := Option.isSome_iff_exists.1 h
  simp only [newMasterKey, hdraw]
  split
  · exact ⟨_, rfl⟩
  · exact ⟨_, rfl⟩

/-! ### READY -/

theorem raiseCurtain_scr (s : State) : (raiseCurtain s).scr = s.scr := by
  unfold raiseCurtain
  split
  · rfl
  · next t ht => exact (event_scr ..).trans (newMasterKey_some ht).scr

theorem readyKeys_scr (s : State) : (readyKeys s).scr = s.scr := by
  unfold readyKeys
  split
  · split
    · split
      · rfl
      · split
        · exact raiseCurtain_scr s
        · rfl
    · split
      · rfl
      · split
        · next t ht => exact (newMasterKey_some ht).scr
        · rfl
  · rfl

theorem deriveSealKey_scr (s : State) : (deriveSealKey s).scr = s.scr := by
  unfold deriveSealKey
  split
  · rfl
  · split
    · rfl
    · next v t hdraw =>
      obtain ⟨i, -, -, rfl⟩ := drawBytes_some hdraw
      rfl

/-- A request changes no more than the session and the IDE streams. -/
theorem doeEffect_link (o : DoeObject) (s : State) :
    doeEffect o s = (let b := (doeEffect o s).pcie.spdmSession
                     let l := (doeEffect o s).pcie.ide
                     { s with pcie := { s.pcie with spdmSession := b, ide := l } }) := by
  have hif {c : Prop} [Decidable c] {u : State} {f : Bool → List Ide → State}
      (h : u = f u.pcie.spdmSession u.pcie.ide) (hs : s = f s.pcie.spdmSession s.pcie.ide) :
      (if c then u else s) = f (if c then u else s).pcie.spdmSession (if c then u else s).pcie.ide := by
    split
    · exact h
    · exact hs
  cases o with
  | discovery => rfl
  | getMeasurements => rfl
  | spdm => rfl
  | keyExchange i => exact hif (f := fun b l => { s with pcie := { s.pcie with spdmSession := b, ide := l } }) rfl rfl
  | endSession => rfl
  | ideQuery => rfl
  | ideKeyProg i k => exact hif (f := fun b l => { s with pcie := { s.pcie with spdmSession := b, ide := l } }) rfl rfl
  | ideSetGo i => exact hif (f := fun b l => { s with pcie := { s.pcie with spdmSession := b, ide := l } }) rfl rfl
  | ideSetStop i => exact hif (f := fun b l => { s with pcie := { s.pcie with spdmSession := b, ide := l } }) rfl rfl

/-- A request that is served touches the views, the free counter, the session and the IDE streams. -/
theorem serveDoe_views (o : DoeObject) (s : State) :
    ∃ b l, OnlyViews { s with free := s.free + 1, pcie := { s.pcie with spdmSession := b, ide := l } } (serveDoe o s)
      ∧ b = (doeEffect o s).pcie.spdmSession ∧ l = (doeEffect o s).pcie.ide := by
  refine ⟨_, _, onlyViews_trans (t := spend (emit (.doe (doeAnswer s o)) (doeEffect o s))) ?_ (raise_views ..), rfl, rfl⟩
  conv_rhs => rw [doeEffect_link o s]
  rfl

/-- What serving requests keeps of a device that is ready. -/
theorem foldl_serveDoe_frame (l : List DoeObject) (s : State) :
    (l.foldl (fun u o => serveDoe o u) s).pcie.ready = s.pcie.ready ∧ (l.foldl (fun u o => serveDoe o u) s).box = s.box
      ∧ (l.foldl (fun u o => serveDoe o u) s).scr = s.scr := by
  induction l generalizing s with
  | nil => exact ⟨rfl, rfl, rfl⟩
  | cons o l ih =>
    obtain ⟨b, i, hv, -, -⟩ := serveDoe_views o s
    obtain ⟨h1, h2, h3⟩ := ih (serveDoe o s)
    exact ⟨h1.trans (congrArg Pcie.ready (views_pcie hv) :), h2.trans (views_box hv :), h3.trans (views_scr hv :)⟩

theorem loadImages_scr {s : State} {p : Plan} (h : activePlan s = some p) :
    (loadImages s).scr.maker = some p.maker ∧ (loadImages s).scr.customer = p.customer := by
  simp only [loadImages, h, and_self]

theorem becomeReady_leaves {ptm : Nat} {s : State} (hup : (s.pcie.perstHigh && !s.pcie.cfgRetry && s.pwr.up && s.pwr.mains && vaultValid s
      && !s.pcie.ready) = true) :
    (becomeReady ptm s).pcie.ready = true ∧ (becomeReady ptm s).box.running = true ∧ (becomeReady ptm s).scr = (loadImages s).scr := by
  unfold becomeReady
  rw [if_pos hup]
  exact ⟨rfl, rfl, (deriveSealKey_scr _).trans (readyKeys_scr _)⟩

/-! ### Training -/

/-- Of the device's widths, widest first, the first that the partner's lanes allow is the widest of them. -/
theorem find?_linkWidths {n w : Nat} (h : (linkWidths.find? fun w => w ≤ n) = some w) :
    w ∈ [1, 4, 8, 16] ∧ w ≤ n ∧ ∀ v ∈ [1, 4, 8, 16], v ≤ n → v ≤ w := by
  have hle : w ≤ n := by simpa using List.find?_some h
  simp only [linkWidths, List.find?_cons, List.find?_nil] at h
  by_cases h16 : 16 ≤ n
  · simp only [h16, decide_true, Option.some.injEq] at h
    subst h
    simp [h16]
  · by_cases h8 : 8 ≤ n
    · simp only [h16, h8, decide_true, decide_false, Option.some.injEq] at h
      subst h
      simp [h16, h8]
    · by_cases h4 : 4 ≤ n
      · simp only [h16, h8, h4, decide_true, decide_false, Option.some.injEq] at h
        subst h
        simp [h16, h8, h4]
      · by_cases h1 : 1 ≤ n
        · simp only [h16, h8, h4, h1, decide_true, decide_false, Option.some.injEq] at h
          subst h
          simp [h16, h8, h4, h1]
        · simp [h16, h8, h4, h1] at h

theorem trainLink_widest {s : State} {p : LinkPartner} {l : Link} (hspeed : p.speed ≠ 0) (hlc : lc s ≠ .scrapped)
    (h : trainLink s p = some l) :
    l.speed = min p.speed 5 ∧ l.lanes ∈ [1, 4, 8, 16] ∧ l.lanes ≤ p.lanes ∧ ∀ w ∈ [1, 4, 8, 16], w ≤ p.lanes → w ≤ l.lanes := by
  rw [trainLink, if_neg hspeed, if_neg hlc] at h
  obtain ⟨w, hw, rfl⟩ := Option.map_eq_some_iff.1 h
  exact ⟨rfl, find?_linkWidths hw⟩

/-- The effect of READY: the device is ready, and the requests that waited are served. -/
def readyServes (ptm : Nat) (s : State) : State :=
  let t := becomeReady ptm s
  if t.pcie.ready && !s.pcie.ready then s.pcie.doeWaiting.foldl (fun u o => serveDoe o u) t else t

/-- The effect of DRS_MESSAGE. -/
def sendDrs (s : State) : State :=
  if s.pcie.perstHigh && s.pcie.link.isSome && s.pwr.mains && !s.pcie.drsSent then
    emit .drs { s with pcie := { s.pcie with cfgRetry := false, drsSent := true } }
  else s

/-- Settles O32: the release and the message by their guards, training by the widths, READY by what its steps keep. -/
theorem wayToReady : Obligations.WayToReady := by
  unfold Obligations.WayToReady
  refine fun s => ⟨fun hlow => ⟨fun hv => ?valid, fun hv => ?invalid⟩, fun hhigh => ?again,
    fun p hspeed => ⟨fun hlc => ⟨fun l hl => trainLink_widest hspeed hlc hl, fun hl => ?two⟩, fun hlc hl => ?scrapped⟩,
    fun hhigh hlink hmains hdrs => ?drs, fun hhigh hcfg hup hmains hv hready ptm => ?ready⟩
  case valid =>
    refine leadsTo_of_run (f := releasePerst) rfl ?_ rfl rfl
    simp only [releasePerst, hlow, Bool.false_eq_true, if_false]
    exact if_pos hv
  case invalid =>
    refine leadsTo_of_run (f := releasePerst) rfl ?_ rfl rfl
    simp only [releasePerst, hlow, Bool.false_eq_true, if_false]
    exact if_neg (ne_true_of_eq_false hv)
  case again => exact leadsTo_of_run (f := releasePerst) rfl (if_pos hhigh) rfl rfl
  case two =>
    rw [trainLink, if_neg hspeed, if_neg hlc, hl]
    rfl
  case scrapped => rw [trainLink, if_neg hspeed, if_pos hlc, if_neg hl]
  case drs =>
    refine leadsTo_of_views (f := sendDrs) rfl ?_ rfl rfl
    rw [sendDrs, if_pos (by simp [hhigh, Option.isSome_iff_ne_none.2 hlink, hmains, hdrs])]
    rfl
  case ready =>
    obtain ⟨h1, h2, h3⟩ := becomeReady_leaves (ptm := ptm) (s := s) (by simp [hhigh, hcfg, hup, hmains, hv, hready])
    have hu : readyServes ptm s = s.pcie.doeWaiting.foldl (fun u o => serveDoe o u) (becomeReady ptm s) :=
      if_pos (by simp [h1, hready])
    obtain ⟨t, ht, hv⟩ := views_of_run (i := .ready ptm) (f := readyServes ptm) rfl hu
    obtain ⟨g1, g2, g3⟩ := foldl_serveDoe_frame s.pcie.doeWaiting (becomeReady ptm s)
    have hscr : t.scr = (loadImages s).scr := Eq.trans (views_scr hv :) (g3.trans h3)
    refine ⟨t, ht, Eq.trans (congrArg Pcie.ready (views_pcie hv) :) (g1.trans h1),
      Eq.trans (congrArg Box.running (views_box hv) :) ((congrArg Box.running g2).trans h2), fun p hp => ?_⟩
    rw [hscr]
    exact loadImages_scr hp

end Sys2Proof.Machine

/-! PROOF. The SMBus port and DOE requests (R55 to R65). -/

namespace Sys2Proof.Machine

open Sys2Proof.Claims

/-! ### The SMBus port -/

theorem freeBytes_length (k n : Nat) : (Config.freeBytes k n).length = n := by simp [Config.freeBytes]

theorem telemetry_length (s : State) : (telemetry s).length = 28 := by
  unfold telemetry
  dsimp only
  split <;> simp [leBytes_length, freeBytes_length, zeros]

/-- A transfer at the device's address is answered with its data, and costs one free value. -/
theorem answers_of_run {i : Instr} {f : State → State} {s : State} {c : SmbusCall} {d : Option Bytes} (h : exec i s = run f s)
    (hf : f s = smbAnswer c d s) (hup : s.smb.up = true) (hc : c.address = 0x58 + s.smb.strap) :
    ∃ t rest, exec i s = .next t ∧ t.host = s.host ++ .smbus d :: rest ∧ OnlyViews { s with free := s.free + 1 } t := by
  have hu : f s = spend (emit (.smbus d) s) := hf.trans (if_pos (by simp [hup, hc, smbAddress]))
  obtain ⟨t, ht, hfol⟩ := follows_of_run h hu
  obtain ⟨r, hr⟩ := hfol.host
  refine ⟨t, r, ht, ?_, onlyViews_trans ?_ hfol.only⟩
  · rw [hr]
    show (s.host ++ [Emit.smbus d]) ++ r = _
    rw [List.append_assoc]
    rfl
  · rfl

/-- A transfer at another address is not answered. -/
theorem smbAnswer_other {c : SmbusCall} {s : State} (d : Option Bytes) (hc : c.address ≠ 0x58 + s.smb.strap) : smbAnswer c d s = s :=
  if_neg (by simp [smbAddress, hc])

/-! ### Alerts (R64, R65) -/

/-- The alerts that the end of a command adds: conditions that hold, a curtain that dropped, and READY lost. -/
def alertCauses (b s : State) : Nat :=
  fld (bnat s.smb.hotCompute) 0 + fld (bnat s.smb.hotVault) 1 + fld (bnat (!b.tmp.curtainDown && s.tmp.curtainDown)) 2
    + fld (bnat (b.pcie.ready && !s.pcie.ready)) 3 + fld (bnat (monAt s 42).asserted) 4

theorem settleSmb_alerts (b s : State) :
    (settleSmb b s).smb.alerts = if lc s = .scrapped then s.smb.alerts else s.smb.alerts ||| BitVec.ofNat 32 (alertCauses b s) := by
  cases h : s.tmp.mons[42]? with
  | none =>
    simp only [settleSmb, alertCauses, monAt, h, Option.getD_none]
    split <;> rfl
  | some m =>
    simp only [settleSmb, alertCauses, monAt, h, Option.getD_some]
    split <;> rfl

theorem raiseIf_logs (c : Bool) (src : Nat) (s : State) : OnlyLogs s (raiseIf c src s) := by
  unfold raiseIf
  split
  · exact raise_logs ..
  · exact onlyLogs_refl s

theorem settleVf_logs (b : State) (f : Nat) (s : State) : OnlyLogs s (settleVf b f s) := by
  unfold settleVf
  split
  · dsimp only
    refine onlyLogs_trans ?_ (raiseIf_logs ..)
    split
    · exact onlyLogs_refl s
    · exact signal_logs ..
  · exact onlyLogs_refl s

theorem onlyLogs_foldl {α : Type} (f : State → α → State) (h : ∀ s a, OnlyLogs s (f s a)) (l : List α) (s : State) :
    OnlyLogs s (l.foldl f s) := by
  induction l generalizing s with
  | nil => exact onlyLogs_refl s
  | cons a l ih => exact onlyLogs_trans (h s a) (ih _)

/-- The end of a command sets the alerts once every other view has settled. -/
theorem settle_eq_settleSmb (b s : State) : ∃ u, OnlyLogs s u ∧ settle b s = settleSmb b u := by
  refine ⟨_, ?_, rfl⟩
  refine onlyLogs_trans ?_ (onlyLogs_foldl _ (fun t i => settleVf_logs b (i + 1) t) _ _)
  iterate 12 refine onlyLogs_trans ?_ (raiseIf_logs _ _ _)
  rfl

theorem alertCauses_of_logs {b s u : State} (h : OnlyLogs s u) : alertCauses b u = alertCauses b s := by
  unfold alertCauses monAt
  rw [h]

/-- The alerts after a command. -/
theorem settle_alerts (b s : State) :
    (settle b s).smb.alerts = if lc s = .scrapped then s.smb.alerts else s.smb.alerts ||| BitVec.ofNat 32 (alertCauses b s) := by
  obtain ⟨u, hu, heq⟩ := settle_eq_settleSmb b s
  have hsmb : u.smb = s.smb := by rw [hu]
  have hlc : lc u = lc s := by unfold lc; rw [hu]
  rw [heq, settleSmb_alerts, hsmb, hlc, alertCauses_of_logs hu]

/-- Where nothing holds, and neither the curtain nor READY changed, no alert is added. -/
theorem alertCauses_cool {b u : State} (hcompute : u.smb.hotCompute = false) (hvault : u.smb.hotVault = false)
    (hmon : (monAt u 42).asserted = false) (htmp : u.tmp = b.tmp) (hpcie : u.pcie = b.pcie) : alertCauses b u = 0 := by
  unfold alertCauses
  rw [hcompute, hvault, hmon, htmp, hpcie]
  simp [fld, bnat]

/-- The alerts after a command whose meaning is `run f`. -/
theorem alerts_of_run {i : Instr} {f : State → State} {s t u : State} (h : exec i s = run f s) (hu : f s = u) (ht : exec i s = .next t) :
    t.smb.alerts = if lc u = .scrapped then u.smb.alerts else u.smb.alerts ||| BitVec.ofNat 32 (alertCauses s u) := by
  have he : t = { settle s u with pending := s.pending, otp := s.otp } := by
    have := ht.symm.trans h
    simpa [run, hu] using this
  rw [he, ← settle_alerts]

theorem alertCauses_hot {b s : State} (v : Bool) (h : (if v then s.smb.hotVault else s.smb.hotCompute) = true) :
    (BitVec.ofNat 32 (alertCauses b s)).getLsbD (if v then 1 else 0) = true := by
  unfold alertCauses
  generalize (!b.tmp.curtainDown && s.tmp.curtainDown) = x
  generalize (b.pcie.ready && !s.pcie.ready) = y
  have h1 := bnat_le_one s.smb.hotCompute
  have h2 := bnat_le_one s.smb.hotVault
  rw [BitVec.getLsbD_ofNat, Bool.and_eq_true_iff]
  cases v with
  | false =>
    simp only [Bool.false_eq_true, if_false] at h
    rw [h] at h1 ⊢
    refine ⟨rfl, Nat.testBit_eq_decide_div_mod_eq.trans (decide_eq_true ?_)⟩
    simp only [fld, bnat, if_true, Bool.false_eq_true, if_false] at h2 ⊢
    omega
  | true =>
    simp only [if_true] at h
    rw [h] at h2 ⊢
    refine ⟨rfl, Nat.testBit_eq_decide_div_mod_eq.trans (decide_eq_true ?_)⟩
    simp only [fld, bnat, if_true] at h1 ⊢
    omega

/-! ### DOE -/

theorem serveDoe_sends (o : DoeObject) (s : State) : Emit.doe (doeAnswer s o) ∈ (serveDoe o s).host := by
  refine follows_sends (raise_follows ..) ?_
  exact List.mem_append_right _ (List.mem_singleton_self _)

/-! ### The obligation -/

/-- The effect of TEMPERATURE_ALERT. -/
def heat (vault : Bool) (s : State) : State :=
  let smb := if vault then { s.smb with hotVault := true } else { s.smb with hotCompute := true }
  { s with smb := smb }

/-- The answer to the alert response address. -/
def alertAnswer (s : State) : Emit := .smbus (some [byte (0x58 + s.smb.strap), pec [byte 0x19, byte (0x58 + s.smb.strap)]])

/-- The answer is sent, the alerts are cleared, and a hot condition may only end. -/
theorem alertResponse_leaves {s : State} (hup : s.smb.up = true) :
    ∃ u, alertResponse s = u ∧ alertAnswer s ∈ u.host ∧ u.smb.alerts = 0 ∧ (s.smb.hotCompute = false → u.smb.hotCompute = false)
      ∧ (s.smb.hotVault = false → u.smb.hotVault = false) ∧ u.tmp = s.tmp ∧ u.pcie = s.pcie := by
  refine ⟨_, rfl, ?_⟩
  simp only [alertResponse, hup, Bool.not_true, Bool.false_eq_true, if_false]
  refine ⟨List.mem_append_right _ (List.mem_singleton_self _), rfl, fun h => ?_, fun h => ?_, rfl, rfl⟩
  · show (s.smb.hotCompute && _) = false
    rw [h, Bool.false_and]
  · show (s.smb.hotVault && _) = false
    rw [h, Bool.false_and]

/-- Settles O33: each transfer as an answer or none, the alerts by what the end of a command adds, each DOE request by its
effect. -/
theorem portsAnswer : Obligations.PortsAnswer := by
  unfold Obligations.PortsAnswer
  refine ⟨fun s hup => ⟨telemetry_length s, ?block, fun c d => ?write, fun c hc => ?byte, fun c hc => ?word,
    fun b c d hb i hi => ?other, ?alert, fun hlc v => ?heat⟩, fun s o hcfg hlc => ⟨fun hready => ?waits, fun hready => ?served⟩⟩
  case block => exact answers_of_run (f := smbBlock ⟨_, 0x80⟩) rfl rfl hup rfl
  case write => exact answers_of_run (f := smbAnswer ⟨_, c⟩ none) rfl rfl hup rfl
  case byte => exact answers_of_run (f := smbRead ⟨_, c⟩ 1) (c := ⟨_, c⟩) rfl (by simp only [smbRead]; rw [if_pos (by omega)]; rfl) hup rfl
  case word => exact answers_of_run (f := smbRead ⟨_, c⟩ 2) (c := ⟨_, c⟩) rfl (by simp only [smbRead]; rw [if_pos (by omega)]; rfl) hup rfl
  case other =>
    have hnone (i : Instr) (f : State → State) (call : SmbusCall) (data : Option Bytes) (h : exec i s = run f s)
        (hf : f s = smbAnswer call data s) (hcall : call.address = b) : LeadsTo i s s :=
      leadsTo_of_run h (hf.trans (smbAnswer_other data (hcall ▸ hb))) rfl rfl
    simp only [List.mem_cons, List.not_mem_nil, or_false] at hi
    rcases hi with rfl | rfl | rfl | rfl
    · exact hnone _ (smbBlock ⟨b, c⟩) ⟨b, c⟩ _ rfl rfl rfl
    · exact hnone _ (smbAnswer ⟨b, c⟩ none) ⟨b, c⟩ _ rfl rfl rfl
    · exact hnone _ (smbRead ⟨b, c⟩ 1) ⟨b, c⟩ _ rfl rfl rfl
    · exact hnone _ (smbRead ⟨b, c⟩ 2) ⟨b, c⟩ _ rfl rfl rfl
  case alert =>
    obtain ⟨u, hu, hsent, halerts, hcompute, hvault, htmp, hpcie⟩ := alertResponse_leaves hup
    obtain ⟨t, ht, hf⟩ := follows_of_run (i := .alertResponseAddressRead) (f := alertResponse) rfl hu
    refine ⟨t, ht, follows_sends hf hsent, fun h1 h2 hmon => ?_⟩
    have hmon' : (monAt u 42).asserted = false := by rw [monAt_of_tmp 42 htmp]; exact hmon
    rw [alerts_of_run (i := .alertResponseAddressRead) (f := alertResponse) rfl hu ht, halerts,
      alertCauses_cool (hcompute h1) (hvault h2) hmon' htmp hpcie]
    split <;> rfl
  case heat =>
    obtain ⟨t, ht, -⟩ := views_of_run (i := .temperatureAlert v) (f := heat v) (s := s) rfl rfl
    refine ⟨t, ht, ?_⟩
    have hlc' : lc (heat v s) ≠ .scrapped := hlc
    rw [alerts_of_run (i := .temperatureAlert v) (f := heat v) rfl rfl ht, if_neg hlc', BitVec.getLsbD_or]
    rw [alertCauses_hot v (by cases v <;> rfl), Bool.or_true]
  case waits =>
    refine leadsTo_of_run (f := configReach (doeArrives o)) rfl ?_ rfl rfl
    simp only [configReach_of_answered hcfg, doeArrives, if_neg hlc, hready, Bool.not_false, if_true]
  case served =>
    have hu : configReach (doeArrives o) s = serveDoe o s := by
      simp only [configReach_of_answered hcfg, doeArrives, if_neg hlc, hready, Bool.not_true, Bool.false_eq_true, if_false]
    obtain ⟨t, ht, hf⟩ := follows_of_run (i := .doeRequest o) (f := configReach (doeArrives o)) rfl hu
    obtain ⟨b, l, hv, hb, hl⟩ := serveDoe_views o s
    have hp1 : t.pcie = { (serveDoe o s).pcie with msixPending := t.pcie.msixPending } := (views_pcie hf.only :)
    have hp2 := views_pcie hv
    have hspdm : t.pcie.spdmSession = b := Eq.trans (congrArg Pcie.spdmSession hp1 :) (congrArg Pcie.spdmSession hp2 :)
    have hide : t.pcie.ide = l := Eq.trans (congrArg Pcie.ide hp1 :) (congrArg Pcie.ide hp2 :)
    refine ⟨t, _, ht, follows_sends hf (serveDoe_sends o s), fun n key ho => ?_, fun ho => ?_, fun ho => ?_⟩
    · subst ho
      rw [hide, hl]
      simp only [doeEffect, updIde]
      split <;> rfl
    · subst ho
      rw [hspdm, hb]
      rfl
    · subst ho
      rw [hspdm, hb]
      rfl

end Sys2Proof.Machine

/-! PROOF. The box office: its register, epochs and meter pages (R117 to R124). -/

namespace Sys2Proof.Machine

open Sys2Proof.Claims

/-! ### BOX_CFG -/

theorem storedCount_eq (v : Nat) : storedCount (bits v 6 0) = max 1 (min 64 (v % 128)) := by
  have hbits : bits v 6 0 = v % 128 := by simp [bits]
  rw [hbits, storedCount]
  split
  · next h => rw [h]; rfl
  · next h => rw [Nat.max_eq_right (by omega)]

theorem storedPeriod_eq (v : Nat) : storedPeriod (bits v 43 32) = max 1 (min 3600 (v / 2 ^ 32 % 4096)) := by
  have hbits : bits v 43 32 = v / 2 ^ 32 % 4096 := rfl
  rw [hbits]
  generalize v / 2 ^ 32 % 4096 = p
  rw [storedPeriod]
  split
  · next h => rw [h]; rfl
  · next h => rw [Nat.max_eq_right (by omega)]

/-! ### Epochs -/

theorem nextEpoch_gt (s : State) (t period prev : Nat) : prev < nextEpoch s t period prev := by
  unfold nextEpoch
  split
  · exact Nat.lt_succ_self prev
  · exact Nat.lt_of_lt_of_le (Nat.lt_succ_self prev) (Nat.le_max_right ..)

/-- A checkpoint message touches the twin link, the messages and the counters. -/
theorem sendCheckpoint_only (m : CheckpointMessage) (s : State) :
    ∃ w h c, sendCheckpoint m s = { s with twn := w, host := h, glb := { s.glb with counters := c } } := by
  have hpump (u : State) : ∃ w h c, pumpCheckpoint u = { u with twn := w, host := h, glb := { u.glb with counters := c } } := by
    have hfold (l : List CheckpointMessage) (v : State) :
        ∃ h, l.foldl (fun t m => emit (.twinCheckpoint m) t) v = { v with host := h } := by
      induction l generalizing v with
      | nil => exact ⟨v.host, rfl⟩
      | cons a l ih =>
        obtain ⟨h, hh⟩ := ih (emit (.twinCheckpoint a) v)
        exact ⟨h, hh⟩
    unfold pumpCheckpoint
    split
    · exact ⟨_, _, _, rfl⟩
    · dsimp only
      obtain ⟨h, hh⟩ := hfold (u.twn.checkpointQueue.take (256 - u.twn.checkpoint.unacked)) u
      rw [hh]
      exact ⟨_, _, _, rfl⟩
  unfold sendCheckpoint
  split
  · obtain ⟨w, h, c, hh⟩ := hpump { s with twn := { s.twn with checkpointQueue := s.twn.checkpointQueue ++ [m] } }
    exact ⟨w, h, c, hh⟩
  · exact ⟨_, _, _, rfl⟩

/-- A boundary falls where the epoch runs and PTM time divides, or PTM is lost. -/
theorem boundary_falls {s : State} {time : Nat} (hrun : s.box.running = true)
    (htime : s.pcie.ptmLost = true ∨ time % (s.box.inForce * 1000000000) = 0) :
    ¬ (!s.box.running || (!s.pcie.ptmLost && time % periodNs s.box.inForce != 0)) = true := by
  rcases htime with h | h
  · simp [hrun, h]
  · simp [hrun, periodNs, h]

/-- A boundary freezes the counters, and the next epoch starts. -/
theorem epochBoundary_starts {s : State} {time : Nat} (hrun : s.box.running = true)
    (htime : s.pcie.ptmLost = true ∨ time % (s.box.inForce * 1000000000) = 0) (hfrozen : s.box.frozen = []) :
    ∃ m, epochBoundary time s = startEpoch time (sendCheckpoint m (freezeBank time false s)) := by
  have hne : ¬ (s.box.frozen != []) = true := by simp [hfrozen]
  exact ⟨_, by rw [epochBoundary, if_neg (boundary_falls hrun htime), if_neg hne]⟩

theorem startEpoch_box (time : Nat) (m : CheckpointMessage) (s : State) :
    ∃ n a, s.box.stored < n ∧ (startEpoch time (sendCheckpoint m (freezeBank time false s))).box
      = { s.box with frozen := s.box.frozen ++ [frozenPage s time false], counters := [], ue := [], extended := false,
                     epoch := n, stored := n, start := a, inForce := s.box.period, running := true, ptmLost := s.pcie.ptmLost } := by
  obtain ⟨w, h, c, heq⟩ := sendCheckpoint_only m (freezeBank time false s)
  rw [heq]
  exact ⟨_, _, nextEpoch_gt .., rfl⟩

/-! ### Meter pages -/

theorem writePage_waits {s : State} (h : s.pcie.ready = false ∨ s.box.enable = false ∨ canMaster s 0 = false) : writePage s = s := by
  unfold writePage
  split
  · rfl
  · exact if_neg (by rcases h with h | h | h <;> simp [h])

/-! ### The obligation -/

/-- Settles O34: the register by its fields, a boundary by its three outcomes, a page by its guard. -/
theorem boxOffice : Obligations.BoxOffice := by
  unfold Obligations.BoxOffice
  refine ⟨fun s v htakes => ?cfg, fun s time hrun htime => ⟨fun hfrozen => ?freeze, fun hfrozen hext => ?extend⟩,
    fun s p rest hfrozen => ⟨fun hready hen hmaster hlost => ?page, fun h => ?waits⟩⟩
  case cfg =>
    refine leadsTo_of_run (f := pfWrite 0x180008 (writeBoxCfg v.toNat)) rfl ?_ rfl rfl
    rw [pfWrite_of_takes htakes, writeBoxCfg, storedCount_eq, storedPeriod_eq]
    rfl
  case freeze =>
    obtain ⟨m, hu⟩ := epochBoundary_starts hrun htime hfrozen
    obtain ⟨n, a, hn, hbox⟩ := startEpoch_box time m s
    obtain ⟨t, ht, hv⟩ := views_of_run (i := .epochBoundary time) (f := epochBoundary time) rfl hu
    have hb : t.box = _ := Eq.trans (views_box hv :) hbox
    rw [hfrozen] at hb
    refine ⟨t, frozenPage s time false, ht, ?_⟩
    rw [hb]
    exact ⟨rfl, rfl, rfl, rfl, rfl, rfl, hn, rfl⟩
  case extend =>
    have hu : epochBoundary time s = trouble 16 (event 0x0301 1 deviceWide (leBytes 4 s.box.epoch)
        { s with box := { s.box with extended := true } }) := by
      rw [epochBoundary, if_neg (boundary_falls hrun htime), if_pos (by simpa using hfrozen), if_neg (by simp [hext])]
    obtain ⟨t, ht, hn⟩ := notes_of_run (i := .epochBoundary time) (f := epochBoundary time) rfl hu
      (onlyNotes_of_logs (onlyLogs_trans (event_logs ..) (trouble_logs ..))) rfl rfl
    exact ⟨t, ht, hn.box⟩
  case page =>
    have hu : writePage s = raise 3 { emit (.meterPage (s.box.pageBase + pageBufferLen * (p.epoch % s.box.count))
        { p with lostFrom := 0 }) s with box := { s.box with frozen := rest, lastPage := p.epoch, lostFrom := none } } := by
      have hflags : p.flags + fld (bnat (none : Option Nat).isSome) 3 = p.flags := by simp [fld, bnat]
      have hguard : (s.pcie.ready && s.box.enable && canMaster s 0) = true := by simp [hready, hen, hmaster]
      simp only [writePage, hfrozen, hguard, hlost, if_true, hflags, Option.getD_none]
      rfl
    obtain ⟨t, ht, hf⟩ := follows_of_run (i := .meterPageWrite) (f := writePage) rfl hu
    refine ⟨t, ht, ?_, follows_sends hf (follows_sends (raise_follows ..) (List.mem_append_right _ (List.mem_singleton_self _)))⟩
    have hbox : t.box = { s.box with frozen := rest, lastPage := p.epoch, lostFrom := none } :=
      Eq.trans (views_box hf.only :) (raise_box ..)
    rw [hbox, ← hlost]
  case waits => exact leadsTo_of_run (f := writePage) rfl (writePage_waits h) rfl rfl

end Sys2Proof.Machine

/-! PROOF. Reads that fail, and uncorrectable errors of the SRAM (R17, R18, R49, R51, R316). -/

namespace Sys2Proof.Machine

open Sys2Proof.Claims

/-! ### Trouble bits stay set -/

/-- Every trouble bit of `s` is set in `t`. -/
structure KeepsTrouble (s t : State) : Prop where
  bits : ∀ b, s.glb.trouble.getLsbD b = true → t.glb.trouble.getLsbD b = true

theorem keepsTrouble_of_eq {s t : State} (h : t.glb.trouble = s.glb.trouble) : KeepsTrouble s t := ⟨fun b hb => by rw [h]; exact hb⟩

theorem keepsTrouble_refl (s : State) : KeepsTrouble s s := keepsTrouble_of_eq rfl

theorem keepsTrouble_trans {s t u : State} (h : KeepsTrouble s t) (g : KeepsTrouble t u) : KeepsTrouble s u :=
  ⟨fun b hb => g.bits b (h.bits b hb)⟩

theorem trouble_keeps (n : Nat) (s : State) : KeepsTrouble s (trouble n s) := ⟨fun b hb => by simp [trouble, hb]⟩

theorem raise_keeps (src : Nat) (s : State) : KeepsTrouble s (raise src s) := ⟨(raise_follows src s).trouble⟩

theorem enterEvt_keeps (e : Evt) (s : State) : KeepsTrouble s (enterEvt e s) := by
  have hflush (u : State) : KeepsTrouble u (startFlush u) := by
    unfold startFlush
    split
    · exact keepsTrouble_of_eq rfl
    · exact keepsTrouble_refl u
  have hraise (u : State) : KeepsTrouble u (if 3 ≤ e.severity then raise 11 u else u) := by
    split
    · exact raise_keeps ..
    · exact keepsTrouble_refl u
  have hstart (u : State) : KeepsTrouble u (if 256 ≤ u.evr.buffer.length ∨ 2 ≤ e.severity then startFlush u else u) := by
    split
    · exact hflush u
    · exact keepsTrouble_refl u
  unfold enterEvt
  dsimp only
  refine keepsTrouble_trans (keepsTrouble_trans ?_ (hraise _)) (hstart _)
  exact keepsTrouble_of_eq rfl

theorem enterBoth_keeps (e : Evt) (s : State) : KeepsTrouble s (enterBoth e s) := by
  unfold enterBoth
  split
  · exact enterEvt_keeps ..
  · refine keepsTrouble_trans (keepsTrouble_trans ?_ (enterEvt_keeps ..)) (enterEvt_keeps ..)
    exact keepsTrouble_of_eq rfl

/-- An event clears no bit of the trouble record. -/
theorem event_keeps (code sev fn : Nat) (d : Bytes) (s : State) : KeepsTrouble s (event code sev fn d s) := by
  unfold event recordEvt
  dsimp only
  generalize (if (suppressedBefore s _).isSome = true then 1 else 0) = extra
  split
  · split
    · exact enterBoth_keeps ..
    · exact keepsTrouble_of_eq rfl
  · split
    · refine keepsTrouble_trans ?_ (trouble_keeps ..)
      exact keepsTrouble_of_eq rfl
    · split
      · exact enterBoth_keeps ..
      · split
        · exact keepsTrouble_of_eq rfl
        · refine keepsTrouble_trans ?_ (enterBoth_keeps ..)
          exact keepsTrouble_of_eq rfl

/-! ### A ring that stops -/

/-- A ring that stops with a status: nothing of it is read. -/
def stoppedRing (st : Status) (r : Ring) : Ring := { stopReads r with stop := some st }

theorem stopRing_logs {c : Nat} {r : Ring} {s : State} (st : Status) (hr : s.ush.rings.get? c = some r) :
    OnlyLogs (setRing c (stoppedRing st r) s) (stopRing c st s) ∧ KeepsTrouble s (stopRing c st s) := by
  simp only [stopRing, hr, updRing_eq_setRing _ hr]
  exact ⟨onlyLogs_trans (event_logs ..) (raise_logs ..),
    keepsTrouble_trans (t := setRing c (stoppedRing st r) s) (keepsTrouble_of_eq rfl)
      (keepsTrouble_trans (event_keeps ..) (raise_keeps ..))⟩

/-! ### The errors that a failed read logs -/

theorem logAer_keeps {f : Nat} {a b : Aer} {s : State} (h : a ∈ s.pcie.aer.getD f []) : a ∈ (logAer f b s).pcie.aer.getD f [] := by
  simp only [logAer, Tab.getD_put_same]
  split
  · exact h
  · exact List.mem_append_left _ h

theorem mem_logReadError (f : Nat) (a : Aer) (s : State) : a ∈ (logReadError f a s).pcie.aer.getD f [] := by
  unfold logReadError
  dsimp only
  split
  · exact logAer_keeps (mem_logAer f a s)
  · exact mem_logAer f a s

/-- What a failed read logs is all in the AER capabilities. -/
theorem logReadError_eq (f : Nat) (a : Aer) (s : State) :
    logReadError f a s = { s with pcie := { s.pcie with aer := (logReadError f a s).pcie.aer } } := by
  unfold logReadError
  dsimp only
  split <;> rfl

theorem logReadError_ush (f : Nat) (a : Aer) (s : State) : (logReadError f a s).ush = s.ush := by rw [logReadError_eq]
theorem logReadError_seats (f : Nat) (a : Aer) (s : State) : (logReadError f a s).seats = s.seats := by rw [logReadError_eq]
theorem logReadError_writer (f : Nat) (a : Aer) (s : State) : (logReadError f a s).writer = s.writer := by rw [logReadError_eq]
theorem logReadError_pending (f : Nat) (a : Aer) (s : State) : (logReadError f a s).pending = s.pending := by rw [logReadError_eq]
theorem logReadError_otp (f : Nat) (a : Aer) (s : State) : (logReadError f a s).otp = s.otp := by rw [logReadError_eq]

/-! ### Failed reads -/

section
variable {s : State} {c : Nat} {r : Ring} (a : Aer) (hr : s.ush.rings.get? c = some r)
include hr

/-- The failed read of an entry stops its ring. -/
theorem readFails_entry (hlive : r.stale < r.reads) :
    OnlyLogs (setRing c (stoppedRing .hostRead { r with reads := r.reads - 1 }) (logReadError r.owner a s)) (readFails (.entry c) a s) := by
  have hout : readOutstanding s (.entry c) = some r.owner := by simp only [readOutstanding, hr, if_pos hlive]
  have hr' : (logReadError r.owner a s).ush.rings.get? c = some r := by rw [logReadError_ush]; exact hr
  simp only [readFails, hout, updRing_eq_setRing _ hr']
  have h := (stopRing_logs .hostRead (setRing_get? c { r with reads := r.reads - 1 } (logReadError r.owner a s))).1
  have hset (p q : Ring) (u : State) : setRing c q (setRing c p u) = setRing c q u := by simp [setRing, Tab.put_put]
  rw [hset] at h
  exact h

/-- The failed read of a fragment list stops its ring. -/
theorem readFails_fragments {e : Entry} (hfrag : r.frag = some e) :
    OnlyLogs (setRing c (stoppedRing .hostRead r) (logReadError r.owner a s)) (readFails (.fragments c) a s) := by
  have hout : readOutstanding s (.fragments c) = some r.owner := by simp only [readOutstanding, hr, hfrag, Option.isSome_some, if_true]
  have hr' : (logReadError r.owner a s).ush.rings.get? c = some r := by rw [logReadError_ush]; exact hr
  simp only [readFails, hout]
  exact (stopRing_logs .hostRead hr').1

end

/-- What a command leaves of a ring that its effect stopped. -/
theorem stops_of_run {i : Instr} {f : State → State} {s v : State} {c o : Nat} {q : Ring} {a : Aer} (h : exec i s = run f s)
    (hu : f s = v) (hlogs : OnlyLogs (setRing c q (logReadError o a s)) v) :
    ∃ t, exec i s = .next t ∧ t.ush.rings.get? c = some q ∧ a ∈ t.pcie.aer.getD o [] := by
  obtain ⟨t, ht, hn⟩ := notes_of_run h hu (onlyNotes_of_logs hlogs) (logReadError_pending ..) (logReadError_otp ..)
  refine ⟨t, ht, ?_, ?_⟩
  · rw [hn.ush]
    exact setRing_get? ..
  · rw [hn.pcie]
    exact mem_logReadError o a s

/-- The failed read of an operand ends its operation. -/
theorem operandFails_endsWith {s : State} {k : Nat} {x : Seat} (hx : s.seats.get? k = some x) (hd : x.detached = false) :
    ∃ i, EndsWith i s (operandFails k s) ∧ i.seat = some k ∧ i.out = [] ∧ i.record.status = .hostRead ∧ i.record.units = 0 := by
  have hend (u : State) (hu : OnlyEnds s u) (hseats : u.seats = s.seats) :
      ∃ i, EndsWith i s (endSeat k .hostRead u) ∧ i.seat = some k ∧ i.out = [] ∧ i.record.status = .hostRead ∧ i.record.units = 0 := by
    obtain ⟨i, hi, h1, h2, h3, h4, -, -⟩ := endSeat_endsWith (s := u) .hostRead (by rw [hseats]; exact hx) hd
    exact ⟨i, endsWith_of_ends hu hi, h1, h2, h3, h4⟩
  simp only [operandFails, hx]
  split
  · exact hend s (onlyEnds_refl s) rfl
  · exact hend _ rfl rfl

theorem readFails_operand {s : State} {k : Nat} {x : Seat} (a : Aer) (hx : s.seats.get? k = some x) (hopen : stagingOpen x = true)
    (hinput : x.input = none) : readFails (.operand k) a s = operandFails k (logReadError x.fn a s) := by
  have hout : readOutstanding s (.operand k) = some x.fn := by
    simp only [readOutstanding, hx, hopen, hinput, Option.isNone_none, Bool.and_self, if_true]
  simp only [readFails, hout]

/-! ### Uncorrectable errors -/

/-- A run that holds no error yet is spoiled. -/
theorem spoilRun_eq {s : State} {k : Nat} {x : Seat} (t : Nat) (hx : s.seats.get? k = some x) (hphase : x.phase = .executing)
    (hue : x.ue = none) : spoilRun k t s = setSeat k { x with ue := some t } s := by
  simp only [spoilRun, hx, hphase, if_true, updSeat_eq_setSeat _ hx, hue]

/-- The event of an uncorrectable error, which comes before its effect. -/
def ueEvent (p : SramPlace) (address : Nat) (s : State) : State :=
  event 0x0005 2 deviceWide ([byte (SramPlace.region p), 0, 0, 0] ++ leBytes 4 address) s

theorem ueEvent_logs (p : SramPlace) (address : Nat) (s : State) : OnlyLogs s (ueEvent p address s) := event_logs ..

theorem onlyLogs_setSeat {s t : State} (k : Nat) (x : Seat) (h : OnlyLogs s t) : OnlyLogs (setSeat k x s) (setSeat k x t) := by
  unfold OnlyLogs setSeat at *
  rw [h]

/-! ### The obligation -/

/-- Settles O35: each read by its target, each error by its place. -/
theorem readAndSramErrors : Obligations.ReadAndSramErrors := by
  unfold Obligations.ReadAndSramErrors
  refine ⟨fun s kind => ⟨fun c r hr hlive => ?entry, fun c r e hr hfrag => ?fragments, fun k x hx hopen hinput hd => ?operand,
    fun c r hr hlive => ⟨fun hoff => ?timeoutOff, fun hon => ?timeoutOn⟩⟩,
    fun s a => ⟨fun k x u hx hphase htile hue => ⟨?scratch, ?wings⟩, fun c r hr => ?ring, fun n u hu => ?stream, fun f c => ?meter, ?misc⟩⟩
  case entry =>
    obtain ⟨t, ht, hq, haer⟩ := stops_of_run (i := .dmaReadError (.entry c) kind) (f := readFails (.entry c) (ReadError.aer kind)) rfl rfl
      (readFails_entry _ hr hlive)
    exact ⟨t, _, ht, hq, rfl, rfl, haer⟩
  case fragments =>
    obtain ⟨t, ht, hq, -⟩ := stops_of_run (i := .dmaReadError (.fragments c) kind) (f := readFails (.fragments c) (ReadError.aer kind))
      rfl rfl (readFails_fragments _ hr hfrag)
    exact ⟨t, _, ht, hq, rfl, rfl⟩
  case operand =>
    have hx' : (logReadError x.fn (ReadError.aer kind) s).seats.get? k = some x := by rw [logReadError_seats]; exact hx
    obtain ⟨i, hi, hseat, hout, hst, hunits⟩ := operandFails_endsWith hx' hd
    obtain ⟨t, ht, hv⟩ := views_of_run (i := .dmaReadError (.operand k) kind) (f := readFails (.operand k) (ReadError.aer kind)) rfl
      (readFails_operand (ReadError.aer kind) hx hopen hinput)
    have hw : t.writer = (logReadError x.fn (ReadError.aer kind) s).writer ++ [i] := Eq.trans (views_writer hv :) hi.writer
    have haer : t.pcie.aer = (logReadError x.fn (ReadError.aer kind) s).pcie.aer :=
      Eq.trans (congrArg Pcie.aer (views_pcie hv) :) (congrArg Pcie.aer (OnlyEnds.pcie hi) :)
    refine ⟨t, i, ht, hw.trans (by rw [logReadError_writer]), hseat, hst, hout, hunits, ?_⟩
    rw [haer]
    exact mem_logReadError ..
  case timeoutOff =>
    refine leadsTo_of_run (f := timeoutFails (.entry c)) rfl ?_ rfl rfl
    simp only [timeoutFails, readOutstanding, hr, if_pos hlive, hoff, if_true]
  case timeoutOn =>
    have hu : timeoutFails (.entry c) s = readFails (.entry c) .completionTimeout s := by
      simp only [timeoutFails, readOutstanding, hr, if_pos hlive, hon, Bool.false_eq_true, if_false]
    obtain ⟨t, ht, hq, haer⟩ := stops_of_run (i := .completionTimeout (.entry c)) (f := timeoutFails (.entry c)) rfl hu
      (readFails_entry _ hr hlive)
    exact ⟨t, _, ht, hq, rfl, haer⟩
  case scratch =>
    have hx' : (ueEvent (.scratch k .a) a s).seats.get? k = some x := by rw [ueEvent, event_seats]; exact hx
    have hu : sramError (.scratch k .a) a s = setSeat k { x with ue := some (u / 2) } (ueEvent (.scratch k .a) a s) := by
      rw [← spoilRun_eq (u / 2) hx' hphase hue]
      simp only [sramError, sideTile, event_seats, hx, htile, unitTile, Option.map_some]
      rfl
    obtain ⟨t, ht, hn⟩ := notes_of_run (i := .sramUe (.scratch k .a) a) (f := sramError (.scratch k .a) a) rfl hu
      (onlyNotes_of_logs (onlyLogs_setSeat k _ (ueEvent_logs ..))) rfl rfl
    exact ⟨t, ht, hn.seats⟩
  case wings =>
    have hx' : (ueEvent (.wings k) a s).seats.get? k = some x := by rw [ueEvent, event_seats]; exact hx
    obtain ⟨t, ht, hn⟩ := notes_of_run (i := .sramUe (.wings k) a) (f := sramError (.wings k) a) rfl (spoilRun_eq 34 hx' hphase hue)
      (onlyNotes_of_logs (onlyLogs_setSeat k _ (ueEvent_logs ..))) rfl rfl
    exact ⟨t, ht, hn.seats⟩
  case ring =>
    have hr' : (trouble 1 (ueEvent (.ringContext c) a s)).ush.rings.get? c = some r := by
      show (event ..).ush.rings.get? c = some r
      rw [event_ush]; exact hr
    obtain ⟨hlogs, hkeeps⟩ := stopRing_logs .faultRepeat hr'
    obtain ⟨t, ht, hf⟩ := follows_of_run (i := .sramUe (.ringContext c) a) (f := sramError (.ringContext c) a) (s := s) rfl rfl
    refine ⟨t, stoppedRing .faultRepeat r, ht, ?_, rfl, hf.trouble 1 (hkeeps.bits 1 (by simp [trouble]))⟩
    have hush : t.ush = (setRing c (stoppedRing .faultRepeat r) (trouble 1 (ueEvent (.ringContext c) a s))).ush :=
      Eq.trans (views_ush hf.only :) (onlyNotes_of_logs hlogs).ush
    rw [hush]
    exact setRing_get? ..
  case stream =>
    obtain ⟨t, ht, hv⟩ := views_of_run (i := .sramUe (.streamContext n) a) (f := sramError (.streamContext n) a) (s := s) rfl rfl
    refine ⟨t, ht, ?_, Eq.trans (views_seats hv :) (event_seats ..)⟩
    have hdig := views_dig hv
    rw [hdig]
    show ((event ..).dig.streams.upd n _).get? n = _
    rw [event_dig, Tab.get?_upd, if_pos rfl, hu]
    rfl
  case meter =>
    obtain ⟨t, ht, hv⟩ := views_of_run (i := .sramUe (.meter f c false) a) (f := sramError (.meter f c false) a) (s := s) rfl rfl
    refine ⟨t, ht, ?_, Eq.trans (views_seats hv :) (event_seats ..)⟩
    have hbox := views_box hv
    rw [hbox]
    exact (mem_insertSorted ..).2 (Or.inl rfl)
  case misc =>
    obtain ⟨t, ht, hf⟩ := follows_of_run (i := .sramUe .miscellaneous a) (f := sramError .miscellaneous a) (s := s) rfl rfl
    exact ⟨t, ht, hf.trouble 1 (by simp [sramError, trouble]), Eq.trans (views_seats hf.only :) (event_seats ..)⟩

end Sys2Proof.Machine

/-! PROOF. The writer: split and inline rings (R28, R29, R50, R79 to R84). -/

namespace Sys2Proof.Machine

open Sys2Proof.Claims

/-! ### Messages that the end of a command sends -/

/-- `t` has sent what `s` sent, and interrupt messages behind it. -/
def SendsMsix (s t : State) : Prop := ∃ r, t.host = s.host ++ r ∧ ∀ e ∈ r, ∃ f v a d, e = .msix f v a d

theorem sendsMsix_of_eq {s t : State} (h : t.host = s.host) : SendsMsix s t := ⟨[], by simp [h], by simp⟩

theorem sendsMsix_trans {s t u : State} (h : SendsMsix s t) (g : SendsMsix t u) : SendsMsix s u := by
  obtain ⟨r, hr, hm⟩ := h
  obtain ⟨q, hq, hn⟩ := g
  exact ⟨r ++ q, by rw [hq, hr, List.append_assoc], fun e he => (List.mem_append.1 he).elim (hm e) (hn e)⟩

theorem signal_sends (f v : Nat) (s : State) : SendsMsix s (signal f v s) := by
  unfold signal
  split
  · exact ⟨[msixMessage s f v], rfl, fun e he => ⟨f, v, _, _, List.mem_singleton.1 he⟩⟩
  · exact sendsMsix_of_eq rfl

theorem raise_sends (src : Nat) (s : State) : SendsMsix s (raise src s) := by
  unfold raise
  dsimp only
  split
  · exact sendsMsix_of_eq rfl
  · split
    · exact sendsMsix_trans (t := { s with glb := { s.glb with evtPend := _ } }) (sendsMsix_of_eq rfl) (signal_sends ..)
    · exact sendsMsix_of_eq rfl

theorem raiseIf_sends (c : Bool) (src : Nat) (s : State) : SendsMsix s (raiseIf c src s) := by
  unfold raiseIf
  split
  · exact raise_sends ..
  · exact sendsMsix_of_eq rfl

theorem settleVf_sends (b : State) (f : Nat) (s : State) : SendsMsix s (settleVf b f s) := by
  unfold settleVf
  split
  · dsimp only
    refine sendsMsix_trans ?_ (raiseIf_sends ..)
    split
    · exact sendsMsix_of_eq rfl
    · exact signal_sends ..
  · exact sendsMsix_of_eq rfl

/-- The end of a command sends interrupt messages, and no other. -/
theorem settle_sends (b s : State) : SendsMsix s (settle b s) := by
  have hfold (l : List Nat) (u : State) : SendsMsix u (l.foldl (fun t i => settleVf b (i + 1) t) u) := by
    induction l generalizing u with
    | nil => exact sendsMsix_of_eq rfl
    | cons i l ih => exact sendsMsix_trans (settleVf_sends ..) (ih _)
  have hsmb (u : State) : SendsMsix u (settleSmb b u) := by
    unfold settleSmb
    dsimp only
    split <;> exact sendsMsix_of_eq rfl
  unfold settle
  dsimp only
  refine sendsMsix_trans ?_ (hsmb _)
  refine sendsMsix_trans ?_ (hfold _ _)
  iterate 12 refine sendsMsix_trans ?_ (raiseIf_sends _ _ _)
  exact sendsMsix_of_eq rfl

/-- A command answers a state that follows its effect, and sends no more than interrupt messages behind it. -/
theorem sends_of_run {i : Instr} {f : State → State} {s u : State} (h : exec i s = run f s) (hu : f s = u) :
    ∃ t, exec i s = .next t ∧ Follows { u with pending := s.pending, otp := s.otp } t ∧ SendsMsix u t := by
  obtain ⟨t, ht, hf⟩ := follows_of_run h hu
  refine ⟨t, ht, hf, ?_⟩
  have he : t = { settle s u with pending := s.pending, otp := s.otp } := by
    have := ht.symm.trans h
    simpa [run, hu] using this
  rw [he]
  exact sendsMsix_trans (settle_sends s u) (sendsMsix_of_eq rfl)

/-! ### A seat that is freed -/

/-- The release of a seat touches the seats, the fetched scripts, the waits of quiesces and the DRBG's bytes. -/
theorem releaseSeat_eq (k : Nat) (s : State) :
    ∃ a b c d, releaseSeat k s = { s with seats := a, scr := b, ten := { s.ten with quiesceWaits := c }, rng := d } := by
  have hfold (l : List (Nat × Nat)) (u : State) :
      ∃ a c, l.foldl (fun t w => if quiet t w.2 then endQuiesce .ok w.1 t else t) u
        = { u with seats := a, ten := { u.ten with quiesceWaits := c } } := by
    induction l generalizing u with
    | nil => exact ⟨_, _, rfl⟩
    | cons w l ih =>
      rw [List.foldl_cons]
      split
      · obtain ⟨a, c, h⟩ := ih (endQuiesce .ok w.1 u)
        exact ⟨a, c, h⟩
      · exact ih u
  obtain ⟨a, c, h⟩ := hfold _ _
  exact ⟨a, _, c, _, h⟩

/-- What is free of a record's seat: the writer, the rings and the messages stay. -/
theorem freeSeatOf_frame (rc : Record) (s : State) :
    (freeSeatOf rc s).writer = s.writer ∧ (freeSeatOf rc s).ush = s.ush ∧ (freeSeatOf rc s).host = s.host
      ∧ (rc.seatHint ≠ 0xFFFF → (freeSeatOf rc s).seats.get? rc.seatHint = none) := by
  unfold freeSeatOf
  split
  · next h => exact ⟨rfl, rfl, rfl, fun hn => absurd h hn⟩
  · obtain ⟨a, b, c, d, heq⟩ := releaseSeat_eq rc.seatHint s
    refine ⟨by rw [heq], by rw [heq], by rw [heq], fun _ => releaseSeat_get?_self ..⟩

/-! ### A record that is written -/

/-- A record written on a ring: it is sent, and the ring counts it. -/
theorem putRecord_follows {c : Nat} {q : Ring} {s : State} (r : Ring) (addr : Nat) (rc : Record) (b : Bool)
    (hq : s.ush.rings.get? c = some q) :
    Follows (setRing c { q with completed := q.completed + 1 } (emit (.record r.owner addr rc) s)) (putRecord c r addr rc b s) := by
  have hq' : (emit (.record r.owner addr rc) s).ush.rings.get? c = some q := hq
  unfold putRecord
  dsimp only
  rw [updRing_eq_setRing _ hq']
  split
  · exact signal_follows ..
  · exact follows_refl _

/-- The output of an item changes no more than the messages. -/
theorem putOutput_eq (i : Item) (s : State) :
    ∃ h, putOutput i s = { s with host := s.host ++ h } ∧ (∀ e ∈ h, e = .output i.fn i.outPtr i.out)
      ∧ (i.stopped = false → i.out ≠ [] → Emit.output i.fn i.outPtr i.out ∈ h) := by
  unfold putOutput
  split
  · next h => exact ⟨[], by simp, by simp, fun h1 h2 => by simp [h1, h2] at h⟩
  · exact ⟨[.output i.fn i.outPtr i.out], rfl, fun e he => List.mem_singleton.1 he, fun _ _ => List.mem_singleton_self _⟩

theorem nextCq_phase (r : Ring) : (nextCq r).cqPhase = r.cqPhase ↔ (nextCq r).cqNext ≠ 0 := by
  by_cases h : (r.cqNext + 1) % 2 ^ r.log2 = 0
  · simp [nextCq, h]
  · simp [nextCq, h]

/-- What an item of a split ring leaves. -/
theorem writeSplit_leaves {c : Nat} {r : Ring} {s : State} (i : Item) (hr : s.ush.rings.get? c = some r) :
    (writeSplit c r i s).writer = s.writer
      ∧ Emit.record r.owner (r.cqBase + 32 * r.cqNext) { i.record with phase := r.cqPhase, batch := false } ∈ (writeSplit c r i s).host
      ∧ (i.stopped = false → i.out ≠ [] → Emit.output i.fn i.outPtr i.out ∈ (writeSplit c r i s).host)
      ∧ (writeSplit c r i s).ush.rings.get? c = some { nextCq r with completed := r.completed + 1 }
      ∧ (i.record.seatHint ≠ 0xFFFF → (writeSplit c r i s).seats.get? i.record.seatHint = none) := by
  obtain ⟨h, hout, -, hmem⟩ := putOutput_eq i s
  have hr' : (putOutput i s).ush.rings.get? c = some r := by rw [hout]; exact hr
  unfold writeSplit
  dsimp only
  rw [updRing_eq_setRing nextCq hr']
  have hput := putRecord_follows r (r.cqBase + 32 * r.cqNext) { i.record with phase := r.cqPhase, batch := false } i.batchEnd
    (setRing_get? c (nextCq r) (putOutput i s))
  obtain ⟨hw, hush, hhost, hseat⟩ := freeSeatOf_frame { i.record with phase := r.cqPhase, batch := false }
    (putRecord c r (r.cqBase + 32 * r.cqNext) { i.record with phase := r.cqPhase, batch := false } i.batchEnd
      (setRing c (nextCq r) (putOutput i s)))
  refine ⟨?_, ?_, fun h1 h2 => ?_, ?_, hseat⟩
  · rw [hw, views_writer hput.only]
    show (putOutput i s).writer = _
    rw [hout]
  · rw [hhost]
    exact follows_sends hput (List.mem_append_right _ (List.mem_singleton_self _))
  · rw [hhost]
    refine follows_sends hput (List.mem_append_left _ ?_)
    show _ ∈ (putOutput i s).host
    rw [hout]
    exact List.mem_append_right _ (hmem h1 h2)
  · rw [hush, views_ush hput.only]
    exact setRing_get? ..

/-! ### Inline batches -/

/-- While no entry that ends a batch is done, no batch is complete. -/
theorem frontBatch_none {l : List BatchItem} (h : ∀ b ∈ l, b.batchEnd = true → b.done = none) : frontBatch l = none := by
  induction l with
  | nil => rfl
  | cons b l ih =>
    have ih := ih fun x hx => h x (List.mem_cons_of_mem _ hx)
    unfold frontBatch
    split
    · rfl
    · next d hd =>
      split
      · next hend => rw [h b (List.mem_cons_self ..) hend] at hd; cases hd
      · rw [ih]

/-- The records of the entries that are done. -/
def doneRecords (l : List BatchItem) : List Record := l.filterMap BatchItem.done

/-- A batch whose entries are all done, the last ending it, is complete. -/
theorem frontBatch_some {front rest : List BatchItem} {b : BatchItem} {d : Record} (hd : b.done = some d) (hend : b.batchEnd = true)
    (h : ∀ a ∈ front, a.batchEnd = false ∧ a.done ≠ none) :
    frontBatch (front ++ b :: rest) = some (doneRecords front ++ [d], b, d, rest) := by
  induction front with
  | nil => simp [frontBatch, hd, hend, doneRecords]
  | cons a front ih =>
    have ih := ih fun x hx => h x (List.mem_cons_of_mem _ hx)
    obtain ⟨hnot, hdone⟩ := h a (List.mem_cons_self ..)
    obtain ⟨r, hr⟩ := Option.ne_none_iff_exists'.1 hdone
    simp only [List.cons_append, frontBatch, hr, hnot, Bool.false_eq_true, if_false, ih]
    simp [doneRecords, hr]

/-- The largest status of a batch: no record's exceeds it, and it is the first's or one of them. -/
theorem worst_spec (ds : List Record) (st : Status) :
    st.code ≤ (worst ds st).code ∧ (∀ d ∈ ds, d.status.code ≤ (worst ds st).code)
      ∧ (worst ds st = st ∨ ∃ d ∈ ds, worst ds st = d.status) := by
  induction ds generalizing st with
  | nil => exact ⟨Nat.le_refl _, by simp, Or.inl rfl⟩
  | cons d ds ih =>
    have hcons : worst (d :: ds) st = worst ds (if st.code < d.status.code then d.status else st) := rfl
    rw [hcons]
    obtain ⟨h1, h2, h3⟩ := ih (if st.code < d.status.code then d.status else st)
    have hmax : st.code ≤ (if st.code < d.status.code then d.status else st).code
        ∧ d.status.code ≤ (if st.code < d.status.code then d.status else st).code := by
      split <;> omega
    refine ⟨hmax.1.trans h1, fun x hx => ?_, ?_⟩
    · rcases List.mem_cons.1 hx with rfl | hx
      · exact hmax.2.trans h1
      · exact h2 x hx
    · rcases h3 with h3 | ⟨x, hx, h3⟩
      · rw [h3]
        split
        · exact Or.inr ⟨d, List.mem_cons_self .., rfl⟩
        · exact Or.inl rfl
      · exact Or.inr ⟨x, List.mem_cons_of_mem _ hx, h3⟩

/-- The batch entry of an item takes the item's record. -/
def fillBatch (i : Item) (b : BatchItem) : BatchItem := if b.seq = i.seq then { b with done := some i.record } else b

/-- A ring without a complete batch at its front waits. -/
theorem writeBatches_waits {c : Nat} {q : Ring} {s : State} (fuel : Nat) (hq : s.ush.rings.get? c = some q)
    (h : frontBatch q.batch = none) : writeBatches c fuel s = s := by
  cases fuel with
  | zero => rfl
  | succ n => simp only [writeBatches, hq, h]

/-- The one batch of a ring, complete, is written as one record. -/
theorem writeBatches_writes {c : Nat} {q : Ring} {s : State} {ds : List Record} {e : BatchItem} {d : Record} (r : Ring) (fuel : Nat)
    (hq : s.ush.rings.get? c = some q) (howner : q.owner = r.owner) (hbase : q.sqBase = r.sqBase)
    (h : frontBatch q.batch = some (ds, e, d, [])) :
    ∃ p, (writeBatches c (fuel + 1) s).writer = s.writer ∧ (writeBatches c (fuel + 1) s).ush.rings.get? c = some p ∧ p.batch = []
      ∧ Emit.record r.owner (r.sqBase + 128 * e.index) { d with phase := e.phase, batch := true, status := worst ds d.status }
        ∈ (writeBatches c (fuel + 1) s).host := by
  let rc : Record := { d with phase := e.phase, batch := true, status := worst ds d.status }
  have hput := putRecord_follows q (q.sqBase + 128 * e.index) rc true (setRing_get? c { q with batch := [] } s)
  obtain ⟨hw, hush, hhost, -⟩ := freeSeatOf_frame rc
    (putRecord c q (q.sqBase + 128 * e.index) rc true (setRing c { q with batch := [] } s))
  have hget : (freeSeatOf rc (putRecord c q (q.sqBase + 128 * e.index) rc true (setRing c { q with batch := [] } s))).ush.rings.get? c
      = some { q with batch := [], completed := q.completed + 1 } := by
    rw [hush, views_ush hput.only]
    exact setRing_get? ..
  have heq : writeBatches c (fuel + 1) s
      = freeSeatOf rc (putRecord c q (q.sqBase + 128 * e.index) rc true (setRing c { q with batch := [] } s)) := by
    simp only [writeBatches, hq, h, updRing_eq_setRing _ hq]
    exact writeBatches_waits fuel hget rfl
  rw [heq]
  refine ⟨_, hw.trans (views_writer hput.only :), hget, rfl, ?_⟩
  rw [hhost, ← howner, ← hbase]
  exact follows_sends hput (List.mem_append_right _ (List.mem_singleton_self _))

/-- An inline item that ends no batch, none being complete: it fills its entry, and its seat is free. -/
theorem writeInline_fills {c : Nat} {r : Ring} {i : Item} {s : State} (hr : s.ush.rings.get? c = some r) (hend : i.batchEnd = false)
    (hopen : ∀ b ∈ r.batch, b.batchEnd = true → b.done = none ∧ b.seq ≠ i.seq) :
    (writeInline c r i s).writer = s.writer
      ∧ (writeInline c r i s).ush.rings.get? c = some { r with batch := r.batch.map (fillBatch i) }
      ∧ (i.record.seatHint ≠ 0xFFFF → (writeInline c r i s).seats.get? i.record.seatHint = none)
      ∧ ∃ h, (writeInline c r i s).host = s.host ++ h ∧ ∀ e ∈ h, e = .output i.fn i.outPtr i.out := by
  obtain ⟨h, hout, hall, -⟩ := putOutput_eq i s
  have hr' : (putOutput i s).ush.rings.get? c = some r := by rw [hout]; exact hr
  obtain ⟨hw, hush, hhost, hseat⟩ := freeSeatOf_frame i.record (setRing c { r with batch := r.batch.map (fillBatch i) } (putOutput i s))
  have hget : (freeSeatOf i.record (setRing c { r with batch := r.batch.map (fillBatch i) } (putOutput i s))).ush.rings.get? c
      = some { r with batch := r.batch.map (fillBatch i) } := by
    rw [hush]
    exact setRing_get? ..
  have hnone : frontBatch (r.batch.map (fillBatch i)) = none := by
    refine frontBatch_none fun b hb hbe => ?_
    obtain ⟨a, ha, rfl⟩ := List.mem_map.1 hb
    by_cases hseq : a.seq = i.seq
    · have hae : a.batchEnd = true := by rw [fillBatch, if_pos hseq] at hbe; exact hbe
      exact absurd hseq (hopen a ha hae).2
    · rw [fillBatch, if_neg hseq] at hbe ⊢
      exact (hopen a ha hbe).1
  have heq : writeInline c r i s = freeSeatOf i.record (setRing c { r with batch := r.batch.map (fillBatch i) } (putOutput i s)) := by
    simp only [writeInline, hend, Bool.false_eq_true, if_false, updRing_eq_setRing _ hr']
    exact writeBatches_waits _ hget hnone
  rw [heq]
  refine ⟨hw.trans ?_, hget, hseat, h, hhost.trans ?_, hall⟩
  · show (putOutput i s).writer = _
    rw [hout]
  · show (putOutput i s).host = _
    rw [hout]

/-- The inline item that completes its batch: one record for the batch. -/
theorem writeInline_completes {c : Nat} {r : Ring} {i : Item} {s : State} {front : List BatchItem} {b : BatchItem}
    (hr : s.ush.rings.get? c = some r) (hend : i.batchEnd = true) (hbatch : r.batch = front ++ [b]) (hseq : b.seq = i.seq)
    (hbe : b.batchEnd = true) (hfront : ∀ a ∈ front, a.batchEnd = false ∧ a.seq ≠ i.seq ∧ a.done ≠ none) :
    ∃ p, (writeInline c r i s).writer = s.writer ∧ (writeInline c r i s).ush.rings.get? c = some p ∧ p.batch = []
      ∧ Emit.record r.owner (r.sqBase + 128 * b.index) { i.record with
          phase := b.phase, batch := true, status := worst (doneRecords front ++ [i.record]) i.record.status }
        ∈ (writeInline c r i s).host := by
  obtain ⟨h, hout, -, -⟩ := putOutput_eq i s
  have hr' : (putOutput i s).ush.rings.get? c = some r := by rw [hout]; exact hr
  have hkept : front.map (fillBatch i) = front := by
    conv_rhs => rw [← List.map_id front]
    exact List.map_congr_left fun a ha => if_neg (hfront a ha).2.1
  have hfilled : r.batch.map (fillBatch i) = front ++ [{ b with done := some i.record }] := by
    rw [hbatch, List.map_append, hkept, List.map_singleton, fillBatch, if_pos hseq]
  have hdone : frontBatch (r.batch.map (fillBatch i))
      = some (doneRecords front ++ [i.record], { b with done := some i.record }, i.record, []) := by
    rw [hfilled]
    exact frontBatch_some rfl hbe fun a ha => ⟨(hfront a ha).1, (hfront a ha).2.2⟩
  have hlen : r.batch.length = front.length + 1 := by simp [hbatch]
  obtain ⟨p, hw, hget, hp, hsent⟩ := writeBatches_writes (q := { r with batch := r.batch.map (fillBatch i) }) r front.length
    (setRing_get? c { r with batch := r.batch.map (fillBatch i) } (putOutput i s)) rfl rfl hdone
  have heq : writeInline c r i s
      = writeBatches c (front.length + 1) (setRing c { r with batch := r.batch.map (fillBatch i) } (putOutput i s)) := by
    simp only [writeInline, hend, if_true, updRing_eq_setRing _ hr', hlen]
    rfl
  rw [heq]
  refine ⟨p, hw.trans ?_, hget, hp, hsent⟩
  show (putOutput i s).writer = _
  rw [hout]

/-! ### The obligation -/

/-- The item of a ring that may be served is written by the mode of its ring. -/
theorem writeOut_serves {s : State} {c : Nat} {r : Ring} {i : Item} (hi : s.writer.find? (fun j => j.ring = c) = some i)
    (hr : s.ush.rings.get? c = some r) (howner : r.owner = i.fn) (hmaster : canMaster s i.fn = true) :
    writeOut c s = if r.split then writeSplit c r i { s with writer := dropItem c s.writer }
      else writeInline c r i { s with writer := dropItem c s.writer } := by
  have hown : ¬ (r.owner != i.fn) = true := by simp [howner]
  simp only [writeOut, hi, hr, if_neg hown, hmaster, Bool.not_true, Bool.false_eq_true, if_false]

/-- Settles O36: a split item, an inline item whose batch waits, and one that completes its batch. -/
theorem writerServesRings : Obligations.WriterServesRings := by
  unfold Obligations.WriterServesRings
  refine ⟨fun s c r i hi hr howner => ⟨fun hmaster => ?waits, fun hmaster hsplit => ?split⟩, fun s c r i hi hr howner hsplit hmaster =>
    ⟨fun hend hopen => ?fills, fun front b hend hbatch hseq hbe hfront => ?completes⟩⟩
  case waits =>
    have hown : ¬ (r.owner != i.fn) = true := by simp [howner]
    refine leadsTo_of_run (f := writeOut c) rfl ?_ rfl rfl
    simp only [writeOut, hi, hr, if_neg hown, hmaster, Bool.not_false, if_true]
  case split =>
    have hu := writeOut_serves hi hr howner hmaster
    rw [if_pos hsplit] at hu
    obtain ⟨t, ht, hf⟩ := follows_of_run (i := .writeOut c) (f := writeOut c) rfl hu
    obtain ⟨hw, hrec, hout, hget, hseat⟩ := writeSplit_leaves (s := { s with writer := dropItem c s.writer }) i hr
    have hush : t.ush = (writeSplit c r i { s with writer := dropItem c s.writer }).ush := (views_ush hf.only :)
    have hseats : t.seats = (writeSplit c r i { s with writer := dropItem c s.writer }).seats := (views_seats hf.only :)
    exact ⟨t, { nextCq r with completed := r.completed + 1 }, ht, Eq.trans (views_writer hf.only :) hw, follows_sends hf hrec,
      fun h1 h2 => follows_sends hf (hout h1 h2), hush ▸ hget, rfl, nextCq_phase r, hseats ▸ hseat⟩
  case fills =>
    have hu := writeOut_serves hi hr howner hmaster
    rw [if_neg (by simp [hsplit])] at hu
    obtain ⟨t, ht, hf, r', hr', hmsix⟩ := sends_of_run (i := .writeOut c) (f := writeOut c) rfl hu
    obtain ⟨hw, hget, hseat, h, hhost, hout⟩ := writeInline_fills (s := { s with writer := dropItem c s.writer }) hr hend hopen
    have hush : t.ush = (writeInline c r i { s with writer := dropItem c s.writer }).ush := (views_ush hf.only :)
    have hseats : t.seats = (writeInline c r i { s with writer := dropItem c s.writer }).seats := (views_seats hf.only :)
    refine ⟨t, _, ht, Eq.trans (views_writer hf.only :) hw, hush ▸ hget, rfl, hseats ▸ hseat, fun f a rc hmem => ?_⟩
    rw [hr', hhost] at hmem
    rcases List.mem_append.1 hmem with hmem | hmem
    · rcases List.mem_append.1 hmem with hmem | hmem
      · exact hmem
      · cases hout _ hmem
    · obtain ⟨_, _, _, _, heq⟩ := hmsix _ hmem
      cases heq
  case completes =>
    have hu := writeOut_serves hi hr howner hmaster
    rw [if_neg (by simp [hsplit])] at hu
    obtain ⟨t, ht, hf⟩ := follows_of_run (i := .writeOut c) (f := writeOut c) rfl hu
    obtain ⟨p, hw, hget, hp, hsent⟩ := writeInline_completes (s := { s with writer := dropItem c s.writer }) hr hend hbatch hseq hbe hfront
    have hush : t.ush = (writeInline c r i { s with writer := dropItem c s.writer }).ush := (views_ush hf.only :)
    obtain ⟨h1, h2, h3⟩ := worst_spec (doneRecords front ++ [i.record]) i.record.status
    have hmem {a : BatchItem} {d : Record} (ha : a ∈ front) (hd : a.done = some d) : d ∈ doneRecords front ++ [i.record] :=
      List.mem_append_left _ (List.mem_filterMap.2 ⟨a, ha, hd⟩)
    refine ⟨t, p, _, ht, Eq.trans (views_writer hf.only :) hw, hush ▸ hget, hp, follows_sends hf hsent, rfl, h1,
      fun a ha d hd => h2 d (hmem ha hd), ?_⟩
    rcases h3 with h3 | ⟨d, hd, h3⟩
    · exact Or.inl h3
    · rcases List.mem_append.1 hd with hd | hd
      · obtain ⟨a, ha, hda⟩ := List.mem_filterMap.1 hd
        exact Or.inr ⟨a, ha, d, hda, h3⟩
      · rw [List.mem_singleton.1 hd] at h3
        exact Or.inl h3

end Sys2Proof.Machine

/-! PROOF. Understudies, self-tests and retirement of tiles (R319, R320, R329). -/

namespace Sys2Proof.Machine

open Sys2Proof.Claims

/-! ### A tile read after a tile is written -/

theorem tileAt_of_til {s t : State} (n : Nat) (h : t.til.tiles = s.til.tiles) : tileAt t n = tileAt s n := by
  unfold tileAt
  rw [h]

theorem tileAt_updTile_same {s : State} {n : Nat} (f : Tile → Tile) (h : n < s.til.tiles.length) :
    tileAt (updTile n f s) n = f (tileAt s n) := by
  simp [tileAt, updTile, updAt, h]

theorem updTile_length (n : Nat) (f : Tile → Tile) (s : State) : (updTile n f s).til.tiles.length = s.til.tiles.length := by
  simp [updTile, updAt]

/-! ### Retirement -/

/-- A tile in service or in reserve that is retired is RETIRED, and the register that names it stays. -/
theorem retireTile_retires {s : State} {n : Nat} (cause : Nat) (h : n < s.til.tiles.length) :
    (tileAt (retireTile n cause s) n).state = .retired ∧ (retireTile n cause s).til.retire = s.til.retire := by
  unfold retireTile
  dsimp only
  split
  · next hr => exact ⟨hr, rfl⟩
  · have hretired (u : State) (hu : u.til = (updTile n (fun y => { y with
        state := .retired, retiredHour := hoursOf s.evr.time, retireWanted := false }) s).til) :
        (tileAt u n).state = .retired ∧ u.til.retire = s.til.retire := by
      rw [tileAt_of_til n (congrArg Til.tiles hu), tileAt_updTile_same _ h, hu]
      exact ⟨rfl, rfl⟩
    have htil := (event_til 0x0602 2 deviceWide [byte n, byte cause] (updTile n (fun y => { y with
      state := .retired, retiredHour := hoursOf s.evr.time, retireWanted := false }) s))
    split
    · obtain ⟨h1, h2⟩ := hretired _ htil
      exact ⟨h1, h2⟩
    · exact hretired _ htil

/-! ### An understudy that comes in -/

theorem seedMask_til (u : Nat) (s : State) : (seedMask u s).til = s.til := by
  unfold seedMask
  split <;> rfl

/-- A tile in service at a position of a pool. -/
def inService (p pool : Nat) (split : Bool) (y : Tile) : Tile :=
  { y with state := .active, position := some p, pool := pool, split := split, cached := [], cachedB := [] }

/-- The position is taken: nobody is on the way to it, and the understudy serves there. -/
def Replaces (p u : Nat) (s t : State) : Prop :=
  (∀ c ∈ t.til.coming, c.2 ≠ p) ∧ t.til.tiles.length = s.til.tiles.length
    ∧ ∃ v pool split, v.til.tiles.length = s.til.tiles.length ∧ t.til.tiles = (updTile u (inService p pool split) v).til.tiles

/-- The end of a replacement, after its position is left by the tile that it replaces. -/
theorem replaces_of_left {p u : Nat} {s v : State} (pool : Nat) (split : Bool) (hlen : v.til.tiles.length = s.til.tiles.length)
    (hleft : ∀ c ∈ v.til.coming, c.2 ≠ p) :
    Replaces p u s (event 0x0603 2 deviceWide [byte u, byte p]
      (if split then seedMask (2 * u + 1) (seedMask (2 * u) (updTile u (inService p pool split) v))
        else seedMask (2 * u) (updTile u (inService p pool split) v))) := by
  have htil : (if split then seedMask (2 * u + 1) (seedMask (2 * u) (updTile u (inService p pool split) v))
      else seedMask (2 * u) (updTile u (inService p pool split) v)).til = (updTile u (inService p pool split) v).til := by
    split
    · rw [seedMask_til, seedMask_til]
    · rw [seedMask_til]
  unfold Replaces
  rw [event_til, htil]
  exact ⟨hleft, (updTile_length ..).trans hlen, v, pool, split, hlen, rfl⟩

theorem understudyIn_replaces {s : State} {p u : Nat} (hcoming : (s.til.coming.find? fun c => c.2 = p) = some (u, p))
    (hstate : (tileAt s u).state = .understudy) : Replaces p u s (understudyIn p s) := by
  have hstays : ¬ ((tileAt s u).state != .understudy) = true := by simp [hstate]
  have hleft : ∀ c ∈ s.til.coming.filter (fun c => c.2 != p), c.2 ≠ p := fun c hc => by simpa using (List.mem_filter.1 hc).2
  simp only [understudyIn, hcoming, if_neg hstays]
  generalize ((List.range s.til.tiles.length).find? fun t => (tileAt s t).state = .retired && (tileAt s t).position = some p) = old
  cases old with
  | none => exact replaces_of_left (v := { s with til := { s.til with coming := _ } }) 0 false rfl hleft
  | some t =>
    exact replaces_of_left (v := updTile t (fun y => { y with position := none }) { s with til := { s.til with coming := _ } }) _ _
      (updTile_length ..) hleft

theorem tileAt_of_replaces {p u : Nat} {s t : State} (h : Replaces p u s t) (hlen : u < s.til.tiles.length) :
    (tileAt t u).state = .active ∧ (tileAt t u).position = some p := by
  obtain ⟨-, -, v, pool, split, hv, htiles⟩ := h
  rw [tileAt_of_til u htiles, tileAt_updTile_same _ (by omega)]
  exact ⟨rfl, rfl⟩

/-! ### TIL_RETIRE -/

section
variable {s : State} {u : Nat} (h64 : u < 64) (hu : u < s.til.tiles.length) (hactive : (tileAt s u).state = .active)
include h64 hu hactive

theorem writeRetire_idle (hidle : (tileAt s u).busy = 0) :
    writeRetire u s = retireTile u 1 { s with til := { s.til with retire := u } } := by
  have hserves : ¬ (decide (s.til.tiles.length ≤ u) || decide ((tileAt s u).state = .retired)) = true := by simp [hu, hactive]
  rw [writeRetire, Nat.mod_eq_of_lt h64]
  exact (if_neg hserves).trans (if_pos hidle)

theorem writeRetire_busy (hbusy : (tileAt s u).busy ≠ 0) :
    writeRetire u s = updTile u (fun y => { y with retireWanted := true }) { s with til := { s.til with retire := u } } := by
  have hserves : ¬ (decide (s.til.tiles.length ≤ u) || decide ((tileAt s u).state = .retired)) = true := by simp [hu, hactive]
  rw [writeRetire, Nat.mod_eq_of_lt h64]
  exact (if_neg hserves).trans (if_neg hbusy)

end

/-! ### The obligation -/

/-- Settles O37: an understudy by the position that it takes, a failed one and a register's tile by what retirement leaves. -/
theorem tilesComeAndGo : Obligations.TilesComeAndGo := by
  unfold Obligations.TilesComeAndGo
  refine fun s hlen => ⟨fun p u hcoming hu hstate => ?comes, fun u hu hstate hfree => ?fails,
    fun htakes u hu hactive => ⟨fun hidle => ?idle, fun hbusy => ?busy⟩⟩
  all_goals rw [← hlen] at hu
  case comes =>
    have hrep := understudyIn_replaces hcoming hstate
    obtain ⟨h1, h2⟩ := tileAt_of_replaces hrep hu
    obtain ⟨t, ht, hv⟩ := views_of_run (i := .understudyIn p) (f := understudyIn p) (s := s) rfl rfl
    have htil : t.til = (understudyIn p s).til := (views_til hv :)
    rw [← tileAt_of_til u (congrArg Til.tiles htil)] at h1 h2
    exact ⟨t, ht, h1, h2, htil ▸ hrep.1⟩
  case fails =>
    have hguard : ((tileAt s u).state = .understudy && !s.til.coming.any (fun c => c.1 = u)) = true := by simp [hstate, hfree]
    obtain ⟨t, ht, hv⟩ := views_of_run (i := .understudySelfTest [u]) (f := selfTest [u]) rfl (if_pos hguard)
    refine ⟨t, ht, ?_⟩
    rw [tileAt_of_til u (congrArg Til.tiles (views_til hv) :)]
    exact (retireTile_retires 2 hu).1
  all_goals
    obtain ⟨v, hvtil, heffect⟩ : ∃ v, v.til = s.til ∧ pfGuarded 0x300008 (writeRetire u) s = writeRetire u v :=
      ⟨_, rfl, pfGuarded_takes htakes.1 htakes.2.1 htakes.2.2.1 htakes.2.2.2⟩
    obtain ⟨t, ht, hv⟩ := views_of_run (i := .tilRetireWrite u) (f := pfGuarded 0x300008 (writeRetire u)) rfl heffect
    have htil : t.til = (writeRetire u v).til := (views_til hv :)
    have htile : tileAt v u = tileAt s u := tileAt_of_til u (congrArg Til.tiles hvtil)
    have hlenv : u < v.til.tiles.length := hvtil ▸ hu
    refine ⟨t, ht, ?_⟩
    rw [← htile] at hactive
    rw [tileAt_of_til u (congrArg Til.tiles htil)]
  case idle =>
    rw [← htile] at hidle
    rw [htil, writeRetire_idle (by omega) hlenv hactive hidle]
    exact retireTile_retires 1 hlenv
  case busy =>
    rw [← htile] at hbusy
    rw [writeRetire_busy (by omega) hlenv hactive hbusy, tileAt_updTile_same _ (by exact hlenv)]
    exact ⟨hactive, rfl⟩

end Sys2Proof.Machine

/-! PROOF. The curtain's drop: what its stages leave (R31, R272, R451, R456, R457). -/

namespace Sys2Proof.Machine

open Sys2Proof.Claims

/-! ### Operations before their commit instant end (R31) -/

/-- Seats only commit: none appears, and the phase of each is as it was or committed. -/
def OnlyCommits (s t : State) : Prop :=
  ∀ k y, t.seats.get? k = some y → ∃ x, s.seats.get? k = some x ∧ (y.phase = x.phase ∨ y.phase = .committed)

theorem onlyCommits_refl (s : State) : OnlyCommits s s := fun _ y hy => ⟨y, hy, Or.inl rfl⟩

theorem onlyCommits_trans {s t u : State} (h : OnlyCommits s t) (g : OnlyCommits t u) : OnlyCommits s u := by
  intro k z hz
  obtain ⟨y, hy, hzy⟩ := g k z hz
  obtain ⟨x, hx, hyx⟩ := h k y hy
  refine ⟨x, hx, ?_⟩
  rcases hzy with hzy | hzy
  · rw [hzy]
    exact hyx
  · exact Or.inr hzy

/-- The end of an operation commits its seat or frees it, and leaves the phases of the others. -/
theorem endSeat_phase {k : Nat} {x y : Seat} {j : Nat} {st : Status} {s : State} (hx : s.seats.get? k = some x)
    (hy : (endSeat k st s).seats.get? j = some y) :
    (j = k ∧ y.phase = .committed) ∨ (j ≠ k ∧ ∃ z, s.seats.get? j = some z ∧ y.phase = z.phase) := by
  have hothers : OthersStay k s (dropRun k s) := othersStay_of_upd (dropRun_seats k s)
  have hkept (t : State) (ht : OthersStay k (dropRun k s) t) (hjk : j ≠ k) (hy : t.seats.get? j = some y) :
      ∃ z, s.seats.get? j = some z ∧ y.phase = z.phase := by
    rcases othersStay_trans hothers ht j hjk with ⟨hnone, -⟩ | ⟨z, o, hz, ho⟩
    · rw [hnone] at hy
      cases hy
    · obtain rfl := Option.some.inj (hy.symm.trans ho)
      exact ⟨z, hz, rfl⟩
  by_cases hjk : j = k
  · subst hjk
    refine Or.inl ⟨rfl, ?_⟩
    cases hd : x.detached with
    | true =>
      simp only [endSeat, hx, hd, if_true, releaseSeat_get?_self] at hy
      cases hy
    | false =>
      simp only [endSeat, hx, hd, Bool.false_eq_true, if_false, complete_seats, updSeat_seats, Tab.get?_upd, if_true] at hy
      obtain ⟨z, -, rfl⟩ := Option.map_eq_some_iff.1 hy
      rfl
  · refine Or.inr ⟨hjk, ?_⟩
    cases hd : x.detached with
    | true =>
      simp only [endSeat, hx, hd, if_true] at hy
      exact hkept _ (releaseSeat_others _ _) hjk hy
    | false =>
      simp only [endSeat, hx, hd, Bool.false_eq_true, if_false, complete_seats] at hy
      exact hkept _ (othersStay_of_upd rfl) hjk hy

theorem endSeat_commits (k : Nat) (st : Status) (s : State) : OnlyCommits s (endSeat k st s) := by
  intro j y hy
  cases hx : s.seats.get? k with
  | none =>
    simp only [endSeat, hx] at hy
    exact ⟨y, hy, Or.inl rfl⟩
  | some x =>
    rcases endSeat_phase hx hy with ⟨rfl, hc⟩ | ⟨-, z, hz, hp⟩
    · exact ⟨x, hx, Or.inr hc⟩
    · exact ⟨z, hz, Or.inl hp⟩

theorem endSeat_ends (k : Nat) (st : Status) (s : State) :
    OnlyEnds { s with writer := (endSeat k st s).writer } (endSeat k st s) := by
  have hcomplete (i : Item) (t : State) (ht : OnlyEnds s t) : OnlyEnds { s with writer := (complete i t).writer } (complete i t) := by
    have h := complete_endsWith i t
    unfold EndsWith handOver OnlyEnds at *
    rw [h, ht]
  have hends (t : State) (ht : OnlyEnds s t) : OnlyEnds { s with writer := t.writer } t := by
    rw [ht.writer]
    exact ht
  cases hx : s.seats.get? k with
  | none =>
    simp only [endSeat, hx]
    rfl
  | some x =>
    cases hd : x.detached with
    | true =>
      simp only [endSeat, hx, hd, if_true]
      exact hends _ (onlyEnds_trans (dropRun_ends k s) (releaseSeat_ends ..))
    | false =>
      simp only [endSeat, hx, hd, Bool.false_eq_true, if_false]
      exact hcomplete _ _ (onlyEnds_trans (dropRun_ends k s) (updSeat_ends ..))

/-- Operations that end one by one: each named seat is committed or free, and the others are as they were. -/
theorem foldl_endSeat (st : Status) (l : List Nat) (s : State) :
    OnlyCommits s (l.foldl (fun t k => endSeat k st t) s)
      ∧ OnlyEnds { s with writer := (l.foldl (fun t k => endSeat k st t) s).writer } (l.foldl (fun t k => endSeat k st t) s)
      ∧ ∀ k ∈ l, ∀ y, (l.foldl (fun t k => endSeat k st t) s).seats.get? k = some y → y.phase = .committed := by
  induction l generalizing s with
  | nil => exact ⟨onlyCommits_refl s, rfl, fun _ hk => absurd hk (List.not_mem_nil)⟩
  | cons j l ih =>
    obtain ⟨h1, h2, h3⟩ := ih (endSeat j st s)
    refine ⟨onlyCommits_trans (endSeat_commits j st s) h1, ?_, fun k hk y hy => ?_⟩
    · have hj := endSeat_ends j st s
      rw [List.foldl_cons]
      generalize l.foldl (fun t k => endSeat k st t) (endSeat j st s) = u at h2
      unfold OnlyEnds at *
      rw [h2, hj]
    · rcases List.mem_cons.1 hk with rfl | hk
      · obtain ⟨x, hx, hyx⟩ := h1 k y hy
        rcases hyx with hyx | hyx
        · cases hs : s.seats.get? k with
          | none =>
            simp only [endSeat, hs] at hx
            cases hx
          | some z =>
            rcases endSeat_phase hs hx with ⟨-, hc⟩ | ⟨hne, -⟩
            · exact hyx.trans hc
            · exact absurd rfl hne
        · exact hyx
      · exact h3 k hk y hy

/-- `s` as the operations end: the writer's queue and the batches carry E_CURTAIN. -/
def cutRecords (s : State) : State :=
  let cut (r : Record) : Record := { r with status := .curtain, outLen := 0 }
  let cutBatch (b : BatchItem) : BatchItem := { b with done := b.done.map fun r => if r.seatHint = 0xFFFF then r else cut r }
  { s with
    writer := s.writer.map (fun i => if i.seat.isSome then { i with stopped := true, record := cut i.record } else i),
    ush := { s.ush with rings := s.ush.rings.mapRows fun _ q => { q with batch := q.batch.map cutBatch } } }

theorem curtainOps_eq (s : State) :
    curtainOps s = (Tab.keys (s.seats.filter fun x => x.2.open)).foldl (fun t k => endSeat k .curtain t) (cutRecords s) := rfl

/-- A seat that has not committed is among those that end. -/
theorem mem_open_of_get? {s : State} {k : Nat} {x : Seat} (hx : s.seats.get? k = some x) (hp : x.phase ≠ .committed) :
    k ∈ Tab.keys (s.seats.filter fun x => x.2.open) :=
  List.mem_map.2 ⟨(k, x), List.mem_filter.2 ⟨mem_of_get? hx, by simp [Seat.open, hp]⟩, rfl⟩

/-- The curtain ends every operation that had not committed. -/
theorem curtainOps_leaves (s : State) :
    OnlyEnds { s with writer := (curtainOps s).writer, ush := (cutRecords s).ush } (curtainOps s)
      ∧ ∀ k y, (curtainOps s).seats.get? k = some y → y.phase = .committed := by
  rw [curtainOps_eq]
  obtain ⟨h1, h2, h3⟩ := foldl_endSeat .curtain (Tab.keys (s.seats.filter fun x => x.2.open)) (cutRecords s)
  refine ⟨h2, fun k y hy => ?_⟩
  obtain ⟨x, hx, hyx⟩ := h1 k y hy
  by_cases hp : x.phase = .committed
  · rcases hyx with hyx | hyx
    · exact hyx.trans hp
    · exact hyx
  · exact h3 k (mem_open_of_get? hx hp) y hy

/-! ### Volatile secrets (R296, R456) -/

theorem closeStreams_frame (s : State) : closeStreams s = { s with dig := (closeStreams s).dig } := by
  unfold closeStreams
  refine List.foldlRecOn (motive := fun t : State => t = { s with dig := t.dig }) _ _ rfl fun t ht i _ => ?_
  rw [ht]
  rfl

theorem foldl_closeStream_get? (l : List Nat) (i : Nat) (s : State) :
    (l.foldl (fun t j => closeStream j t) s).dig.streams.get? i = if i ∈ l then none else s.dig.streams.get? i := by
  induction l generalizing s with
  | nil => rfl
  | cons j l ih =>
    rw [List.foldl_cons, ih]
    simp only [closeStream, Tab.get?_del, List.mem_cons]
    by_cases hj : i = j
    · subst hj
      simp
    · simp [hj, Ne.symm hj]

theorem closeStreams_streams (s : State) : (closeStreams s).dig.streams = [] := by
  refine eq_nil_of_get? fun i => ?_
  unfold closeStreams
  rw [foldl_closeStream_get?]
  split
  · rfl
  · next h =>
    cases hi : s.dig.streams.get? i with
    | none => rfl
    | some x => exact absurd (List.mem_map.2 ⟨(i, x), mem_of_get? hi, rfl⟩) h

theorem endSession_forgets (s : State) : ForgetsTwin s (endSession s) := forgetsTwin_of_same rfl rfl rfl

theorem writeTwinPage_forgets (e : Nat) (c : List (Nat × Nat)) (p : Bool) (s : State) : ForgetsTwin s (writeTwinPage e c p s) := by
  unfold writeTwinPage
  split
  · exact forgetsTwin_of_same rfl rfl rfl
  · exact forgetsTwin_refl s

/-- An absence touches what an unpairing may touch (R411). -/
theorem declareAbsent_forgets (s : State) : ForgetsTwin s (declareAbsent s) := by
  refine forgetsTwin_trans (endSession_forgets s) ?_
  have habsent (u : State) : ForgetsTwin u (bump Ctr.absences 1 (event 0x0901 2 deviceWide [] u)) :=
    forgetsTwin_of_logs (onlyLogs_trans (event_logs ..) (bump_logs ..))
  unfold declareAbsent
  dsimp only
  split
  · split
    · exact unpair_forgets _
    · exact forgetsTwin_of_same rfl rfl rfl
  · split
    · exact forgetsTwin_refl _
    · refine forgetsTwin_trans (forgetsTwin_trans (t := { endSession s with
        twn := { (endSession s).twn with state := .absent },
        ten := { (endSession s).ten with homes := (endSession s).ten.homes.mapRows fun _ h => { h with adopted := false } } })
        (forgetsTwin_of_same rfl rfl rfl) (habsent _)) ?_
      split
      · exact forgetsTwin_refl _
      · exact writeTwinPage_forgets ..

/-- What stage 2 leaves of `s`. -/
structure SecretsGone (s t : State) : Prop where
  tmp : t.tmp = s.tmp
  now : t.now = s.now
  otp : t.otp = s.otp
  keys : t.keys.mkPresent = s.keys.mkPresent ∧ t.keys.sealPresent = s.keys.sealPresent
    ∧ t.keys.overwriteBusy = s.keys.overwriteBusy
  srcs : t.rng.srcs = s.rng.srcs
  streams : t.dig.streams = []
  insts : t.rng.insts = List.replicate 8 Drbg.first
  seats : ∀ k x, t.seats.get? k = some x → x.phase = .committed

/-- The secrets that stage 2 clears behind those of the streams and the DRBGs. -/
def clearSecrets (s : State) : State :=
  { s with keys := { s.keys with cache := [], pins := [] },
           pcie := { s.pcie with ide := s.pcie.ide.map Ide.cleared },
           scr := { s.scr with sides := [] }, lcs := { s.lcs with challenge := false },
           twn := { s.twn with record := s.twn.record.map fun r => { r with secret := none },
                               peerContext := [], asker := none } }

theorem curtainStage2_eq (s : State) :
    curtainStage2 s = endCeremony 0 (declareAbsent (clearSecrets (clearRandom (closeStreams (curtainOps s))))) := rfl

theorem clearRandom_phases {s : State} (h : ∀ k x, s.seats.get? k = some x → x.phase = .committed) (k : Nat) (x : Seat)
    (hx : (clearRandom s).seats.get? k = some x) : x.phase = .committed := by
  have hrows : (clearRandom s).seats = s.seats.mapRows fun _ y => { y with drbgInst := 8 } := rfl
  rw [hrows, Tab.get?_mapRows] at hx
  obtain ⟨y, hy, rfl⟩ := Option.map_eq_some_iff.1 hx
  exact h k y hy

theorem secretsGone_random (s : State) : SecretsGone s (clearSecrets (clearRandom (closeStreams (curtainOps s)))) := by
  obtain ⟨hends, hseats⟩ := curtainOps_leaves s
  have hstreams := closeStreams_streams (curtainOps s)
  have hframe := closeStreams_frame (curtainOps s)
  generalize closeStreams (curtainOps s) = u at *
  generalize curtainOps s = v at *
  have hkeys := hends.keys
  refine ⟨?_, ?_, ?_, ?_, ?_, hstreams, rfl, ?_⟩
  · exact Eq.trans (congrArg State.tmp hframe :) hends.tmp
  · exact Eq.trans (congrArg State.now hframe :) hends.now
  · exact Eq.trans (congrArg State.otp hframe :) hends.otp
  · have hk : u.keys = v.keys := (congrArg State.keys hframe :)
    dsimp only [clearSecrets, clearRandom]
    rw [hk, hkeys]
    exact ⟨rfl, rfl, rfl⟩
  · have hr : u.rng = v.rng := (congrArg State.rng hframe :)
    have hsrcs : v.rng.srcs = s.rng.srcs := by rw [hends]
    dsimp only [clearSecrets, clearRandom]
    rw [hr]
    exact hsrcs
  · have hs : u.seats = v.seats := (congrArg State.seats hframe :)
    exact fun k x hx => clearRandom_phases (s := u) (hs ▸ hseats) k x hx

theorem curtainStage2_leaves (s : State) : SecretsGone s (curtainStage2 s) := by
  have h := secretsGone_random s
  rw [curtainStage2_eq]
  generalize clearSecrets (clearRandom (closeStreams (curtainOps s))) = u at *
  have ha := declareAbsent_forgets u
  have hc := endCeremony_logs 0 (declareAbsent u)
  generalize declareAbsent u = v at *
  generalize endCeremony 0 v = w at *
  have hv := ha.only
  refine ⟨?_, ?_, ?_, ?_, ?_, ?_, ?_, fun k x hx => ?_⟩
  · rw [hc, hv]
    exact h.tmp
  · rw [hc, hv]
    exact h.now
  · rw [hc, hv]
    exact h.otp
  · rw [hc, hv]
    exact h.keys
  · rw [hc, hv]
    exact h.srcs
  · rw [hc, hv]
    exact h.streams
  · rw [hc, hv]
    exact h.insts
  · rw [hc] at hx
    obtain ⟨y, hy, hxy⟩ := ha.phases k x hx
    exact hxy.trans (h.seats k y hy)

/-! ### The drop (R451, R456, R457) -/

/-- What a drop leaves. -/
structure CurtainFalls (s t : State) : Prop where
  tmp : t.tmp = { s.tmp with dropTick := some s.now, curtainDown := true, raising := false }
  mkPresent : t.keys.mkPresent = false
  sealPresent : t.keys.sealPresent = false
  overwriteBusy : t.keys.overwriteBusy = (s.keys.overwriteBusy || !s.tmp.curtainDown)
  srcs : t.rng.srcs = s.rng.srcs
  streams : t.dig.streams = []
  insts : t.rng.insts = List.replicate 8 Drbg.first
  seats : ∀ k x, t.seats.get? k = some x → x.phase = .committed

theorem dropCurtain_falls {s : State} (ch : Nat) (h : s.tmp.dropTick ≠ some s.now) : CurtainFalls s (dropCurtain ch s) := by
  unfold dropCurtain
  rw [if_neg h]
  dsimp only
  have hlogs : OnlyLogs s (bump Ctr.tmpDrops 1 (event 0x0A04 4 deviceWide [byte ch] s)) :=
    onlyLogs_trans (event_logs ..) (bump_logs ..)
  generalize bump Ctr.tmpDrops 1 (event 0x0A04 4 deviceWide [byte ch] s) = u at *
  have h2 := curtainStage2_leaves (curtainStage1 { u with tmp := { u.tmp with dropTick := some u.now, curtainDown := true, raising := false } })
  generalize curtainStage2 _ = v at *
  obtain ⟨hmk, hseal, hbusy⟩ := h2.keys
  refine ⟨?_, hmk, hseal, ?_, h2.srcs.trans ?_, h2.streams, h2.insts, h2.seats⟩
  · refine h2.tmp.trans ?_
    rw [hlogs]
    rfl
  · dsimp only
    rw [hbusy, hlogs]
    rfl
  · rw [hlogs]
    rfl

theorem dropCurtain_mons (ch : Nat) (s : State) : (dropCurtain ch s).tmp.mons = s.tmp.mons ∧ (dropCurtain ch s).tmp.hold = s.tmp.hold := by
  by_cases h : s.tmp.dropTick = some s.now
  · rw [dropCurtain, if_pos h]
    exact ⟨rfl, rfl⟩
  · rw [(dropCurtain_falls ch h).tmp]
    exact ⟨rfl, rfl⟩

theorem dropCurtain_srcs (ch : Nat) (s : State) : (dropCurtain ch s).rng.srcs = s.rng.srcs := by
  by_cases h : s.tmp.dropTick = some s.now
  · rw [dropCurtain, if_pos h]
  · exact (dropCurtain_falls ch h).srcs

/-! ### Channels that count and fire (R449 to R451) -/

@[simp] theorem updMon_length (n : Nat) (f : Mon → Mon) (s : State) : (updMon n f s).tmp.mons.length = s.tmp.mons.length :=
  List.length_mapIdx

theorem monAt_updMon {n : Nat} {s : State} (f : Mon → Mon) (hn : n < s.tmp.mons.length) :
    monAt (updMon n f s) n = f (monAt s n) := by
  simp only [monAt, updMon, updAt, List.getElem?_mapIdx, List.getElem?_eq_getElem hn, Option.map_some, if_true, Option.getD_some]

theorem updMon_updMon (n : Nat) (f g : Mon → Mon) (s : State) : updMon n g (updMon n f s) = updMon n (fun m => g (f m)) s := by
  have h : updAt (updAt s.tmp.mons n f) n g = updAt s.tmp.mons n fun m => g (f m) := by
    simp only [updAt, List.mapIdx_mapIdx]
    refine congrArg (fun F => List.mapIdx F s.tmp.mons) (funext fun j => funext fun a => ?_)
    simp only [Function.comp_apply]
    split <;> rfl
  simp only [updMon, h]

/-- The monitor state as a channel fires, before its drop. -/
def firedTmp (n : Nat) (s : State) : Tmp :=
  let p := (monAt s n).policy
  let t := (updMon n (fun m => { m with stamps := [], lastFire := some (s.now, p) }) s).tmp
  { t with hold := if 2 ≤ p then true else t.hold, lastHold := if 2 ≤ p then some s.now else t.lastHold }

theorem fireChannel_eq (n : Nat) (s : State) :
    ∃ u, OnlyLogs { s with tmp := firedTmp n s } u
      ∧ fireChannel n s = if 3 ≤ (monAt s n).policy then dropCurtain n u else u := by
  have hraise (c : Prop) [Decidable c] (v : State) : OnlyLogs v (if c then raise 10 v else v) := by
    split
    · exact raise_logs ..
    · exact onlyLogs_refl v
  have hhold (p : Nat) (a v : State) (h : OnlyLogs a v) :
      OnlyLogs { a with tmp := { a.tmp with hold := if 2 ≤ p then true else a.tmp.hold,
                                            lastHold := if 2 ≤ p then some a.now else a.tmp.lastHold } }
        (if 2 ≤ p then { v with tmp := { v.tmp with hold := true, lastHold := some v.now } } else v) := by
    unfold OnlyLogs at *
    split
    · rw [h]
    · exact h
  refine ⟨_, ?_, rfl⟩
  exact hhold _ _ _ (onlyLogs_trans (onlyLogs_trans (bump_logs ..) (event_logs ..)) (hraise (1 ≤ (monAt s n).policy) _))

/-- What a channel that fires leaves, by its policy `p`. -/
structure Fires (n : Nat) (s t : State) : Prop where
  mon : monAt t n = { monAt s n with stamps := [], lastFire := some (s.now, (monAt s n).policy) }
  quiet : (monAt s n).policy ≤ 1 → t.tmp.hold = s.tmp.hold ∧ t.tmp.curtainDown = s.tmp.curtainDown
  holds : 2 ≤ (monAt s n).policy → t.tmp.hold = true
  drops : 3 ≤ (monAt s n).policy → s.tmp.dropTick ≠ some s.now → t.tmp.curtainDown = true ∧ t.keys.mkPresent = false
    ∧ t.keys.sealPresent = false ∧ t.dig.streams = [] ∧ t.rng.insts = List.replicate 8 Drbg.first
    ∧ (s.tmp.curtainDown = false → t.keys.overwriteBusy = true)
    ∧ ∀ k x, t.seats.get? k = some x → x.phase = .committed

theorem fireChannel_fires {n : Nat} {s : State} (hn : n < s.tmp.mons.length) : Fires n s (fireChannel n s) := by
  obtain ⟨u, hu, hfire⟩ := fireChannel_eq n s
  have hmon := monAt_updMon (fun m => { m with stamps := [], lastFire := some (s.now, (monAt s n).policy) }) hn
  have htmp : u.tmp = firedTmp n s := by rw [hu]
  have hmonu : monAt u n = { monAt s n with stamps := [], lastFire := some (s.now, (monAt s n).policy) } := by
    exact (monAt_of_tmp (t := u) (s := { s with tmp := firedTmp n s }) n htmp).trans hmon
  rw [hfire]
  split
  · next hp =>
    obtain ⟨hmons, hhold⟩ := dropCurtain_mons n u
    refine ⟨?_, fun h1 => absurd (hp.trans h1) (by decide), fun _ => ?_, fun _ hdrop => ?_⟩
    · rw [← hmonu]
      simp only [monAt, hmons]
    · rw [hhold, htmp]
      exact if_pos (by omega)
    · have hnow : u.now = s.now := by rw [hu]
      have hbusy : u.keys.overwriteBusy = s.keys.overwriteBusy := by rw [hu]
      have hfall := dropCurtain_falls n (s := u) (by rw [htmp, hnow]; exact hdrop)
      refine ⟨by rw [hfall.tmp], hfall.mkPresent, hfall.sealPresent, hfall.streams, hfall.insts, fun hdown => ?_, hfall.seats⟩
      rw [hfall.overwriteBusy, htmp]
      simp [firedTmp, updMon, hdown]
  · next hp =>
    refine ⟨hmonu, fun h1 => ?_, fun h2 => ?_, fun h3 => absurd h3 hp⟩
    · rw [htmp]
      exact ⟨if_neg (by omega), rfl⟩
    · rw [htmp]
      exact if_pos h2

/-- The stamps of a channel with the present event, and their number in its window. -/
def eventStamps (n : Nat) (s : State) : List Nat := within ((monAt s n).stamps ++ [s.now]) s.now (2 ^ 24)
def eventCount (n : Nat) (s : State) : Nat := (within (eventStamps n s) s.now (monAt s n).w).length

/-- An event is counted. -/
def counted (n : Nat) (s : State) : State :=
  let t := bump (Ctr.tmpEvents n) 1 (updMon n (fun m => { m with stamps := eventStamps n s }) s)
  if n = 47 then trouble 14 t else t

theorem counted_views (n : Nat) (s : State) :
    OnlyViews (bump (Ctr.tmpEvents n) 1 (updMon n (fun m => { m with stamps := eventStamps n s }) s)) (counted n s) := by
  unfold counted
  dsimp only
  split
  · exact trouble_views ..
  · exact onlyViews_refl _

/-- An event is counted, and fires its channel where the window holds K (R449, R450). -/
theorem countEvent_eq {n : Nat} {s : State} (hlc : lc s ≠ .scrapped) :
    countEvent n s = if (monAt s n).k ≤ eventCount n s then fireChannel n (counted n s) else counted n s := by
  have hnow : (counted n s).now = s.now := (views_now (counted_views n s) :)
  rw [countEvent, if_neg hlc]
  change (if (monAt s n).k ≤ (within (eventStamps n s) (counted n s).now (monAt s n).w).length then _ else _) = _
  rw [hnow]
  rfl

theorem countEvent_counts {n : Nat} {s : State} (hlc : lc s ≠ .scrapped) (hk : eventCount n s < (monAt s n).k) :
    OnlyViews (bump (Ctr.tmpEvents n) 1 (updMon n (fun m => { m with stamps := eventStamps n s }) s)) (countEvent n s) := by
  rw [countEvent_eq hlc, if_neg (Nat.not_le.2 hk)]
  exact counted_views n s

theorem countEvent_fires {n : Nat} {s : State} (hlc : lc s ≠ .scrapped) (hn : n < s.tmp.mons.length)
    (hk : (monAt s n).k ≤ eventCount n s) : Fires n s (countEvent n s) := by
  rw [countEvent_eq hlc, if_pos hk]
  have hv := counted_views n s
  have hmon := monAt_updMon (fun m => { m with stamps := eventStamps n s }) hn
  generalize counted n s = u at hv
  have htmp : u.tmp = (updMon n (fun m => { m with stamps := eventStamps n s }) s).tmp := (views_tmp hv :)
  have hmonu : monAt u n = { monAt s n with stamps := eventStamps n s } := (monAt_of_tmp n htmp).trans hmon
  have hnow : u.now = s.now := (views_now hv :)
  obtain ⟨h1, h2, h3, h4⟩ := fireChannel_fires (n := n) (s := u) (by rw [htmp, updMon_length]; exact hn)
  rw [hmonu] at h1 h2 h3 h4
  rw [hnow] at h1 h4
  rw [htmp] at h2 h4
  exact ⟨h1, h2, h3, h4⟩

/-- Whatever an event does, of its channel it changes only the stamps and the last firing. -/
theorem countEvent_mon {n : Nat} {s : State} (hn : n < s.tmp.mons.length) :
    ∃ st lf, monAt (countEvent n s) n = { monAt s n with stamps := st, lastFire := lf } := by
  by_cases hlc : lc s = .scrapped
  · rw [countEvent, if_pos hlc]
    exact ⟨_, _, rfl⟩
  · rcases Nat.lt_or_ge (eventCount n s) (monAt s n).k with hk | hk
    · have hv := countEvent_counts hlc hk
      have htmp : (countEvent n s).tmp = (updMon n (fun m => { m with stamps := eventStamps n s }) s).tmp := (views_tmp hv :)
      rw [monAt_of_tmp n htmp, monAt_updMon _ hn]
      exact ⟨_, _, rfl⟩
    · exact ⟨_, _, (countEvent_fires hlc hn hk).mon⟩

/-- No event touches the entropy sources. -/
theorem countEvent_srcs (n : Nat) (s : State) : (countEvent n s).rng.srcs = s.rng.srcs := by
  by_cases hlc : lc s = .scrapped
  · rw [countEvent, if_pos hlc]
  · have hv := counted_views n s
    have hrng : (counted n s).rng = s.rng := (views_rng hv :)
    rw [countEvent_eq hlc]
    split
    · obtain ⟨u, hu, hfire⟩ := fireChannel_eq n (counted n s)
      have hsrcs : u.rng.srcs = s.rng.srcs := by rw [hu]; exact congrArg Rng.srcs hrng
      rw [hfire]
      split
      · exact (dropCurtain_srcs n u).trans hsrcs
      · exact hsrcs
    · exact congrArg Rng.srcs hrng

/-! ### Kinds of channels, and their commands (R444 to R448) -/

theorem lt_of_eventChannel {n : Nat} (h : eventChannel n = true) : n < 48 := by
  simp only [eventChannel, Bool.or_eq_true, Bool.and_eq_true, decide_eq_true_eq] at h
  omega

theorem lt_of_levelChannel {n : Nat} (h : levelChannel n = true) : n < 48 := by
  simp only [levelChannel, Bool.and_eq_true, decide_eq_true_eq] at h
  exact h.1

theorem lc_of_monitorsRun {s : State} (h : monitorsRun s = true) : lc s ≠ .scrapped := by
  simp only [monitorsRun, Bool.and_eq_true, bne_iff_ne, ne_eq] at h
  exact h.2

/-- The effect of CHANNEL_EVENT. -/
def channelEvent (n : Nat) (s : State) : State := if monitorsRun s && eventChannel n && n != 45 then countEvent n s else s

/-- A level condition that asserts, before its event is counted. -/
def asserting (n : Nat) (s : State) : State :=
  updMon n (fun m => { m with asserted := true, raw := true, heldRaised := false }) s

theorem assertLevel_eq {n : Nat} {s : State} (hrun : monitorsRun s = true) (hlevel : levelChannel n = true)
    (ha : (monAt s n).asserted = false) :
    assertLevel n s = countEvent n (if n = 39 then shadowDiffers (asserting n s) else asserting n s) := by
  rw [assertLevel, if_neg (by simp [hrun, hlevel, ha])]
  rfl

/-- A shadow that differs is no channel's business but 39's, and leaves the channels as they are. -/
theorem shadowDiffers_frame (s : State) :
    (shadowDiffers s).tmp.mons = s.tmp.mons ∧ (shadowDiffers s).now = s.now ∧ (shadowDiffers s).otp = s.otp
      ∧ (shadowDiffers s).lcs = s.lcs := by
  unfold shadowDiffers
  split <;> exact ⟨rfl, rfl, rfl, rfl⟩

theorem monAt_of_mons {s t : State} (n : Nat) (h : t.tmp.mons = s.tmp.mons) : monAt t n = monAt s n := by
  rw [monAt, monAt, h]

/-- An asserting channel has the event as a channel that was asserted all along would. -/
theorem asserting_counts {n : Nat} {s : State} (hn : n < s.tmp.mons.length) :
    eventCount n (asserting n s) = eventCount n s ∧ (monAt (asserting n s) n).k = (monAt s n).k := by
  have h : monAt (asserting n s) n = _ := monAt_updMon (fun m => { m with asserted := true, raw := true, heldRaised := false }) hn
  refine ⟨?_, ?_⟩
  · rw [eventCount, eventStamps, h]
    rfl
  · rw [h]

theorem heldOn_eq {n : Nat} {s : State} (hrun : monitorsRun s = true) (ha : (monAt s n).asserted = true)
    (hh : (monAt s n).heldRaised = false) :
    OnlyLogs (updMon n (fun m => { m with heldRaised := true }) s) (heldOn n s) := by
  rw [heldOn, if_neg (by simp [hrun, ha, hh])]
  dsimp only
  split
  · exact onlyLogs_trans (event_logs ..) (raise_logs ..)
  · exact event_logs ..

/-- What of an event the outside sees of its channel. -/
theorem mon_of_run {i : Instr} {f : State → State} {s : State} (n : Nat) (h : exec i s = run f s) :
    ∃ t, exec i s = .next t ∧ monAt t n = monAt (f s) n := by
  obtain ⟨t, ht, hv⟩ := views_of_run h rfl
  exact ⟨t, ht, monAt_of_tmp n (views_tmp hv :)⟩

theorem Fires.views {n : Nat} {s u t : State} (h : Fires n s u) (hv : OnlyViews { u with pending := s.pending, otp := s.otp } t) :
    Fires n s t := by
  have htmp : t.tmp = u.tmp := (views_tmp hv :)
  have hkeys : t.keys = u.keys := (views_keys hv :)
  have hdig : t.dig = u.dig := (views_dig hv :)
  have hrng : t.rng = u.rng := (views_rng hv :)
  have hseats : t.seats = u.seats := (views_seats hv :)
  obtain ⟨h1, h2, h3, h4⟩ := h
  refine ⟨(monAt_of_tmp n htmp).trans h1, ?_, ?_, ?_⟩
  · rw [htmp]
    exact h2
  · rw [htmp]
    exact h3
  · rw [htmp, hkeys, hdig, hrng, hseats]
    exact h4

/-- Settles O38: an event by whether its window holds K, a level by the event that its assertion is. -/
theorem channelEvents : Obligations.ChannelEvents := by
  unfold Obligations.ChannelEvents
  refine ⟨fun s n hrun hkind h45 hlen => ⟨fun hk => ?counts, fun hk => ?fires⟩, fun s n hno => ?none,
    fun s n hrun hlevel hlen => ⟨fun ha => ?asserted, fun ha h39 hk => ?counts', fun ha => ?asserts, fun hok => ?releases,
      fun h39 hbad => ?stays, ?clears, ?chatters, fun ha hh => ?held, fun hno => ?notHeld⟩⟩
  case counts =>
    refine leadsTo_of_views (f := channelEvent n) rfl ?_ rfl rfl
    rw [channelEvent, if_pos (by simp [hrun, hkind, h45])]
    exact countEvent_counts (lc_of_monitorsRun hrun) hk
  case fires =>
    have hu : channelEvent n s = countEvent n s := if_pos (by simp [hrun, hkind, h45])
    obtain ⟨t, ht, hv⟩ := views_of_run (i := .channelEvent n) (f := channelEvent n) rfl hu
    have hf := (countEvent_fires (lc_of_monitorsRun hrun) (hlen ▸ lt_of_eventChannel hkind) hk).views hv
    refine ⟨t, ht, ?_, ?_, hf.quiet, hf.holds, hf.drops⟩
    · rw [hf.mon]
    · rw [hf.mon]
  case none =>
    refine leadsTo_of_run (f := channelEvent n) rfl ?_ rfl rfl
    refine if_neg ?_
    rcases hno with h | h | h <;> simp [h]
  case asserted =>
    exact leadsTo_of_run (f := assertLevel n) rfl (if_pos (by simp [ha])) rfl rfl
  case counts' =>
    have hn : n < s.tmp.mons.length := hlen ▸ lt_of_levelChannel hlevel
    obtain ⟨hcount, hkk⟩ := asserting_counts hn
    have hv := countEvent_counts (n := n) (s := asserting n s) (lc_of_monitorsRun hrun) (by rw [hcount, hkk]; exact hk)
    refine leadsTo_of_views (f := assertLevel n) rfl ?_ rfl rfl
    rw [assertLevel_eq hrun hlevel ha, if_neg h39]
    have hmon : monAt (asserting n s) n = _ := monAt_updMon (fun m => { m with asserted := true, raw := true, heldRaised := false }) hn
    have hstamps : eventStamps n (asserting n s) = eventStamps n s := by
      rw [eventStamps, hmon]
      rfl
    rw [hstamps, asserting, updMon_updMon] at hv
    exact hv
  case asserts =>
    have hn : n < s.tmp.mons.length := hlen ▸ lt_of_levelChannel hlevel
    obtain ⟨hmons, hnow, hotp, hlcs⟩ := shadowDiffers_frame (asserting n s)
    obtain ⟨t, ht, hv⟩ := views_of_run (i := .levelAssert n) (f := assertLevel n) rfl (assertLevel_eq hrun hlevel ha)
    have hframe : ∀ u : State, u = (if n = 39 then shadowDiffers (asserting n s) else asserting n s) →
        u.tmp.mons = (asserting n s).tmp.mons ∧ u.now = s.now ∧ u.otp = s.otp ∧ u.lcs = s.lcs := by
      intro u hu
      rw [hu]
      split
      · exact ⟨hmons, hnow, hotp, hlcs⟩
      · exact ⟨rfl, rfl, rfl, rfl⟩
    obtain ⟨umons, unow, uotp, ulcs⟩ := hframe _ rfl
    generalize (if n = 39 then shadowDiffers (asserting n s) else asserting n s) = u at *
    have hmon : monAt (asserting n s) n = _ := monAt_updMon (fun m => { m with asserted := true, raw := true, heldRaised := false }) hn
    have hmonu := (monAt_of_mons n umons).trans hmon
    have hnu : n < u.tmp.mons.length := by rw [umons, asserting, updMon_length]; exact hn
    have hmont : monAt t n = monAt (countEvent n u) n := monAt_of_tmp n (views_tmp hv :)
    obtain ⟨st, lf, hst⟩ := countEvent_mon hnu
    refine ⟨t, ht, ?_, fun hk => ?_⟩
    · rw [hmont, hst, hmonu]
    · have hf := countEvent_fires (n := n) (s := u) ?_ hnu ?_
      · rw [hmont, hf.mon, hmonu, unow]
        exact ⟨rfl, rfl⟩
      · have := lc_of_monitorsRun hrun
        simpa only [lc, uotp, ulcs] using this
      · rw [eventCount, eventStamps, hmonu, unow]
        exact hk
  case releases =>
    refine leadsTo_of_run (f := releaseLevel n) rfl ?_ rfl rfl
    refine if_neg ?_
    rcases hok with h | ⟨h1, h2⟩
    · simp [hrun, h]
    · simp [hrun, h1, h2]
  case stays =>
    refine leadsTo_of_run (f := releaseLevel n) rfl (if_pos ?_) rfl rfl
    rcases hbad with h | h
    · simp [h39, h]
    · simp [h39, h]
  case clears => exact leadsTo_of_run (f := updMon n fun m => { m with chatter := 0 }) rfl rfl rfl rfl
  case chatters =>
    have hn : n < s.tmp.mons.length := hlen ▸ lt_of_levelChannel hlevel
    obtain ⟨t, ht, hmont⟩ := mon_of_run (i := .chatterEvent n) (f := chatterReaches n) (s := s) n rfl
    have hu : chatterReaches n s = countEvent n (bump (Ctr.tmpChatter n) 1
        (event 0x0A02 1 deviceWide [byte n] (updMon n (fun m => { m with chatter := 0 }) s))) :=
      if_neg (by simp [hrun, hlevel])
    refine ⟨t, ht, ?_⟩
    rw [hmont, hu]
    have htmp : (bump (Ctr.tmpChatter n) 1 (event 0x0A02 1 deviceWide [byte n] (updMon n (fun m => { m with chatter := 0 }) s))).tmp
        = (updMon n (fun m => { m with chatter := 0 }) s).tmp := event_tmp ..
    obtain ⟨st, lf, hst⟩ := countEvent_mon (n := n) (by rw [htmp, updMon_length]; exact hn)
    rw [hst, monAt_of_tmp n htmp, monAt_updMon _ hn]
  case held =>
    have hn : n < s.tmp.mons.length := hlen ▸ lt_of_levelChannel hlevel
    have hl := heldOn_eq hrun ha hh
    obtain ⟨t, ht, hv⟩ := views_of_run (i := .heldEvent n) (f := heldOn n) (s := s) rfl rfl
    have htmp : (heldOn n s).tmp = (updMon n (fun m => { m with heldRaised := true }) s).tmp := by rw [hl]
    refine ⟨t, ht, ?_, Eq.trans (views_seats hv :) ?_, Eq.trans (views_keys hv :) ?_⟩
    · rw [monAt_of_tmp n (Eq.trans (views_tmp hv :) htmp), monAt_updMon _ hn]
    · rw [hl]
      rfl
    · rw [hl]
      rfl
  case notHeld =>
    refine leadsTo_of_run (f := heldOn n) rfl (if_pos ?_) rfl rfl
    rcases hno with h | h <;> simp [h]

end Sys2Proof.Machine

/-! PROOF. The end of HOLD, stage 3, and the curtain's drop and raise by the manager (R253, R272, R452, R456 to R459). -/

namespace Sys2Proof.Machine

open Sys2Proof.Claims

/-! ### Stage 3 empties the table (R272) -/

/-- Keys only end: a slot that is occupied is as it was. -/
def KeysEnd (s t : State) : Prop :=
  ∀ i y, t.keys.slots.get? i = some y → y.occupied = true → s.keys.slots.get? i = some y

theorem keysEnd_of_slots {s t : State} (h : t.keys.slots = s.keys.slots) : KeysEnd s t := fun _ _ hy _ => h ▸ hy

theorem keysEnd_trans {s t u : State} (h : KeysEnd s t) (g : KeysEnd t u) : KeysEnd s u :=
  fun i y hy ho => h i y (g i y hy ho) ho

theorem endPin_slots (i : Nat) (s : State) : (endPin i s).keys.slots = s.keys.slots := by
  unfold endPin
  split <;> rfl

theorem endKey_get? (i seq j : Nat) (s : State) (y : Slot) (hy : (endKey i seq s).keys.slots.get? j = some y)
    (ho : y.occupied = true) : j ≠ i ∧ s.keys.slots.get? j = some y := by
  cases hx : s.keys.slots.get? i with
  | none =>
    simp only [endKey, hx] at hy
    refine ⟨?_, hy⟩
    rintro rfl
    rw [hx] at hy
    cases hy
  | some x =>
    cases hxo : x.occupied with
    | false =>
      simp only [endKey, hx, hxo, Bool.not_false, if_true] at hy
      refine ⟨?_, hy⟩
      rintro rfl
      obtain rfl := Option.some.inj (hx.symm.trans hy)
      rw [ho] at hxo
      cases hxo
    | true =>
      simp only [endKey, hx, hxo, Bool.not_true, Bool.false_eq_true, if_false, endPin_slots, Tab.get?_put] at hy
      split at hy
      · obtain rfl := Option.some.inj hy
        cases ho
      · next hne => exact ⟨Ne.symm hne, hy⟩

theorem endKey_ends (i seq : Nat) (s : State) : KeysEnd s (endKey i seq s) :=
  fun j y hy ho => (endKey_get? i seq j s y hy ho).2

theorem foldl_endKey {α : Type} (f : α → Nat) (seq : Nat) (l : List α) (s : State) :
    KeysEnd s (l.foldl (fun t x => endKey (f x) seq t) s)
      ∧ ∀ x ∈ l, ∀ y, (l.foldl (fun t x => endKey (f x) seq t) s).keys.slots.get? (f x) = some y → y.occupied = false := by
  induction l generalizing s with
  | nil => exact ⟨keysEnd_of_slots rfl, fun _ hx => absurd hx List.not_mem_nil⟩
  | cons a l ih =>
    obtain ⟨h1, h2⟩ := ih (endKey (f a) seq s)
    refine ⟨keysEnd_trans (endKey_ends (f a) seq s) h1, fun x hx y hy => ?_⟩
    rcases List.mem_cons.1 hx with rfl | hx
    · by_contra ho
      rw [Bool.not_eq_false] at ho
      exact (endKey_get? _ seq _ s y (h1 _ y hy ho) ho).1 rfl
    · exact h2 x hx y hy

/-- A partition that is emptied holds no key, and the keys of the others stay. -/
theorem emptyPartition_ends (f : Nat) (s : State) :
    KeysEnd s (emptyPartition f s)
      ∧ ∀ i y, (emptyPartition f s).keys.slots.get? i = some y → y.owner = f → y.occupied = false := by
  have hslots : (writeRecord (.partitionErase f) s).keys.slots = s.keys.slots := by
    rw [writeRecord_only (.partitionErase f) s]
  obtain ⟨h1, h2⟩ := foldl_endKey Prod.fst (writeRecord (.partitionErase f) s).keys.seq
    (slotsOf (writeRecord (.partitionErase f) s) f) (writeRecord (.partitionErase f) s)
  refine ⟨keysEnd_trans (keysEnd_of_slots hslots) h1, fun i y hy hf => ?_⟩
  by_contra ho
  rw [Bool.not_eq_false] at ho
  have hmem : (i, y) ∈ slotsOf (writeRecord (.partitionErase f) s) f :=
    List.mem_filter.2 ⟨mem_of_get? (h1 i y hy ho), by simp [ho, hf]⟩
  have hocc : y.occupied = false := h2 (i, y) hmem y hy
  rw [ho] at hocc
  cases hocc

theorem foldl_emptyPartition (l : List Nat) (s : State) :
    KeysEnd s (l.foldl (fun t f => emptyPartition f t) s)
      ∧ ∀ i y, (l.foldl (fun t f => emptyPartition f t) s).keys.slots.get? i = some y → y.owner ∈ l → y.occupied = false := by
  induction l generalizing s with
  | nil => exact ⟨keysEnd_of_slots rfl, fun _ _ _ hx => absurd hx List.not_mem_nil⟩
  | cons f l ih =>
    obtain ⟨h1, h2⟩ := ih (emptyPartition f s)
    obtain ⟨g1, g2⟩ := emptyPartition_ends f s
    refine ⟨keysEnd_trans g1 h1, fun i y hy hf => ?_⟩
    by_contra ho
    rw [Bool.not_eq_false] at ho
    rcases List.mem_cons.1 hf with hf | hf
    · have := g2 i y (h1 i y hy ho) hf
      rw [ho] at this
      cases this
    · have := h2 i y hy hf
      rw [ho] at this
      cases this

/-- `s` with the partitions of the functions in `l` emptied, and the overwrite over. -/
def emptied (l : List Nat) (s : State) : State :=
  let t := l.foldl (fun t f => emptyPartition f t) s
  { t with keys := { t.keys with overwriteBusy := false } }

theorem emptied_empties {l : List Nat} {s : State} (howner : ∀ i y, s.keys.slots.get? i = some y → y.owner ∈ l) :
    (emptied l s).keys.overwriteBusy = false ∧ ∀ i y, (emptied l s).keys.slots.get? i = some y → y.occupied = false := by
  obtain ⟨h1, h2⟩ := foldl_emptyPartition l s
  refine ⟨rfl, fun i y hy => ?_⟩
  by_contra ho
  rw [Bool.not_eq_false] at ho
  have := h2 i y hy (howner i y (h1 i y hy ho))
  rw [ho] at this
  cases this

theorem mem_range_of_le {m n : Nat} (h : m ≤ n) : m ∈ List.range (n + 1) := List.mem_range.2 (Nat.lt_succ_of_le h)

theorem stage3Done_empties {s : State} (hbusy : s.keys.overwriteBusy = true)
    (howner : ∀ i y, s.keys.slots.get? i = some y → y.owner ≤ Config.vfTotal) :
    (stage3Done s).keys.overwriteBusy = false
      ∧ ∀ i y, (stage3Done s).keys.slots.get? i = some y → y.occupied = false := by
  have hdone : stage3Done s = emptied (List.range (Config.vfTotal + 1)) s := if_neg (by simp [hbusy])
  rw [hdone]
  exact emptied_empties fun i y hy => mem_range_of_le (howner i y hy)

/-! ### The manager's drop and raise (R456 to R459) -/

/-- `s` with the shadow of the register at `off` repaired. -/
def repaired (off : Nat) (s : State) : State :=
  { s with tmp := { s.tmp with shadowBad := s.tmp.shadowBad.filter fun o => o != off } }

theorem pfGuarded_eq_repaired {off : Nat} {f : State → State} {s : State} (h : Takes s) :
    pfGuarded off f s = f (repaired off s) := by
  obtain ⟨hretry, hlc, hready, hpairs⟩ := h
  exact pfGuarded_takes hretry hlc hready hpairs

/-- With a window of one tick, the present event alone is in it. -/
theorem eventCount_pos {n : Nat} {s : State} (hw : (monAt s n).w = 1) : 1 ≤ eventCount n s := by
  refine List.length_pos_iff_exists_mem.2 ⟨s.now, List.mem_filter.2 ⟨List.mem_filter.2 ⟨List.mem_append_right _ (List.mem_singleton.2 rfl), ?_⟩, ?_⟩⟩
  · exact decide_eq_true (by omega)
  · rw [hw]
    exact decide_eq_true (by omega)

theorem consumeApproval_some {a : Nat} {b : Bytes} {s u : State} (h : consumeApproval a b s = some u) :
    u = { s with tkb := { s.tkb with approval := .none } } := by
  unfold consumeApproval at h
  split at h
  · split at h
    · exact (Option.some.inj h).symm
    · cases h
  · cases h

theorem raiseCurtain_raises {s : State} (h : (drawBytes 32 s).isSome = true) :
    (raiseCurtain s).tmp.curtainDown = false ∧ (raiseCurtain s).keys.mkPresent = true
      ∧ (raiseCurtain s).keys.mkGen = s.keys.mkGen + 1 := by
  obtain ⟨t, ht⟩ := newMasterKey_isSome h
  have hnew := newMasterKey_some ht
  simp only [raiseCurtain, ht, event_tmp, event_keys]
  exact ⟨trivial, hnew.mkPresent, hnew.mkGen⟩

/-- The effect of HOLD_END. -/
def endHold (s : State) : State := if holdStands s then s else { s with tmp := { s.tmp with hold := false } }

/-- The effect of CURTAIN_RAISE. -/
def curtainRises (s : State) : State :=
  if s.tmp.raising && s.tmp.curtainDown && !s.keys.overwriteBusy then raiseCurtain s
  else if s.tmp.raising && !s.tmp.curtainDown && !s.keys.mkPresent then awaitedKey s
  else s

/-- Settles O39: HOLD and the raise by their guards, stage 3 partition by partition, the drop as the firing of channel 45. -/
theorem holdAndCurtain : Obligations.HoldAndCurtain := by
  unfold Obligations.HoldAndCurtain
  refine fun s => ⟨fun hold => ?ends, fun hold => ?stands, fun hbusy howner => ?empties, fun hbusy => ?idle,
    fun htakes hlen hp hk hw hdrop => ?drops,
    fun htakes hbad => ⟨fun r hr => ?blocked, fun hb ha => ?accepted, fun hb ha => ⟨fun hc => ?missing, fun u hu => ?approved⟩⟩,
    fun hr hd hb hdraw => ?rises, fun hr => ?notRaising⟩
  case ends => exact leadsTo_of_run (f := endHold) rfl (if_neg (ne_true_of_eq_false hold)) rfl rfl
  case stands => exact leadsTo_of_run (f := endHold) rfl (if_pos hold) rfl rfl
  case empties =>
    obtain ⟨t, ht, hv⟩ := views_of_run (i := .curtainStage3Done) (f := stage3Done) (s := s) rfl rfl
    have hkeys : t.keys = (stage3Done s).keys := (views_keys hv :)
    refine ⟨t, ht, ?_⟩
    rw [hkeys]
    exact stage3Done_empties hbusy howner
  case idle =>
    exact leadsTo_of_run (f := stage3Done) rfl (if_pos (by simp [hbusy])) rfl rfl
  case drops =>
    have hlc : lc (repaired 0x480008 s) ≠ .scrapped := htakes.2.1
    have hf := countEvent_fires (n := 45) (s := repaired 0x480008 s) hlc (by rw [show (repaired _ s).tmp.mons.length = 48 from hlen]; decide)
      (by rw [show (monAt (repaired _ s) 45).k = 1 from hk]; exact eventCount_pos hw)
    obtain ⟨t, ht, hv⟩ := views_of_run (i := .tmpCurtainDrop) (f := pfGuarded 0x480008 (countEvent 45)) rfl (pfGuarded_eq_repaired htakes)
    obtain ⟨hdown, hmk, -⟩ := hf.drops (by rw [show (monAt (repaired _ s) 45).policy = 3 from hp]) hdrop
    exact ⟨t, ht, Eq.trans (congrArg Tmp.curtainDown (views_tmp hv) :) hdown, Eq.trans (congrArg Keys.mkPresent (views_keys hv) :) hmk⟩
  case blocked =>
    refine leadsTo_of_run (f := pfGuarded 0x480008 requestRaise) rfl ?_ rfl rfl
    rw [pfGuarded_of_takes htakes hbad]
    simp only [requestRaise, hr]
    rfl
  case accepted =>
    refine leadsTo_of_run (f := pfGuarded 0x480008 requestRaise) rfl ?_ rfl rfl
    rw [pfGuarded_of_takes htakes hbad]
    simp only [requestRaise, hb, ha, Bool.false_eq_true, if_false]
    rfl
  case missing =>
    refine leadsTo_of_run (f := pfGuarded 0x480008 requestRaise) rfl ?_ rfl rfl
    rw [pfGuarded_of_takes htakes hbad]
    simp only [requestRaise, hb, ha, if_true, hc]
    rfl
  case approved =>
    refine leadsTo_of_run (f := pfGuarded 0x480008 requestRaise) rfl ?_ rfl rfl
    rw [pfGuarded_of_takes htakes hbad]
    simp only [requestRaise, hb, ha, if_true, hu]
    rw [consumeApproval_some hu]
    rfl
  case rises =>
    have hu : curtainRises s = raiseCurtain s := if_pos (by simp [hr, hd, hb])
    obtain ⟨t, ht, hv⟩ := views_of_run (i := .curtainRaise) (f := curtainRises) rfl hu
    obtain ⟨h1, h2, h3⟩ := raiseCurtain_raises hdraw
    exact ⟨t, ht, Eq.trans (congrArg Tmp.curtainDown (views_tmp hv) :) h1, Eq.trans (congrArg Keys.mkPresent (views_keys hv) :) h2,
      Eq.trans (congrArg Keys.mkGen (views_keys hv) :) h3⟩
  case notRaising =>
    refine leadsTo_of_run (f := curtainRises) rfl ?_ rfl rfl
    rw [curtainRises, if_neg (by simp [hr]), if_neg (by simp [hr])]

end Sys2Proof.Machine

/-! PROOF. Policies and filters keep to their floors (R454, R455), and the backup domain's latch (R453, R460, R461). -/

namespace Sys2Proof.Machine

open Sys2Proof.Claims

/-! ### Policies and filters (R455) -/

@[simp] theorem policyResult_tmp (n r : Nat) (s : State) :
    (policyResult n r s).tmp = { s.tmp with policyChannel := n, policyResult := r } := event_tmp ..

@[simp] theorem policyResult_tkb (n r : Nat) (s : State) : (policyResult n r s).tkb = s.tkb := event_tkb ..

/-- What a write that changes channel `n` by `f` leaves. -/
structure Changed (n : Nat) (f : Mon → Mon) (s t : State) : Prop where
  mon : monAt t n = f (monAt s n)
  result : t.tmp.policyResult = 0

theorem changed_of_updMon {n : Nat} {f : Mon → Mon} {s : State} (hn : n < s.tmp.mons.length) :
    Changed n f s (policyResult n 0 (updMon n f s)) := by
  refine ⟨?_, by simp⟩
  rw [← monAt_updMon f hn]
  exact monAt_of_mons n (by simp)

theorem guardedChange_tightens {n r : Nat} {f : Mon → Mon} {s : State} (hn : n < s.tmp.mons.length) :
    Changed n f s (guardedChange n false r f s) := changed_of_updMon hn

theorem guardedChange_refuses {n r : Nat} {f : Mon → Mon} {s : State} (h : consumeApproval 8 [byte n, byte r] s = none) :
    (guardedChange n true r f s).tmp.mons = s.tmp.mons ∧ (guardedChange n true r f s).tmp.policyResult = 2 := by
  simp [guardedChange, h]

theorem guardedChange_loosens {n r : Nat} {f : Mon → Mon} {s u : State} (hn : n < s.tmp.mons.length)
    (h : consumeApproval 8 [byte n, byte r] s = some u) :
    Changed n f s (guardedChange n true r f s) ∧ (guardedChange n true r f s).tkb.approval = .none := by
  obtain rfl := consumeApproval_some h
  have heq : guardedChange n true r f s = policyResult n 0 (updMon n f { s with tkb := { s.tkb with approval := .none } }) := by
    simp [guardedChange, h]
  rw [heq]
  obtain ⟨hmon, hresult⟩ := changed_of_updMon (f := f) (s := { s with tkb := { s.tkb with approval := .none } }) hn
  exact ⟨⟨hmon, hresult⟩, by simp [updMon]⟩

/-- A write of a guarded register from a state that takes it, seen from outside. -/
theorem tmp_of_guarded {i : Instr} {off : Nat} {f : State → State} {s : State} (htakes : Takes s)
    (h : exec i s = run (pfGuarded off f) s) :
    ∃ t, exec i s = .next t ∧ t.tmp = (f (repaired off s)).tmp ∧ t.tkb = (f (repaired off s)).tkb := by
  obtain ⟨t, ht, hv⟩ := views_of_run h (pfGuarded_eq_repaired htakes)
  exact ⟨t, ht, (views_tmp hv :), (views_tkb hv :)⟩

theorem Changed.of_tmp {n : Nat} {f : Mon → Mon} {s u t : State} (h : Changed n f s u) (ht : t.tmp = u.tmp) : Changed n f s t :=
  ⟨(monAt_of_tmp n ht).trans h.mon, (congrArg Tmp.policyResult ht).trans h.result⟩

theorem consumeApproval_of_tkb {a : Nat} {b : Bytes} {s v : State} (hv : v.tkb = s.tkb) :
    consumeApproval a b v = (consumeApproval a b s).map fun _ => { v with tkb := { v.tkb with approval := .none } } := by
  unfold consumeApproval
  rw [hv]
  split
  · split <;> rfl
  · rfl

theorem writePolicy_eq {n v : Nat} {s : State} (hn : n < 48) (h45 : n ≠ 45) (hv : v < 4) (hfloor : floorOf s n ≤ v) :
    writePolicy n v s = guardedChange n (decide (v < (monAt s n).policy)) v (fun m => { m with policy := v }) s := by
  simp only [writePolicy, Nat.mod_eq_of_lt hv]
  rw [if_neg (Nat.not_le.2 hn), if_neg h45, if_neg (Nat.not_lt.2 hfloor)]

theorem writePolicy_below {n v : Nat} {s : State} (hn : n < 48) (h45 : n ≠ 45) (hv : v < 4) (hfloor : v < floorOf s n) :
    writePolicy n v s = policyResult n 1 s := by
  simp only [writePolicy, Nat.mod_eq_of_lt hv]
  rw [if_neg (Nat.not_le.2 hn), if_neg h45, if_pos hfloor]

/-- The filter that a write asks for: K, W and HELD_MS, each at least 1. -/
def filterOf (v : Nat) (m : Mon) : Mon :=
  { m with k := max 1 (v % 256), w := min (2 ^ 24) (max 1 (v / 256 % 2 ^ 25)), heldMs := Nat.max 1 (bits v 63 48) }

/-- A filter write loosens: more events, or a shorter window. -/
def filterLoosens (v : Nat) (m : Mon) : Prop :=
  m.k < max 1 (v % 256) ∨ min (2 ^ 24) (max 1 (v / 256 % 2 ^ 25)) < m.w

theorem writeFilter_eq {n v : Nat} {s : State} (b : Bool) (hn : n < 48) (h45 : n ≠ 45)
    (hb : b = true ↔ filterLoosens v (monAt s n)) :
    writeFilter n v s = refilter n (guardedChange n b (monAt s n).policy (filterOf v) s) := by
  have hk : bits v 7 0 = v % 256 := by simp [bits]
  have hw : bits v 32 8 = v / 256 % 2 ^ 25 := by simp [bits]
  have hd : decide ((monAt s n).k < Nat.max 1 (bits v 7 0)
      ∨ Nat.min (2 ^ 24) (Nat.max 1 (bits v 32 8)) < (monAt s n).w) = b := by
    rw [hk, hw, Bool.eq_iff_iff, decide_eq_true_eq]
    exact hb.symm
  simp only [writeFilter]
  rw [if_neg (Nat.not_le.2 hn), if_neg h45, hd]
  unfold filterOf
  rw [hk, hw]

/-- An empty window fires nothing. -/
theorem refilter_of_empty {n : Nat} {s : State} (h : (monAt s n).stamps = []) : refilter n s = s := by
  simp [refilter, h]

theorem refilter_changed {n v : Nat} {s u : State} (h : Changed n (filterOf v) s u) (hempty : (monAt s n).stamps = []) :
    refilter n u = u := by
  refine refilter_of_empty ?_
  rw [h.mon]
  exact hempty

section
variable {n off : Nat} {s : State}

theorem repaired_length (hn : n < 48) (hlen : s.tmp.mons.length = 48) : n < (repaired off s).tmp.mons.length := by
  have : (repaired off s).tmp.mons.length = 48 := hlen
  omega

/-- A held approval that the manager's write consumes is consumed with the register's shadow repaired. -/
theorem consumeApproval_repaired {a : Nat} {b : Bytes} {u : State} (h : consumeApproval a b s = some u) :
    consumeApproval a b (repaired off s)
      = some { repaired off s with tkb := { (repaired off s).tkb with approval := .none } } := by
  rw [consumeApproval_of_tkb (s := s) (by rfl), h]
  rfl

theorem consumeApproval_repaired_none {a : Nat} {b : Bytes} (h : consumeApproval a b s = none) :
    consumeApproval a b (repaired off s) = none := by
  rw [consumeApproval_of_tkb (s := s) (by rfl), h]
  rfl

end

/-- Settles O40: the rows of R455 in their order. -/
theorem policiesKeepToFloors : Obligations.PoliciesKeepToFloors := by
  unfold Obligations.PoliciesKeepToFloors
  intro s n v htakes hn h45 hv hlen
  have hns (off : Nat) : n < (repaired off s).tmp.mons.length := repaired_length hn hlen
  have hpolicy (r : Nat) := tmp_of_guarded (i := .tmpPolicyWrite r v) (f := writePolicy r v) htakes rfl
  have hfilter (r : Nat) (f : BitVec 64) := tmp_of_guarded (i := .tmpFilterWrite r f) (f := writeFilter r f.toNat) htakes rfl
  refine ⟨fun hfloor => ?below, fun hfloor hloose => ⟨fun hc => ?missing, fun u hu => ?loosens⟩, fun hfloor htight => ?tightens,
    ?fixed, fun f => ⟨fun hk hw hempty => ?narrows, fun hloose hempty => ⟨fun hc => ?kept, fun u hu => ?widens⟩, ?fixed'⟩⟩
  case below =>
    obtain ⟨t, ht, htmp, -⟩ := hpolicy n
    refine ⟨t, ht, ?_⟩
    rw [htmp, writePolicy_below hn h45 hv (by exact hfloor), policyResult_tmp]
    exact ⟨rfl, rfl⟩
  case missing =>
    obtain ⟨t, ht, htmp, -⟩ := hpolicy n
    refine ⟨t, ht, ?_⟩
    rw [htmp, writePolicy_eq hn h45 hv (by exact hfloor), decide_eq_true (by exact hloose)]
    exact guardedChange_refuses (consumeApproval_repaired_none hc)
  case loosens =>
    obtain ⟨t, ht, htmp, htkb⟩ := hpolicy n
    rw [writePolicy_eq hn h45 hv (by exact hfloor), decide_eq_true (by exact hloose)] at htmp htkb
    obtain ⟨hch, happ⟩ := guardedChange_loosens (f := fun m => { m with policy := v }) (hns _) (consumeApproval_repaired hu)
    exact ⟨t, ht, by rw [(hch.of_tmp htmp).mon], (hch.of_tmp htmp).result, by rw [htkb, happ]⟩
  case tightens =>
    obtain ⟨t, ht, htmp, htkb⟩ := hpolicy n
    rw [writePolicy_eq hn h45 hv (by exact hfloor), decide_eq_false (by exact Nat.not_lt.2 htight)] at htmp
    have hch := (guardedChange_tightens (r := v) (f := fun m => { m with policy := v }) (hns _)).of_tmp htmp
    exact ⟨t, ht, by rw [hch.mon], hch.result⟩
  case fixed =>
    obtain ⟨t, ht, htmp, -⟩ := hpolicy 45
    refine ⟨t, ht, ?_⟩
    have hu (w : State) : writePolicy 45 v w = policyResult 45 3 w := rfl
    rw [htmp, hu, policyResult_tmp]
    exact ⟨rfl, rfl⟩
  case narrows =>
    obtain ⟨t, ht, htmp, -⟩ := hfilter n f
    have hnot : ¬ filterLoosens f.toNat (monAt s n) := by
      rintro (h | h)
      · exact absurd hk (Nat.not_le.2 h)
      · exact absurd hw (Nat.not_le.2 h)
    have hch := guardedChange_tightens (r := (monAt s n).policy) (f := filterOf f.toNat) (hns (0x480300 + 8 * n))
    rw [writeFilter_eq false hn h45 (iff_of_false Bool.false_ne_true (by exact hnot))] at htmp
    have hch' := hch.of_tmp (htmp.trans (congrArg State.tmp (refilter_changed hch hempty)))
    refine ⟨t, ht, ?_, ?_, hch'.result⟩
    · rw [hch'.mon]
      rfl
    · rw [hch'.mon]
      rfl
  case kept =>
    obtain ⟨t, ht, htmp, -⟩ := hfilter n f
    obtain ⟨hmons, hresult⟩ := guardedChange_refuses (f := filterOf f.toNat)
      (consumeApproval_repaired_none (off := 0x480300 + 8 * n) hc)
    rw [writeFilter_eq true hn h45 (iff_of_true rfl (by exact hloose)), refilter_of_empty (by rw [monAt_of_mons n (by exact hmons)]; exact hempty)] at htmp
    exact ⟨t, ht, (congrArg Tmp.mons htmp).trans hmons, (congrArg Tmp.policyResult htmp).trans hresult⟩
  case widens =>
    obtain ⟨t, ht, htmp, htkb⟩ := hfilter n f
    obtain ⟨hch, happ⟩ := guardedChange_loosens (f := filterOf f.toNat) (hns (0x480300 + 8 * n)) (consumeApproval_repaired hu)
    rw [writeFilter_eq true hn h45 (iff_of_true rfl (by exact hloose)), refilter_changed (by exact hch) (by exact hempty)] at htmp htkb
    have hch' := hch.of_tmp htmp
    refine ⟨t, ht, ?_, ?_, hch'.result, by rw [htkb]; exact happ⟩
    · rw [hch'.mon]
      rfl
    · rw [hch'.mon]
      rfl
  case fixed' =>
    obtain ⟨t, ht, htmp, -⟩ := hfilter 45 f
    refine ⟨t, ht, ?_⟩
    have hu (w : State) : writeFilter 45 f.toNat w = policyResult 45 3 w := rfl
    rw [htmp, hu, policyResult_tmp]
    exact ⟨rfl, rfl⟩

/-! ### On VBAT alone (R460, R461) -/

theorem closeStreams_keys (s : State) : (closeStreams s).keys = s.keys := by rw [closeStreams_frame]

theorem loseMeters_keys (s : State) : (loseMeters s).keys = s.keys := rfl

/-- A loss of the main supply keeps the master key (R522). -/
theorem loseSupply_key (s : State) :
    (loseSupply s).keys.mkPresent = s.keys.mkPresent ∧ (loseSupply s).keys.master = s.keys.master := by
  have h := resetCompute_leaves s
  have hkeys := (closeStreams_keys (loseMeters (resetCompute s))).trans (loseMeters_keys _)
  unfold loseSupply
  dsimp only
  generalize closeStreams (loseMeters (resetCompute s)) = u at hkeys
  exact ⟨(congrArg Keys.mkPresent hkeys).trans h.mkPresent, (congrArg Keys.master hkeys).trans h.master⟩

theorem dropSupply_key (s : State) :
    (dropSupply s).keys.mkPresent = s.keys.mkPresent ∧ (dropSupply s).keys.master = s.keys.master := by
  unfold dropSupply
  split
  · exact loseSupply_key _
  · exact ⟨rfl, rfl⟩

theorem latchWith_full {l : List Latch} (n b : Nat) (cleared : Bool) (h : l.length = 16) :
    ∃ e, latchWith l n b cleared = l.take 15 ++ [e] ∧ e.channel = n ∧ e.cleared = cleared ∧ e.bclk = b % 2 ^ 48 ∧ 1 ≤ e.unkept := by
  have hlast : l[15]? = some (l[15]'(by omega)) := List.getElem?_eq_getElem _
  simp only [latchWith, h, Nat.lt_irrefl, if_false, hlast]
  refine ⟨_, rfl, rfl, rfl, rfl, ?_⟩
  exact Nat.le_min.2 ⟨by decide, Nat.succ_le_succ (Nat.zero_le _)⟩

/-- Settles O41: the latch by its length, the switch-over by what a loss of supply keeps. -/
theorem backupDomain : Obligations.BackupDomain := by
  unfold Obligations.BackupDomain
  refine fun s => ⟨fun n b hon harmed => ⟨fun hlen => ?enters, fun hlen => ?full⟩, fun n b hno => ?ignored, fun hoff => ?begins,
    fun hon => ?begun, ?clock, ?pointer⟩
  case enters =>
    refine leadsTo_of_run (f := backupAsserts n b) rfl ?_ rfl rfl
    rw [backupAsserts, if_pos (by simp [hon, harmed]), latchWith, if_pos hlen]
  case full =>
    obtain ⟨e, he, h1, h2, h3, h4⟩ := latchWith_full n b s.keys.mkPresent hlen
    have hu : backupAsserts n b s = { s with tmp := { s.tmp with latch := latchWith s.tmp.latch n b s.keys.mkPresent },
                                             keys := { s.keys with mkPresent := false, master := [] } } :=
      if_pos (by simp [hon, harmed])
    obtain ⟨t, ht, hv⟩ := views_of_run (i := .backupAlarm n b) (f := backupAsserts n b) rfl hu
    exact ⟨t, e, ht, (congrArg Keys.mkPresent (views_keys hv) :), (congrArg Keys.master (views_keys hv) :),
      Eq.trans (congrArg Tmp.latch (views_tmp hv) :) he, h1, h2, h3, h4⟩
  case ignored =>
    refine leadsTo_of_run (f := backupAsserts n b) rfl (if_neg ?_) rfl rfl
    rcases hno with h | h <;> simp [h]
  case begins =>
    have hexec : exec .backupSwitchover s = runOtp switchOtp switchOver s := rfl
    obtain ⟨t, ht, hv⟩ := runOtp_leads switchOtp switchOver s
    obtain ⟨hmk, hmaster⟩ := dropSupply_key { s with otp := switchOtp s }
    have hu : switchOver { s with otp := switchOtp s } =
        (let u := supplyGone { s with otp := switchOtp s }
         { u with pwr := { u.pwr with vhold := false }, tmp := { u.tmp with onBackup := true, armed := armedLines s } }) :=
      if_neg (ne_true_of_eq_false (by exact hoff))
    rw [hu] at hv
    exact ⟨t, hexec.trans ht, (congrArg Tmp.onBackup (views_tmp hv) :), (congrArg Pwr.vault (views_pwr hv) :),
      (congrArg Pwr.vhold (views_pwr hv) :), (congrArg Tmp.armed (views_tmp hv) :),
      Eq.trans (congrArg Keys.mkPresent (views_keys hv) :) hmk, Eq.trans (congrArg Keys.master (views_keys hv) :) hmaster⟩
  case begun =>
    have hexec : exec .backupSwitchover s = runOtp switchOtp switchOver s := rfl
    obtain ⟨t, ht, hv⟩ := runOtp_leads switchOtp switchOver s
    have hotp : switchOtp s = s.otp := if_pos hon
    rw [switchOver, if_pos (by exact hon), hotp] at hv
    exact ⟨t, hexec.trans ht, hv⟩
  case clock =>
    exact leadsTo_of_run (f := fun u : State => { u with pwr := { u.pwr with bclk := false } }) rfl rfl rfl rfl
  case pointer =>
    exact leadsTo_of_run (f := fun u : State => { u with tmp := { u.tmp with pointerBad := false } }) rfl rfl rfl rfl

end Sys2Proof.Machine

/-! PROOF. Entropy sources, the pool, the DRBG instances and the mask generators (chapter 11). -/

namespace Sys2Proof.Machine

open Sys2Proof.Claims

/-! ### Sources (R281 to R285) -/

theorem getElem?_updAt_same {α : Type} {l : List α} {i : Nat} (f : α → α) (h : i < l.length) :
    (updAt l i f)[i]? = some (f l[i]) := by
  simp [updAt, List.getElem?_mapIdx, List.getElem?_eq_getElem h]

theorem sourceAt_updSource {i : Nat} {s : State} (f : Source → Source) (h : i < s.rng.srcs.length) :
    sourceAt (updSource i f s) i = f (sourceAt s i) := by
  simp [sourceAt, updSource, getElem?_updAt_same f h, List.getElem?_eq_getElem h]

theorem sourceAt_of_srcs {s t : State} (i : Nat) (h : t.rng.srcs = s.rng.srcs) : sourceAt t i = sourceAt s i := by
  rw [sourceAt, sourceAt, h]

@[simp] theorem stopDeferred_srcs (s : State) : (stopDeferred s).rng.srcs = s.rng.srcs := by
  unfold stopDeferred
  split <;> rfl

/-- A failure: the source's cause and its failures within 1 s, and a restart in the next configuration unless the fourth is
fatal. -/
structure Failed (i cause : Nat) (s t : State) : Prop where
  cause : (sourceAt t i).cause = cause
  fails : (sourceAt t i).fails = within ((sourceAt s i).fails ++ [s.now]) s.now 1000000
  restarts : (within ((sourceAt s i).fails ++ [s.now]) s.now 1000000).length < 4 →
    (sourceAt t i).state = .restarting ∧ (sourceAt t i).config = ((sourceAt s i).config + 1) % 4 ∧ t.rng.pool = s.rng.pool
  fatal : 4 ≤ (within ((sourceAt s i).fails ++ [s.now]) s.now 1000000).length → (sourceAt t i).state = .fatal

/-- The source after a failure. -/
def failedSource (cause p : Nat) (fails : List Nat) (x : Source) : Source :=
  { x with state := if 4 ≤ fails.length then .fatal else .restarting, config := if 4 ≤ fails.length then x.config else (x.config + 1) % 4,
           fails := fails, cause := cause, pair := p, runLength := 0 }

theorem failSource_failed {i : Nat} {s : State} (cause : Nat) (pair : Option Nat) (hi : i < s.rng.srcs.length) :
    Failed i cause s (failSource i cause pair s) := by
  have hrng : (bump (Ctr.rngFailed i) 1 (event 0x0501 1 deviceWide [byte i, byte cause, byte (pair.getD (sourceAt s i).pair)] s)).rng
      = s.rng := event_rng ..
  have hconf : failSource i cause pair s =
      (let fails := within ((sourceAt s i).fails ++ [s.now]) s.now 1000000
       let u := updSource i (failedSource cause (pair.getD (sourceAt s i).pair) fails)
         (bump (Ctr.rngFailed i) 1 (event 0x0501 1 deviceWide [byte i, byte cause, byte (pair.getD (sourceAt s i).pair)] s))
       if 4 ≤ fails.length then countEvent 41 (stopDeferred (trouble 8 u)) else u) := rfl
  rw [hconf]
  dsimp only
  generalize hw : within ((sourceAt s i).fails ++ [s.now]) s.now 1000000 = fails
  generalize bump (Ctr.rngFailed i) 1 _ = v at *
  have hsource := sourceAt_updSource (failedSource cause (pair.getD (sourceAt s i).pair) fails) (s := v) (i := i) (by rw [hrng]; exact hi)
  have hpool : (updSource i (failedSource cause (pair.getD (sourceAt s i).pair) fails) v).rng.pool = s.rng.pool := (congrArg Rng.pool hrng :)
  rw [sourceAt_of_srcs (s := s) (t := v) i (congrArg Rng.srcs hrng)] at hsource
  generalize updSource i _ v = u at *
  split
  · next hf =>
    have hfatal : sourceAt (countEvent 41 (stopDeferred (trouble 8 u))) i = _ :=
      (sourceAt_of_srcs i ((countEvent_srcs 41 _).trans (stopDeferred_srcs _))).trans hsource
    refine ⟨?_, ?_, fun h => absurd hf (Nat.not_le.2 (hw ▸ h)), fun _ => ?_⟩
    · rw [hfatal]
      rfl
    · rw [hfatal]
      exact hw.symm
    · rw [hfatal]
      exact if_pos hf
  · next hf =>
    refine ⟨?_, ?_, fun _ => ⟨?_, ?_, hpool⟩, fun h => absurd (hw ▸ h) hf⟩
    · rw [hsource]
      rfl
    · rw [hsource]
      exact hw.symm
    · rw [hsource]
      exact if_neg hf
    · rw [hsource]
      exact if_neg hf

/-! ### Instances (R288 to R294) -/

theorem instAt_updInst {i : Nat} {s : State} (f : Drbg → Drbg) (h : i < s.rng.insts.length) :
    instAt (updInst i f s) i = f (instAt s i) := by
  simp [instAt, updInst, getElem?_updAt_same f h, List.getElem?_eq_getElem h]

theorem instAt_of_rng {s t : State} (i : Nat) (h : t.rng = s.rng) : instAt t i = instAt s i := by
  rw [instAt, instAt, h]

/-- A DRBG after a reseed. -/
def reseeded (s : State) (d : Drbg) : Drbg :=
  { d with serving := true, requests := 0, reseedTick := s.now, deferred := false, gen := d.gen.reseed (s.rng.pool.take 48) [] }

theorem reseed_spec {i : Nat} {s : State} (hi : i < s.rng.insts.length) :
    instAt (reseed i s) i = reseeded s (instAt s i) ∧ (reseed i s).rng.pool = s.rng.pool.drop 48 := by
  have h := instAt_updInst (s := drawPool 384 s) (i := i) (reseeded s) hi
  have heq : reseed i s = bump Ctr.rngReseeds 1 (updInst i (reseeded s) (drawPool 384 s)) := rfl
  rw [heq]
  exact ⟨h, rfl⟩

/-- A reseed that is deferred: the DRBG serves on unless both sources are fatal. -/
theorem deferral_spec {i : Nat} {s : State} (hi : i < s.rng.insts.length) :
    let t := stopDeferred (updInst i (fun d => { d with deferred := true }) s)
    (instAt t i).deferred = true ∧ t.rng.pool = s.rng.pool ∧ (instAt t i).serving = ((instAt s i).serving && !bothFatal s) := by
  have h := instAt_updInst (fun d => { d with deferred := true }) hi
  have hfatal : bothFatal (updInst i (fun d => { d with deferred := true }) s) = bothFatal s := rfl
  have hpool : (updInst i (fun d => { d with deferred := true }) s).rng.pool = s.rng.pool := rfl
  have hlen : i < (updInst i (fun d => { d with deferred := true }) s).rng.insts.length := by
    rw [updInst, updAt, List.length_mapIdx]
    exact hi
  generalize updInst i (fun d => { d with deferred := true }) s = u at *
  dsimp only
  unfold stopDeferred
  rw [hfatal]
  cases bothFatal s with
  | false => simp [h, hpool]
  | true =>
    have hstopped : instAt { u with rng := { u.rng with
        insts := u.rng.insts.map fun d => if d.deferred then { d with serving := false } else d } } i
        = if (instAt u i).deferred then { instAt u i with serving := false } else instAt u i := by
      simp only [instAt, List.getElem?_map, List.getElem?_eq_getElem hlen, Option.map_some, Option.getD_some]
    rw [if_pos rfl, hstopped, h, hpool]
    exact ⟨rfl, rfl, (Bool.and_false _).symm⟩

/-! ### Mask generators (R291) -/

theorem maskOk_seedMask {s : State} (u : Nat) (h : servingInst s ≠ none) : maskOk (seedMask u s) u = true := by
  obtain ⟨i, hi⟩ := Option.ne_none_iff_exists'.1 h
  simp [seedMask, hi, maskOk, maskGen]

theorem maskDry_seedMask {s : State} (u : Nat) (h : servingInst s = none) : maskDry (seedMask u s) u = true := by
  simp [seedMask, h, maskDry, maskGen]

/-! ### The commands -/

theorem bad_of_failed {j : Instr} {f : State → State} {i cause : Nat} {pair : Option Nat} {s : State} (h : exec j s = run f s)
    (hf : f s = failSource i cause pair s) (hi : i < s.rng.srcs.length) : ∃ t, exec j s = .next t ∧ Failed i cause s t := by
  obtain ⟨t, ht, hv⟩ := views_of_run h hf
  obtain ⟨h1, h2, h3, h4⟩ := failSource_failed cause pair hi
  have hrng : t.rng = (failSource i cause pair s).rng := (views_rng hv :)
  have hsource := sourceAt_of_srcs i (congrArg Rng.srcs hrng)
  refine ⟨t, ht, ?_, ?_, ?_, ?_⟩
  · rw [hsource]
    exact h1
  · rw [hsource]
    exact h2
  · rw [hsource, hrng]
    exact h3
  · rw [hsource]
    exact h4

/-- What the instantiation of DRBG `i` makes it. -/
def newInst (s : State) (i : Nat) : Drbg :=
  { Drbg.first with live := true, serving := true, reseedTick := s.now,
                    gen := CtrDrbg.instantiate (s.rng.pool.take 48) ((s.rng.pool.drop 48).take 16) (personalisation s i) }

theorem instantiate_eq {i : Nat} {s : State} (hkat : s.rng.katDone = true) (hok : s.rng.katFail = false)
    (hlive : (instAt s i).live = false) (hbits : 512 ≤ poolBits s) (hwant : s.lcs.newWanted = false) :
    instantiate i s = updInst i (fun _ => newInst s i) (drawPool 512 s) := by
  rw [instantiate, if_pos (by simp [hkat, hok, hlive, hbits])]
  exact if_neg (by simp [drawPool, updInst, hwant])

theorem reseedDue_due {i : Nat} {s : State} (hlive : (instAt s i).live = true)
    (hdue : 2 ^ 20 ≤ (instAt s i).requests ∨ (instAt s i).reseedTick + 1000000 ≤ s.now) :
    reseedDue i s = if 384 ≤ poolBits s && reseedTurn s i then reseed i s
      else stopDeferred (updInst i (fun d => { d with deferred := true }) s) := by
  refine if_pos ?_
  rw [hlive, Bool.true_and, Bool.or_eq_true, decide_eq_true_eq, decide_eq_true_eq]
  exact hdue

/-- The effects of SOURCE_RESTART and MASK_GENERATOR_RESEED. -/
def restartEnds (i : Nat) (s : State) : State :=
  if (sourceAt s i).state = .restarting then updSource i (fun x => { x with state := .startUp }) s else s
def maskReseed (n : Nat) (h : Bool) (s : State) : State :=
  if maskOk s (2 * n + bnat h) then s else seedMask (2 * n + bnat h) s

theorem writeRevive_fatal {i : Nat} {s : State} (hi : i < 2) (hlen : s.rng.srcs.length = 2) (h : (sourceAt s i).state = .fatal) :
    (sourceAt (writeRevive (2 ^ i) s) i).state = .restarting ∧ (sourceAt (writeRevive (2 ^ i) s) i).fails = []
      ∧ (sourceAt (writeRevive (2 ^ i) s) i).config = ((sourceAt s i).config + 1) % 4 := by
  have hone : writeRevive (2 ^ i) s = reviveSource i s := by
    interval_cases i
    · rfl
    · rfl
  have hsrcs : (reviveSource i s).rng.srcs
      = (updSource i (fun x => { x with state := .restarting, config := (x.config + 1) % 4, fails := [], runLength := 0 }) s).rng.srcs := by
    rw [reviveSource, if_pos h, event_rng]
  rw [hone, sourceAt_of_srcs i hsrcs, sourceAt_updSource _ (by omega)]
  exact ⟨rfl, rfl, rfl⟩

/-- Settles O42: a source by its state and the test, a DRBG by what is due and what the pool holds. -/
theorem entropyAndDrbgs : Obligations.EntropyAndDrbgs := by
  unfold Obligations.EntropyAndDrbgs
  refine ⟨fun s i b hi hlen => ⟨fun hrun hpass => ?passes, fun c p hoff hfatal hfail => ?fails, fun hno => ?ignored,
      fun hre => ?restarts, fun hst hpass => ?starts, fun c p hst hfail => ?startFails, fun htakes hfatal => ?revives⟩,
    fun s i hi hlen => ⟨fun hkat hok hlive hbits hwant => ?instantiates, fun hno => ?notYet,
      fun hlive hdue => ⟨fun hbits hturn => ?reseeds, fun hno => ?defers⟩, fun hlive hreq htick => ?notDue,
      fun hdef hbits hturn => ?deferred, fun hno => ?waits, fun n h hmask => ?masks, fun n h hmask => ?maskFine⟩⟩
  case passes =>
    have hsrc : i < s.rng.srcs.length := by omega
    have hu : takeBlock i b s = bump (Ctr.rngOk i) 1 (fillPool (conditioned b) (updSource i (fun x =>
        { x with lastBit := (runsOf (sourceAt s i).lastBit (sourceAt s i).runLength 0 b.decimated).1,
                 runLength := (runsOf (sourceAt s i).lastBit (sourceAt s i).runLength 0 b.decimated).2.1 }) s)) := by
      simp [takeBlock, hrun, hpass]
    obtain ⟨t, ht, hv⟩ := views_of_run (i := .rngBlock i b) (f := takeBlock i b) rfl hu
    have hrng := (views_rng hv :)
    refine ⟨t, ht, (congrArg Rng.pool hrng :), ?_, (congrArg Rng.insts hrng :)⟩
    rw [sourceAt_of_srcs i (congrArg Rng.srcs hrng :)]
    exact (congrArg Source.state (sourceAt_updSource _ hsrc) :).trans hrun
  case fails =>
    have hu : takeBlock i b s = failSource i c p s := by simp [takeBlock, hoff, hfatal, hfail]
    obtain ⟨t, ht, h1, h2, h3, h4⟩ := bad_of_failed (j := .rngBlock i b) (f := takeBlock i b) rfl hu (by omega)
    exact ⟨t, ht, h1, h2, h3, h4⟩
  case ignored =>
    refine leadsTo_of_run (f := takeBlock i b) rfl ?_ rfl rfl
    rcases hno with h | h | ⟨h1, h2⟩
    · simp [takeBlock, h]
    · simp [takeBlock, h]
    · simp [takeBlock, h1, h2]
  case restarts =>
    have hsrc : i < s.rng.srcs.length := by omega
    obtain ⟨t, ht, hv⟩ := views_of_run (i := .sourceRestart i) (f := restartEnds i) rfl (if_pos hre)
    have hrng := (views_rng hv :)
    refine ⟨t, ht, ?_, (congrArg Rng.pool hrng :)⟩
    rw [sourceAt_of_srcs i (congrArg Rng.srcs hrng :)]
    exact (congrArg Source.state (sourceAt_updSource _ hsrc) :)
  case starts =>
    have hsrc : i < s.rng.srcs.length := by omega
    have hstate : ((sourceAt s i).state != .startUp) = false := by rw [hst]; rfl
    have hu : startUpEnds i b s = updSource i (fun x =>
        { x with state := .running, lastBit := (runsOf (sourceAt s i).lastBit 0 0 b.decimated).1,
                 runLength := (runsOf (sourceAt s i).lastBit 0 0 b.decimated).2.1 }) s := by
      simp only [startUpEnds, hstate, Bool.false_eq_true, if_false, hpass]
    obtain ⟨t, ht, hv⟩ := views_of_run (i := .startUpTest i b) (f := startUpEnds i b) rfl hu
    have hrng := (views_rng hv :)
    refine ⟨t, ht, ?_, (congrArg Rng.pool hrng :)⟩
    rw [sourceAt_of_srcs i (congrArg Rng.srcs hrng :)]
    exact (congrArg Source.state (sourceAt_updSource _ hsrc) :)
  case startFails =>
    have hstate : ((sourceAt s i).state != .startUp) = false := by rw [hst]; rfl
    have hu : startUpEnds i b s = failSource i 5 p s := by
      simp only [startUpEnds, hstate, Bool.false_eq_true, if_false, hfail]
    obtain ⟨t, ht, h1, h2, h3, h4⟩ := bad_of_failed (j := .startUpTest i b) (f := startUpEnds i b) rfl hu (by omega)
    exact ⟨t, ht, h1, h2, h3, h4⟩
  case revives =>
    obtain ⟨t, ht, hv⟩ := views_of_run (i := .rngRevive (2 ^ i)) (f := pfGuarded 0x280018 (writeRevive (2 ^ i))) rfl
      (pfGuarded_eq_repaired htakes)
    have hrng := (views_rng hv :)
    refine ⟨t, ht, ?_⟩
    rw [sourceAt_of_srcs i (congrArg Rng.srcs hrng :)]
    exact writeRevive_fatal (s := repaired 0x280018 s) hi hlen hfatal
  case instantiates =>
    obtain ⟨t, ht, hv⟩ := views_of_run (i := .drbgInstantiate i) (f := instantiate i) rfl (instantiate_eq hkat hok hlive hbits hwant)
    have hrng := (views_rng hv :)
    have hinst := instAt_updInst (s := drawPool 512 s) (fun _ => newInst s i) (show i < s.rng.insts.length from hlen ▸ hi)
    refine ⟨t, ht, ?_⟩
    rw [(instAt_of_rng i hrng).trans hinst]
    exact ⟨rfl, rfl, rfl, (congrArg Rng.pool hrng :), rfl⟩
  case notYet =>
    refine leadsTo_of_run (f := instantiate i) rfl (if_neg ?_) rfl rfl
    rcases hno with h | h | h | h
    · simp [h]
    · simp [h]
    · simp [h]
    · simp [Nat.not_le.2 h]
  case reseeds =>
    have hu : reseedDue i s = reseed i s := by rw [reseedDue_due hlive hdue, if_pos (by simp [hbits, hturn])]
    obtain ⟨t, ht, hv⟩ := views_of_run (i := .drbgReseed i) (f := reseedDue i) rfl hu
    obtain ⟨hinst, hpool⟩ := reseed_spec (i := i) (s := s) (by omega)
    have hrng := (views_rng hv :)
    refine ⟨t, ht, ?_⟩
    rw [(instAt_of_rng i hrng).trans hinst]
    exact ⟨rfl, rfl, rfl, Eq.trans (congrArg Rng.pool hrng :) hpool, rfl⟩
  case defers =>
    have hu : reseedDue i s = stopDeferred (updInst i (fun d => { d with deferred := true }) s) := by
      rw [reseedDue_due hlive hdue, if_neg ?_]
      rcases hno with h | h
      · simp [Nat.not_le.2 h]
      · simp [h]
    obtain ⟨t, ht, hv⟩ := views_of_run (i := .drbgReseed i) (f := reseedDue i) rfl hu
    obtain ⟨h1, h2, h3⟩ := deferral_spec (i := i) (s := s) (by omega)
    have hrng := (views_rng hv :)
    refine ⟨t, ht, ?_⟩
    rw [instAt_of_rng i hrng]
    exact ⟨h1, Eq.trans (congrArg Rng.pool hrng :) h2, h3⟩
  case notDue =>
    refine leadsTo_of_run (f := reseedDue i) rfl (if_neg ?_) rfl rfl
    rw [hlive, Bool.true_and, Bool.or_eq_true, decide_eq_true_eq, decide_eq_true_eq]
    exact not_or.2 ⟨Nat.not_le.2 hreq, Nat.not_le.2 htick⟩
  case deferred =>
    have hu : deferredReseed i s = reseed i s := if_pos (by simp [hdef, hbits, hturn])
    obtain ⟨t, ht, hv⟩ := views_of_run (i := .deferredReseed i) (f := deferredReseed i) rfl hu
    obtain ⟨hinst, hpool⟩ := reseed_spec (i := i) (s := s) (by omega)
    have hrng := (views_rng hv :)
    refine ⟨t, ht, ?_⟩
    rw [(instAt_of_rng i hrng).trans hinst]
    exact ⟨rfl, rfl, rfl, Eq.trans (congrArg Rng.pool hrng :) hpool⟩
  case waits =>
    refine leadsTo_of_run (f := deferredReseed i) rfl (if_neg ?_) rfl rfl
    rcases hno with h | h | h
    · simp [h]
    · simp [Nat.not_le.2 h]
    · simp [h]
  case masks =>
    obtain ⟨t, ht, hv⟩ := views_of_run (i := .maskGeneratorReseed n h) (f := maskReseed n h) rfl (if_neg (ne_true_of_eq_false hmask))
    have hrng := (views_rng hv :)
    have hgen : maskGen t (2 * n + bnat h) = maskGen (seedMask (2 * n + bnat h) s) (2 * n + bnat h) := by
      rw [maskGen, maskGen, hrng]
    refine ⟨t, ht, fun hserves => ?_, fun hnone => ?_⟩
    · rw [maskOk, hgen]
      exact maskOk_seedMask _ hserves
    · rw [maskDry, hgen]
      exact maskDry_seedMask _ hnone
  case maskFine => exact leadsTo_of_run (f := maskReseed n h) rfl (if_pos hmask) rfl rfl

end Sys2Proof.Machine

/-! PROOF. Life cycle: requests, the steps of a transition, challenges (chapter 19), and the recorder's rows (chapter 20). -/

namespace Sys2Proof.Machine

open Sys2Proof.Claims

/-! ### Commands that program fuses -/

/-- A command that programs fuses answers a state that is its effect but for the views. -/
theorem views_of_runOtp {i : Instr} {g : State → Otp} {f : State → State} {s u : State} (h : exec i s = runOtp g f s)
    (hu : f { s with otp := g s } = u) : ∃ t, exec i s = .next t ∧ t.otp = g s
      ∧ OnlyViews { u with pending := s.pending, otp := g s } t := by
  obtain ⟨t, ht, hv⟩ := runOtp_leads g f s
  exact ⟨t, h.trans ht, (views_otp hv :), hu ▸ hv⟩

/-! ### Requests (R471) -/

/-- `s` with the request noted. -/
def requested (t : Nat) (s : State) : State := { s with lcs := { s.lcs with request := t, resultTarget := t } }

theorem requestTransition_eq {t : Nat} {s : State} (h1 : 1 ≤ t) (h8 : t < 8) :
    requestTransition t s =
      (let u := requested t s
       if u.lcs.transition != .none then requestResult 6 u
       else if !u.pwr.pwrfailHigh then requestResult 5 u
       else if !transitionOk u t then requestResult 2 u
       else if noSecret u t then requestResult 7 u
       else
         let (r, u) := presentAuthority t u
         let u := requestResult r u
         if r = 1 then startTransition t u else u) := by
  have ht : t % 8 = t := Nat.mod_eq_of_lt h8
  unfold requestTransition
  rw [ht]
  exact if_neg (by omega)

/-- A right response is its challenge's one attempt. -/
theorem useChallenge_of_ok {s : State} {p t : Nat} (h : responseOk s p t = true) (q : Nat) :
    useChallenge true q s = { s with lcs := { s.lcs with challenge := false } } := by
  have hc : s.lcs.challenge = true := by
    simp only [responseOk, Bool.and_eq_true] at h
    exact h.1.1.1
  simp [useChallenge, hc]

theorem group_zero {g : BitVec 16} (hp : groupPartial g = false) (hf : groupFull g = false) : g = 0 := by
  simpa [groupPartial, hf, groupBlank] using hp

/-- In BLANK no group has a programmed bit (R465). -/
theorem groups_of_blank {o : Otp} (h : o.lc = .blank) : o.g0 = 0 ∧ o.g1 = 0 ∧ o.g2 = 0 ∧ o.g3 = 0 := by
  unfold Otp.lc at h
  split at h
  · cases h
  · next hpart =>
    simp only [Bool.or_eq_true, not_or, Bool.not_eq_true] at hpart
    obtain ⟨⟨⟨p0, p1⟩, p2⟩, p3⟩ := hpart
    split at h
    · cases h
    · next h3 =>
      split at h
      · next h0 h1 h2 => exact ⟨group_zero p0 h0, group_zero p1 h1, group_zero p2 h2, group_zero p3 (by simpa using h3)⟩
      all_goals cases h

/-- With G0 full and the other groups blank, the device is in FACTORY. -/
theorem fillGroup_blank {o : Otp} (h : o.lc = .blank) : (fillGroup 1 o).lc = .factory ∧ (fillGroup 1 o).g0 = 0xA5C3 := by
  obtain ⟨h0, h1, h2, h3⟩ := groups_of_blank h
  have hg0 : (fillGroup 1 o).g0 = 0xA5C3 := by
    show o.g0 ||| fullGroup = _
    rw [h0]
    decide
  refine ⟨?_, hg0⟩
  have hg1 : (fillGroup 1 o).g1 = 0 := h1
  have hg2 : (fillGroup 1 o).g2 = 0 := h2
  have hg3 : (fillGroup 1 o).g3 = 0 := h3
  rw [Otp.lc, hg0, hg1, hg2, hg3]
  decide

theorem startTransition_factory {s : State} (h : (sourceOf s).code = 0) :
    startTransition 1 s = { s with lcs := { s.lcs with transition := .programming 1 0 } } := by
  simp only [startTransition, h, if_true]

/-- The request that the right response authorises starts the programming of G0. -/
theorem requestTransition_factory {s : State} (hlc : lc s = .blank) (hidle : s.lcs.transition = .none)
    (hpwr : s.pwr.pwrfailHigh = true) (hsecret : noSecret s 1 = false) (hok : responseOk s 0 1 = true) :
    requestTransition 1 s = { s with lcs := { s.lcs with request := 1, resultTarget := 1, challenge := false, result := 1,
                                                         transition := .programming 1 0 } } := by
  have hlc' : lc (requested 1 s) = .blank := hlc
  have htrans : transitionOk (requested 1 s) 1 = true := by simp [transitionOk, hlc']
  have hauth : authorityOf (requested 1 s) 1 = .response := by simp [authorityOf]
  have hok' : responseOk (requested 1 s) 0 1 = true := hok
  have hpres : presentAuthority 1 (requested 1 s) = (1, { requested 1 s with lcs := { (requested 1 s).lcs with challenge := false } }) := by
    simp only [presentAuthority, hauth, hok', if_true, useChallenge_of_ok hok']
  have hcode : (sourceOf s).code = 0 := by simp [sourceOf, hlc, LcState.code]
  rw [requestTransition_eq (by decide) (by decide)]
  dsimp only
  rw [if_neg (by simp [requested, hidle]), if_neg (by simp [requested, hpwr]), if_neg (by simp [htrans]),
    if_neg (by exact ne_true_of_eq_false hsecret), hpres]
  dsimp only
  exact (if_pos rfl).trans (startTransition_factory hcode)

theorem consumeTransition_frame (s : State) :
    (consumeTransition s).tmp = s.tmp ∧ (consumeTransition s).lcs = { s.lcs with approval := false } := by
  unfold consumeTransition
  dsimp only
  split
  · split <;> exact ⟨rfl, rfl⟩
  · exact ⟨rfl, rfl⟩

/-- The commit instant of BLANK to FACTORY starts nothing more. -/
theorem groupProgrammed_factory {s : State} (h : s.lcs.transition = .programming 1 0) :
    (groupProgrammed s).lcs.transition = .none ∧ (groupProgrammed s).tmp = s.tmp := by
  have heq : groupProgrammed s = (let u := event 0x0D01 4 deviceWide [byte 0, byte (lc (consumeTransition s)).code] (consumeTransition s)
      { u with lcs := { u.lcs with transition := .none } }) := by
    simp only [groupProgrammed, h]
    rfl
  rw [heq]
  exact ⟨rfl, (event_tmp ..).trans (consumeTransition_frame s).1⟩

/-! ### Challenges (R469, R470) -/

theorem writeChalCtl_new {v : BitVec 32} (s : State) (hv : v.getLsbD 1 = false) :
    writeChalCtl (v.toNat ||| 1) s = newChallenge { s with lcs := { s.lcs with
      purpose := bits (v.toNat ||| 1) 8 8, target := bits (v.toNat ||| 1) 14 12 } } := by
  have h0 : bit (v.toNat ||| 1) 0 = true := by simp [bit]
  have h1 : bit (v.toNat ||| 1) 1 = false := by
    have hbit : bit (v.toNat ||| 1) 1 = (v.toNat ||| 1).testBit 1 := rfl
    have hone : Nat.testBit 1 1 = false := by decide
    have hv' : v.toNat.testBit 1 = false := hv
    rw [hbit, Nat.testBit_or, hv', hone]
    rfl
  rw [writeChalCtl]
  dsimp only
  rw [h0, h1]
  rfl

theorem newChallenge_draws {s : State} {i : Nat} (h : servingInst s = some i) :
    (newChallenge s).lcs.challenge = true ∧ (newChallenge s).lcs.newWanted = false ∧ (newChallenge s).lcs.nonce = drawn s i 32 := by
  have h' : servingInst { s with lcs := { s.lcs with challenge := false, answer := padTo 64 (answerHead s), newWanted := true } } = some i := h
  simp only [newChallenge, h']
  exact ⟨rfl, rfl, rfl⟩

theorem newChallenge_awaits {s : State} (h : servingInst s = none) :
    (newChallenge s).lcs.challenge = false ∧ (newChallenge s).lcs.newWanted = true := by
  have h' : servingInst { s with lcs := { s.lcs with challenge := false, answer := padTo 64 (answerHead s), newWanted := true } } = none := h
  simp only [newChallenge, h']
  exact ⟨trivial, trivial⟩

theorem unlock_refused {s : State} (hlc : lc s = .ret) (hbad : responseOk s 1 0 = false) :
    (unlock s).lcs.challenge = false ∧ (unlock s).lcs.unlocked = s.lcs.unlocked ∧ (unlock s).lcs.result = 4 := by
  have huse : (useChallenge false 1 s).lcs = { s.lcs with challenge := false } := by
    cases hc : s.lcs.challenge with
    | false =>
      rw [useChallenge, if_pos (by simp [hc]), ← hc]
    | true => simp [useChallenge, hc]
  simp only [unlock, hlc, hbad, bne_self_eq_false, Bool.false_eq_true, if_false, huse, and_self]

/-- Settles O43: requests by the rows of R471, the steps by what they program, challenges by the DRBG that serves. -/
theorem lifeCycle : Obligations.LifeCycle := by
  unfold Obligations.LifeCycle
  refine ⟨⟨fun s t htakes hbad h1 h8 => ⟨fun hbusy => ?busy, fun hidle hlow => ?low, fun hidle hhigh hno => ?notPermitted,
        fun hidle hhigh hyes hsecret => ?secret⟩,
      fun s hlc => ⟨fun htakes hidle hpwr hsecret hok => ?starts, fun hprog => ?programmed⟩,
      fun s => ⟨fun hwipe => ?returned, fun hwipe => ?scrapped⟩⟩,
    fun s htakes => ⟨fun v i hv hserves => ?drawn, fun v hv hnone => ?awaited, fun hlc => ?notReturn, fun hlc hok => ?unlocks,
      fun hlc hbad => ?wrong⟩⟩
  case busy =>
    refine leadsTo_of_run (f := pfGuarded 0x600018 (requestTransition t)) rfl ?_ rfl rfl
    rw [pfGuarded_of_takes htakes hbad, requestTransition_eq h1 h8]
    exact if_pos (by simp [requested, hbusy])
  case low =>
    refine leadsTo_of_run (f := pfGuarded 0x600018 (requestTransition t)) rfl ?_ rfl rfl
    rw [pfGuarded_of_takes htakes hbad, requestTransition_eq h1 h8]
    exact (if_neg (by simp [requested, hidle])).trans (if_pos (by simp [requested, hlow]))
  case notPermitted =>
    refine leadsTo_of_run (f := pfGuarded 0x600018 (requestTransition t)) rfl ?_ rfl rfl
    rw [pfGuarded_of_takes htakes hbad, requestTransition_eq h1 h8]
    have hno' : transitionOk (requested t s) t = false := hno
    exact (if_neg (by simp [requested, hidle])).trans ((if_neg (by simp [requested, hhigh])).trans (if_pos (by simp [hno'])))
  case secret =>
    refine leadsTo_of_run (f := pfGuarded 0x600018 (requestTransition t)) rfl ?_ rfl rfl
    rw [pfGuarded_of_takes htakes hbad, requestTransition_eq h1 h8]
    have hyes' : transitionOk (requested t s) t = true := hyes
    exact (if_neg (by simp [requested, hidle])).trans ((if_neg (by simp [requested, hhigh])).trans
      ((if_neg (by simp [hyes'])).trans (if_pos (by exact hsecret))))
  case starts =>
    have hu := (pfGuarded_eq_repaired (off := 0x600018) (f := requestTransition 1) htakes).trans
      (requestTransition_factory (s := repaired 0x600018 s) hlc hidle hpwr hsecret hok)
    obtain ⟨t, ht, hv⟩ := views_of_run (i := .lcsRequest 1) (f := pfGuarded 0x600018 (requestTransition 1)) rfl hu
    have hl := (views_lcs hv :)
    exact ⟨t, ht, (congrArg Lcs.transition hl :), (congrArg Lcs.result hl :), (congrArg Lcs.challenge hl :),
      (congrArg Tmp.curtainDown (views_tmp hv) :), (views_otp hv :)⟩
  case programmed =>
    have hotp : programmedOtp s = fillGroup 1 s.otp := by simp only [programmedOtp, hprog]
    obtain ⟨hfactory, hg0⟩ := fillGroup_blank hlc
    obtain ⟨t, ht, hto, hv⟩ := views_of_runOtp (i := .lcGroupProgrammed) (g := programmedOtp) (f := groupProgrammed) (s := s) rfl rfl
    obtain ⟨htrans, htmp⟩ := groupProgrammed_factory (s := { s with otp := programmedOtp s }) hprog
    refine ⟨t, ht, ?_, Eq.trans (congrArg Lcs.transition (views_lcs hv) :) htrans, ?_,
      (congrArg Tmp.curtainDown (Eq.trans (views_tmp hv :) htmp) :)⟩
    · rw [lc, hto, hotp]
      exact hfactory
    · rw [hto, hotp]
      exact hg0
  case returned =>
    have hotp : wipedOtp s = { s.otp with wipe := s.otp.wipe ||| 0x005A } := by simp only [wipedOtp, hwipe, if_true]
    have hu : wipeComplete { s with otp := wipedOtp s } = { wipeKeys { s with otp := wipedOtp s } with
        lcs := { s.lcs with transition := .none } } := by
      simp only [wipeComplete, hwipe, if_true]
      rfl
    obtain ⟨t, ht, hto, hv⟩ := views_of_runOtp (i := .lcWipeComplete) (g := wipedOtp) (f := wipeComplete) rfl hu
    exact ⟨t, ht, by rw [hto, hotp], (congrArg Keys.slots (views_keys hv) :), (congrArg Lcs.transition (views_lcs hv) :)⟩
  case scrapped =>
    have hotp : wipedOtp s = { s.otp with
        wipe := s.otp.wipe ||| 0x5A00, trimsErased := true, makerSecret := List.replicate 32 0xFF } := by
      simp [wipedOtp, hwipe]
    have hu : wipeComplete { s with otp := wipedOtp s } = { wipeAll { s with otp := wipedOtp s } with
        lcs := { s.lcs with transition := .none } } := by
      simp only [wipeComplete, hwipe]
      rfl
    obtain ⟨t, ht, hto, hv⟩ := views_of_runOtp (i := .lcWipeComplete) (g := wipedOtp) (f := wipeComplete) rfl hu
    have hkeys := (views_keys hv :)
    have hevr := (views_evr hv :)
    have hstg := (views_stg hv :)
    refine ⟨t, ht, ?_, ?_, ?_, (congrArg Keys.slots hkeys :), (congrArg Keys.mkPresent hkeys :), (congrArg Stg.bankA hstg :),
      (congrArg Stg.bankB hstg :), (congrArg Evr.opening hevr :), (congrArg Evr.running hevr :),
      (congrArg Lcs.transition (views_lcs hv) :)⟩
    all_goals rw [hto, hotp]
  case drawn =>
    have hu := (pfWrite_of_takes (off := 0x600028) (f := writeChalCtl (v.toNat ||| 1)) htakes).trans (writeChalCtl_new s hv)
    obtain ⟨t, ht, hv⟩ := views_of_run (i := .lcsChalNew v) (f := pfWrite 0x600028 (writeChalCtl (v.toNat ||| 1))) rfl hu
    refine ⟨t, ht, ?_⟩
    rw [(views_lcs hv :)]
    exact newChallenge_draws hserves
  case awaited =>
    have hu := (pfWrite_of_takes (off := 0x600028) (f := writeChalCtl (v.toNat ||| 1)) htakes).trans (writeChalCtl_new s hv)
    obtain ⟨t, ht, hv⟩ := views_of_run (i := .lcsChalNew v) (f := pfWrite 0x600028 (writeChalCtl (v.toNat ||| 1))) rfl hu
    refine ⟨t, ht, ?_⟩
    rw [(views_lcs hv :)]
    exact newChallenge_awaits hnone
  case notReturn =>
    refine leadsTo_of_run (f := pfWrite 0x600028 unlock) rfl ?_ rfl rfl
    rw [pfWrite_of_takes htakes]
    exact if_pos (by simpa using hlc)
  case unlocks =>
    refine leadsTo_of_run (f := pfWrite 0x600028 unlock) rfl ?_ rfl rfl
    rw [pfWrite_of_takes htakes]
    simp only [unlock, hlc, hok, bne_self_eq_false, Bool.false_eq_true, if_false, if_true, useChallenge_of_ok hok]
  case wrong =>
    obtain ⟨t, ht, hv⟩ := views_of_run (i := .lcsChalUnlock) (f := pfWrite 0x600028 unlock) rfl (pfWrite_of_takes htakes)
    refine ⟨t, ht, ?_⟩
    rw [(views_lcs hv :)]
    exact unlock_refused hlc hbad

/-! ### The recorder (R477 to R483) -/

/-- Records that fit into the opening area enter it in their order. -/
theorem foldl_storeRecord (l : List Evt) (s : State) (h : s.evr.opening.length + l.length ≤ Config.openingSize) :
    l.foldl storeRecord s = { s with evr := { s.evr with opening := s.evr.opening ++ l } } := by
  induction l generalizing s with
  | nil => simp
  | cons e l ih =>
    rw [List.length_cons] at h
    have hstore : storeRecord s e = { s with evr := { s.evr with opening := s.evr.opening ++ [e] } } := if_pos (by omega)
    rw [List.foldl_cons, hstore, ih _ (by simp only [List.length_append, List.length_singleton]; omega)]
    simp

theorem startFlush_evr (s : State) : (startFlush s).evr = { s.evr with flushing := (startFlush s).evr.flushing, saved := (startFlush s).evr.saved } := by
  unfold startFlush
  split <;> rfl

theorem flushAgain_evr (s : State) : (flushAgain s).evr = { s.evr with flushing := (flushAgain s).evr.flushing, saved := (flushAgain s).evr.saved } := by
  unfold flushAgain
  split
  · exact startFlush_evr s
  · rfl

/-- A flush that fits moves its records from the buffer to the opening area. -/
theorem flushDone_moves {s : State} (h0 : s.evr.flushing ≠ 0) (hroom : s.evr.opening.length + s.evr.flushing ≤ 4096)
    (hw : s.evr.waiting = []) : (flushDone s).evr.opening = s.evr.opening ++ s.evr.buffer.take s.evr.flushing
      ∧ (flushDone s).evr.buffer = s.evr.buffer.drop s.evr.flushing ∧ (flushDone s).evr.running = s.evr.running := by
  have hlen := List.length_take_le s.evr.flushing s.evr.buffer
  have hfold := foldl_storeRecord (s.evr.buffer.take s.evr.flushing)
    { s with evr := { s.evr with buffer := s.evr.buffer.drop s.evr.flushing, flushing := 0 } }
    (show s.evr.opening.length + _ ≤ Config.openingSize from Nat.le_trans (Nat.add_le_add_left hlen _) hroom)
  have heq : flushDone s = flushAgain { s with evr := { s.evr with
      buffer := s.evr.buffer.drop s.evr.flushing, flushing := 0, opening := s.evr.opening ++ s.evr.buffer.take s.evr.flushing } } := by
    rw [flushDone, if_neg h0]
    dsimp only
    rw [hfold]
    simp only [enterWaiting, hw, List.foldl_nil]
  rw [heq, flushAgain_evr]
  exact ⟨rfl, rfl, rfl⟩

/-- A record that enters takes its number and its place; a flush that starts and a source that is raised touch neither. -/
theorem enterEvt_spec (e : Evt) (s : State) :
    (enterEvt e s).evr.buffer = s.evr.buffer ++ [{ e with sequence := s.evr.next % 2 ^ 32 }]
      ∧ (enterEvt e s).evr.next = (s.evr.next + 1) % 2 ^ 32 ∧ (enterEvt e s).evr.opening = s.evr.opening
      ∧ (enterEvt e s).evr.running = s.evr.running := by
  have hraise (u : State) : (if 3 ≤ e.severity then raise 11 u else u).evr = u.evr := by
    split
    · exact raise_evr ..
    · rfl
  have hflush (c : Prop) [Decidable c] (u : State) : (if c then startFlush u else u).evr
      = { u.evr with flushing := (if c then startFlush u else u).evr.flushing, saved := (if c then startFlush u else u).evr.saved } := by
    split
    · exact startFlush_evr u
    · rfl
  unfold enterEvt
  dsimp only
  rw [hflush, hraise]
  exact ⟨rfl, rfl, rfl, rfl⟩

/-- Settles O44: the flush record by record, the bucket by its burst, the entry of a record by what follows it. -/
theorem recorderRows : Obligations.RecorderRows := by
  unfold Obligations.RecorderRows
  refine ⟨fun s => ⟨fun h0 hroom hw => ?flushes, fun h0 => ?idle, fun c b hb hlt => ?gains, fun c b hb hle => ?full, ?saves⟩,
    fun s e => ?enters⟩
  case flushes =>
    obtain ⟨t, ht, hv⟩ := views_of_run (i := .evrFlushComplete) (f := flushDone) (s := s) rfl rfl
    refine ⟨t, ht, ?_⟩
    rw [(views_evr hv :)]
    exact flushDone_moves h0 hroom hw
  case idle => exact leadsTo_of_run (f := flushDone) rfl (if_pos h0) rfl rfl
  case gains =>
    refine leadsTo_of_run (f := refill c) rfl ?_ rfl rfl
    simp only [refill, hb, if_pos hlt]
  case full =>
    refine leadsTo_of_run (f := refill c) rfl ?_ rfl rfl
    simp only [refill, hb, if_neg (Nat.not_lt.2 hle)]
  case saves => exact leadsTo_of_run (f := fun u : State => { u with evr := { u.evr with saved := u.evr.time } }) rfl rfl rfl rfl
  case enters =>
    obtain ⟨h1, h2, h3, h4⟩ := enterEvt_spec e s
    have hlogs := enterEvt_logs e s
    refine ⟨h1, h2, h3, h4, ?_, ?_⟩
    · rw [hlogs]
    · rw [hlogs]

end Sys2Proof.Machine

/-! PROOF. Snapshots, the trouble record, event bits and plain writes (chapter 21). -/

namespace Sys2Proof.Machine

open Sys2Proof.Claims

/-! ### The end of a command that touches the views only -/

@[simp] theorem signal_trouble (f v : Nat) (s : State) : (signal f v s).glb = s.glb := by
  unfold signal
  split <;> rfl

theorem raise_trouble (src : Nat) (s : State) : (raise src s).glb.trouble = s.glb.trouble := by
  unfold raise
  dsimp only
  split
  · rfl
  · split
    · rw [signal_trouble]
    · rfl

/-- A source that is raised sets its own bit of its group. -/
theorem raise_evtPend (src : Nat) (s : State) :
    (raise src s).glb.evtPend = s.glb.evtPend ∨ (raise src s).glb.evtPend
      = s.glb.evtPend.put (src / 32) (s.glb.evtPend.getD (src / 32) 0 ||| BitVec.ofNat 32 (2 ^ (src % 32))) := by
  unfold raise
  dsimp only
  split
  · exact Or.inl rfl
  · split
    · rw [signal_trouble]
      exact Or.inr rfl
    · exact Or.inr rfl

theorem settleVf_of_views {b s : State} (f : Nat) (h : OnlyViews b s) : settleVf b f s = s := by
  have hlive : vfcLive b f = vfcLive s f := by
    rw [h]
    rfl
  unfold settleVf
  rw [hlive]
  simp [raiseIf]

theorem foldl_settleVf_of_views {b s : State} (l : List Nat) (h : OnlyViews b s) :
    l.foldl (fun t i => settleVf b (i + 1) t) s = s := by
  induction l with
  | nil => rfl
  | cons i l ih => rw [List.foldl_cons, settleVf_of_views _ h, ih]

/-- No live status register reads a view. -/
theorem live_of_views {b s : State} (h : OnlyViews b s) :
    glbLive b = glbLive s ∧ ushStatus b = ushStatus s ∧ ktStatus b = ktStatus s ∧ rngStatus b = rngStatus s
      ∧ tilStatus b = tilStatus s ∧ scrStatus b = scrStatus s ∧ stgStatus b = stgStatus s ∧ twnStatus b = twnStatus s
      ∧ evrStatus b = evrStatus s ∧ tkbView b = tkbView s ∧ lcsState b = lcsState s := by
  rw [h]
  exact ⟨rfl, rfl, rfl, rfl, rfl, rfl, rfl, rfl, rfl, rfl, rfl⟩

theorem raiseIf_unchanged {g : State → Nat} {b v w : State} (n : Nat) (hv : v = w) (h : g b = g w) :
    raiseIf (g b != g v) n v = w := by
  simp [raiseIf, h, hv]

/-- `s` with the trouble bits of its live causes. -/
def withCauses (s : State) : State := { s with glb := { s.glb with trouble := s.glb.trouble ||| BitVec.ofNat 32 (liveCauses s) } }

/-- Where an effect touches the views only, its end may raise source 0, and no other. -/
theorem settle_of_views {b s : State} (h : OnlyViews b s) : ∃ c, settle b s = settleSmb b (raiseIf c 0 (withCauses s)) := by
  unfold settle
  extract_lets g x x0 x1 x2 x4 x5 x6 x7 x8 x9 x11 x12 x13 y
  have hw : OnlyViews b x0 := onlyViews_trans (onlyViews_trans (t := s) (u := x) h rfl) (raiseIf_views ..)
  obtain ⟨h1, h2, h4, h5, h6, h7, h8, h9, h11, h12, h13⟩ := live_of_views hw
  have e13 : x13 = x0 :=
    raiseIf_unchanged 13 (raiseIf_unchanged 12 (raiseIf_unchanged 11 (raiseIf_unchanged 9 (raiseIf_unchanged 8 (raiseIf_unchanged 7
      (raiseIf_unchanged 6 (raiseIf_unchanged 5 (raiseIf_unchanged 4 (raiseIf_unchanged 2 (raiseIf_unchanged 1 rfl h1) h2) h4) h5) h6)
        h7) h8) h9) h11) h12) h13
  have ey : y = x0 := by
    show (List.range x13.pcie.vfs).foldl (fun t i => settleVf b (i + 1) t) x13 = x0
    rw [e13, foldl_settleVf_of_views _ hw]
  rw [ey]
  exact ⟨_, rfl⟩

theorem settleSmb_glb (b s : State) : (settleSmb b s).glb = s.glb := by
  unfold settleSmb
  dsimp only
  split <;> rfl

/-- A command that touches the views only: the trouble record takes the live causes, and of the event bits only source 0 may
change. -/
theorem glb_of_run {i : Instr} {f : State → State} {s u : State} (h : exec i s = run f s) (hu : f s = u) (hv : OnlyViews s u) :
    ∃ t, exec i s = .next t ∧ t.glb.trouble = u.glb.trouble ||| BitVec.ofNat 32 (liveCauses s)
      ∧ (t.glb.evtPend = u.glb.evtPend ∨ t.glb.evtPend = u.glb.evtPend.put 0 (u.glb.evtPend.getD 0 0 ||| 1)) := by
  obtain ⟨c, hc⟩ := settle_of_views hv
  have hcauses : liveCauses u = liveCauses s := by
    rw [hv]
    rfl
  refine ⟨_, h, ?_, ?_⟩
  · show (settle s (f s)).glb.trouble = _
    rw [hu, hc, settleSmb_glb, ← hcauses]
    unfold raiseIf
    split
    · exact raise_trouble ..
    · rfl
  · show (settle s (f s)).glb.evtPend = _ ∨ (settle s (f s)).glb.evtPend = _
    rw [hu, hc, settleSmb_glb]
    unfold raiseIf
    split
    · exact raise_evtPend 0 (withCauses u)
    · exact Or.inl rfl

/-! ### Snapshots (R501) -/

theorem getD_put {α : Type} (t : Tab α) (k j : Nat) (a d : α) : (t.put k a).getD j d = if k = j then a else t.getD j d := by
  simp only [Tab.getD, Tab.get?_put]
  split <;> rfl

theorem getD_foldl_put_other {α β : Type} {l : List α} {key : α → Nat} {val : α → β} {off : Nat} (h : ∀ a ∈ l, key a ≠ off)
    (t : Tab β) (d : β) : (l.foldl (fun t a => t.put (key a) (val a)) t).getD off d = t.getD off d := by
  induction l generalizing t with
  | nil => rfl
  | cons a l ih =>
    rw [List.foldl_cons, ih fun b hb => h b (List.mem_cons_of_mem _ hb), getD_put, if_neg (h a List.mem_cons_self)]

theorem getD_foldl_put_mem {α β : Type} {l : List α} {key : α → Nat} {val : α → β} {a : α} (ha : a ∈ l)
    (hinj : ∀ b ∈ l, key b = key a → b = a) (t : Tab β) (d : β) :
    (l.foldl (fun t a => t.put (key a) (val a)) t).getD (key a) d = val a := by
  induction l generalizing t with
  | nil => cases ha
  | cons b l ih =>
    rw [List.foldl_cons]
    by_cases hl : a ∈ l
    · exact ih hl (fun c hc => hinj c (List.mem_cons_of_mem _ hc)) _
    · obtain rfl : a = b := (List.mem_cons.1 ha).resolve_right hl
      rw [getD_foldl_put_other fun c hc hk => hl (hinj c (List.mem_cons_of_mem _ hc) hk ▸ hc), getD_put, if_pos rfl]

/-- Registers 8 bytes apart, from `k` on, take their values. -/
theorem getD_range_put {β : Type} {n c : Nat} (k : Nat) (val : Nat → β) (t : Tab β) (d : β) (hc : c < n) :
    ((List.range n).foldl (fun t c => t.put (k + 8 * c) (val c)) t).getD (k + 8 * c) d = val c :=
  getD_foldl_put_mem (key := fun c => k + 8 * c) (List.mem_range.2 hc) (fun b _ hb => by omega) t d

theorem getD_range_put_other {β : Type} {n off : Nat} (k : Nat) (val : Nat → β) (t : Tab β) (d : β)
    (h : ¬ (k ≤ off ∧ off < k + 8 * n)) :
    ((List.range n).foldl (fun t c => t.put (k + 8 * c) (val c)) t).getD off d = t.getD off d :=
  getD_foldl_put_other (key := fun c => k + 8 * c) (fun c hc hk => by have := List.mem_range.1 hc; omega) t d

theorem snapshotValues_epoch (ptm cclk : Nat) (s : State) {c : Nat} (hc : c < 32) :
    (snapshotValues ptm cclk s).getD (0x180100 + 8 * c) 0 = (epochCounters s).getD (32 * s.box.snapSel + c) 0 := by
  unfold snapshotValues
  exact getD_range_put 0x180100 (fun c => (epochCounters s).getD (32 * s.box.snapSel + c) 0) _ 0 hc

theorem snapshotValues_other (ptm cclk : Nat) (s : State) {off : Nat} (h : ¬ (0x180100 ≤ off ∧ off < 0x180200)) :
    (snapshotValues ptm cclk s).getD off 0 = if 0x28 = off then cclk else if 0x20 = off then (if s.pcie.ptmLost then 0 else ptm)
      else (unseenCounters.foldl (fun t o => t.put o (Config.unseenCount s.free o)) s.glb.counters).getD off 0 := by
  unfold snapshotValues
  dsimp only
  rw [getD_range_put_other 0x180100 (fun c => (epochCounters s).getD (32 * s.box.snapSel + c) 0) _ 0 h, getD_put, getD_put]

theorem snapshotValues_counter (ptm cclk : Nat) (s : State) {off : Nat} (h20 : off ≠ 0x20) (h28 : off ≠ 0x28)
    (h : ¬ (0x180100 ≤ off ∧ off < 0x180200)) (hseen : off ∉ unseenCounters) :
    (snapshotValues ptm cclk s).getD off 0 = s.glb.counters.getD off 0 := by
  rw [snapshotValues_other _ _ _ h, if_neg (Ne.symm h28), if_neg (Ne.symm h20)]
  exact getD_foldl_put_other (key := id) (fun o ho hk => hseen (by rwa [← show o = off from hk])) _ _

/-! ### The commands -/

theorem clearTrouble_views (v : BitVec 32) (s : State) :
    OnlyViews s (clearTrouble v s) ∧ (clearTrouble v s).glb.trouble = s.glb.trouble &&& ~~~ v := by
  unfold clearTrouble
  dsimp only
  split
  · exact ⟨onlyViews_trans (t := { s with glb := { s.glb with trouble := s.glb.trouble &&& ~~~ v } }) rfl (raise_views ..), raise_trouble ..⟩
  · exact ⟨rfl, rfl⟩

theorem signal_sent (f v : Nat) (s : State) :
    msixMessage s f v ∈ (signal f v s).host ∨ 256 * f + v ∈ (signal f v s).pcie.msixPending := by
  unfold signal
  split
  · exact Or.inl (List.mem_append_right _ (List.mem_singleton.2 rfl))
  · exact Or.inr ((mem_insertSorted _ _ _).2 (Or.inl rfl))

/-- An enable that goes from 0 to 1 over a pending source signals the vector of its group. -/
theorem enableEvents_spec {g : Nat} {v : BitVec 32} {s : State} (hg : g < 32) :
    (enableEvents g v s).glb.evtEnable.getD g 0 = v
      ∧ (v &&& ~~~ (s.glb.evtEnable.getD g 0) &&& s.glb.evtPend.getD g 0 ≠ 0 →
        msixMessage s 0 (2 + g) ∈ (enableEvents g v s).host ∨ 2 + g ∈ (enableEvents g v s).pcie.msixPending) := by
  have hput (t : State) (ht : t.glb = { s.glb with evtEnable := s.glb.evtEnable.put g v }) : t.glb.evtEnable.getD g 0 = v := by
    rw [ht]
    exact Tab.getD_put_same ..
  unfold enableEvents
  rw [if_pos hg]
  dsimp only
  split
  · next h => exact ⟨hput _ rfl, fun hnew => absurd h hnew⟩
  · refine ⟨hput _ (signal_trouble ..), fun _ => ?_⟩
    have := signal_sent 0 (2 + g) { s with glb := { s.glb with evtEnable := s.glb.evtEnable.put g v } }
    rwa [Nat.mul_zero, Nat.zero_add] at this

/-- Before READY a write outside the GLB blocks sets bit 2 of the trouble record, and does nothing else (R55). -/
theorem early_of_run {i : Instr} {f : State → State} {s : State} (h : exec i s = run f s) (hf : f s = trouble 2 s) :
    LeadsTo i s s ∧ ∃ t, exec i s = .next t ∧ t.glb.trouble.getLsbD 2 = true := by
  refine ⟨leadsTo_of_views h (hf ▸ trouble_views 2 s) rfl rfl, ?_⟩
  obtain ⟨t, ht, htr, -⟩ := glb_of_run h hf (trouble_views 2 s)
  refine ⟨t, ht, ?_⟩
  rw [htr]
  simp [trouble]

theorem pfReach_early {off : Nat} {f : State → State} {s : State} (h1 : s.pcie.cfgRetry = false) (h2 : lc s ≠ .scrapped)
    (h3 : s.pcie.ready = false) (h4 : 2 < blockOf off) : pfReach off f s = trouble 2 s := by
  simp [pfReach, h1, h2, h3, h4]

theorem writePlain_scratch (v : Nat) (s : State) :
    writePlain 0x30 8 v s = { s with glb := { s.glb with scratch := BitVec.ofNat 64 (v % 2 ^ 64) } } := rfl

theorem freshWrite_scratch (v : Nat) (s : State) : freshWrite 0x30 8 v s = writePlain 0x30 8 v s := by
  have hguard : guardedOffsets.contains (regOf 0x30) = false := by decide
  have hcomp : isComplement 0x30 = false := by decide
  rw [freshWrite, hguard, hcomp]
  rfl

theorem registerWrite_scratch {s : State} {v : Nat} (h1 : s.pcie.cfgRetry = false) (h2 : lc s ≠ .scrapped)
    (hp : s.glb.pairs = []) (hv : v < 2 ^ 64) :
    registerWrite (.ctl 0x30) 8 v s = { s with glb := { s.glb with scratch := BitVec.ofNat 64 v } } := by
  have hpair : s.glb.pairs.get? (blockOf 0x30) = none := by rw [hp]; rfl
  have hctl : ctlWrite 0x30 8 v s = freshWrite 0x30 8 v s := by simp only [ctlWrite, hpair]
  have hreach : pfReach 0x30 (ctlWrite 0x30 8 v) s = ctlWrite 0x30 8 v s := by simp [pfReach, h1, h2, blockOf]
  have haccess : accessOk 0x30 8 = true := by decide
  have hpf : pfAccess 0x30 8 v s = pfReach 0x30 (ctlWrite 0x30 8 v) s := by simp [pfAccess, h1, haccess]
  refine hpf.trans (hreach.trans (hctl.trans ((freshWrite_scratch v s).trans ((writePlain_scratch v s).trans ?_))))
  rw [Nat.mod_eq_of_lt hv]

/-- Settles O46: snapshots offset by offset, the views' registers by what the end of a command may add. -/
theorem glbRegisters : Obligations.GlbRegisters := by
  unfold Obligations.GlbRegisters
  refine ⟨fun s ptm cclk htakes => ⟨fun hbusy => ?snapshot, fun hbusy => ?settling, ?settled⟩,
    fun s htakes => ⟨fun v b hb hv => ?clears, fun v b hv hs => ?stays, fun g v hg => ?acks, fun g v hg => ?enables⟩,
    fun s hretry hlc => ⟨fun hready off width v hok hblock hoff => ?early, fun hready v => ?closed, fun hpairs v hv => ?scratch⟩⟩
  case snapshot =>
    have hu : pfWrite 0x10 (takeSnapshot ptm cclk) s = spend { s with glb := { s.glb with
        snapBusy := true, snapCount := s.glb.snapCount + 1, held := snapshotValues ptm cclk s } } := by
      rw [pfWrite_of_takes htakes]
      exact if_neg (ne_true_of_eq_false hbusy)
    generalize hm : snapshotValues ptm cclk s = m at hu
    obtain ⟨t, ht, hv⟩ := views_of_run (i := .glbSnapshot ptm cclk) (f := pfWrite 0x10 (takeSnapshot ptm cclk)) rfl hu
    have hglb := (views_glb hv :)
    have hheld : t.glb.held = snapshotValues ptm cclk s := hm ▸ (congrArg Glb.held hglb :)
    refine ⟨t, ht, (congrArg Glb.snapBusy hglb :), (congrArg Glb.snapCount hglb :), ?_, ?_, fun c hc => ?_,
      fun off h20 h28 hr hs => ?_, (congrArg Glb.counters hglb :)⟩
    · rw [hheld, snapshotValues_other _ _ _ (by decide), if_pos rfl]
    · rw [hheld, snapshotValues_other _ _ _ (by decide), if_neg (by decide), if_pos rfl]
    · rw [hheld, snapshotValues_epoch _ _ _ hc]
    · rw [hheld, snapshotValues_counter _ _ _ h20 h28 hr hs]
  case settling =>
    refine leadsTo_of_run (f := pfWrite 0x10 (takeSnapshot ptm cclk)) rfl ?_ rfl rfl
    rw [pfWrite_of_takes htakes]
    exact if_pos hbusy
  case settled =>
    exact leadsTo_of_run (f := fun u : State => { u with glb := { u.glb with snapBusy := false } }) rfl rfl rfl rfl
  case clears =>
    obtain ⟨hviews, htr⟩ := clearTrouble_views v s
    obtain ⟨t, ht, htrouble, -⟩ := glb_of_run (i := .glbTroubleWrite v) (f := pfWrite 0x10008 (clearTrouble v)) rfl
      (pfWrite_of_takes htakes) hviews
    refine ⟨t, ht, ?_⟩
    rw [htrouble, htr]
    simp only [BitVec.getLsbD_or, BitVec.getLsbD_and, BitVec.getLsbD_not, BitVec.getLsbD_ofNat, hv, hb, decide_true, Bool.not_true,
      Bool.and_false, Bool.false_or, Bool.true_and]
  case stays =>
    obtain ⟨hviews, htr⟩ := clearTrouble_views v s
    obtain ⟨t, ht, htrouble, -⟩ := glb_of_run (i := .glbTroubleWrite v) (f := pfWrite 0x10008 (clearTrouble v)) rfl
      (pfWrite_of_takes htakes) hviews
    refine ⟨t, ht, ?_⟩
    rw [htrouble, htr]
    have hb : b < 32 := BitVec.lt_of_getLsbD hs
    simp only [BitVec.getLsbD_or, BitVec.getLsbD_and, BitVec.getLsbD_not, hv, hs, hb, decide_true, Bool.not_false, Bool.and_true,
      Bool.true_or]
  case acks =>
    have hu : pfWrite (0x30200 + 8 * g) (ackEvents g v) s
        = { s with glb := { s.glb with evtPend := s.glb.evtPend.put g (s.glb.evtPend.getD g 0 &&& ~~~ v) } } := by
      rw [pfWrite_of_takes htakes]
      exact if_pos hg
    obtain ⟨t, ht, -, hpend⟩ := glb_of_run (i := .glbEvtAck g v) (f := pfWrite (0x30200 + 8 * g) (ackEvents g v)) rfl hu rfl
    refine ⟨t, ht, fun h1 => ?_, fun h0 b h1 hb => ?_⟩
    · rcases hpend with hp | hp
      · rw [hp, Tab.getD_put_same]
      · rw [hp, getD_put, if_neg (by omega), Tab.getD_put_same]
    · subst h0
      rcases hpend with hp | hp
      · rw [hp, Tab.getD_put_same]
      · rw [hp, Tab.getD_put_same, Tab.getD_put_same, BitVec.getLsbD_or]
        have hone : (1 : BitVec 32).getLsbD b = false := by
          show (1#32).getLsbD b = false
          rw [BitVec.getLsbD_one]
          simp
          omega
        rw [hone, Bool.or_false]
  case enables =>
    have hu : pfWrite (0x30100 + 8 * g) (enableEvents g v) s = enableEvents g v s := pfWrite_of_takes htakes
    obtain ⟨t, ht, hf⟩ := follows_of_run (i := .glbEvtEnableWrite g v) (f := pfWrite (0x30100 + 8 * g) (enableEvents g v)) rfl hu
    obtain ⟨henable, hsignal⟩ := enableEvents_spec (v := v) (s := s) hg
    refine ⟨t, ht, ?_, fun hnew => ?_⟩
    · rw [(congrArg Glb.evtEnable (views_glb hf.only) :)]
      exact henable
    · rcases hsignal hnew with h | h
      · exact Or.inl (follows_sends hf h)
      · exact Or.inr (hf.vectors _ h)
  case early =>
    refine early_of_run (f := registerWrite (.ctl off) width v) rfl ?_
    rw [registerWrite, pfAccess, if_neg (by simp [hretry]), if_neg (by simp [hok]), if_neg (Nat.not_le.2 hoff),
      pfReach_early hretry hlc hready hblock]
  case closed =>
    have hearly {off : Nat} (f : State → State) (hb : 2 < blockOf off) : pfWrite off f s = trouble 2 s :=
      pfReach_early hretry hlc hready hb
    exact ⟨(early_of_run (f := pfWrite 0x180008 (writeBoxCfg v.toNat)) rfl (hearly _ (by decide))).1,
      (early_of_run (f := pfWrite 0x40010 (adminCfg v.toNat)) rfl (hearly _ (by decide))).1,
      (early_of_run (f := pfWrite 0x600028 unlock) rfl (hearly _ (by decide))).1,
      (early_of_run (f := pfGuarded 0x480008 (countEvent 45)) rfl (hearly _ (by decide))).1,
      (early_of_run (f := pfGuarded 0x280018 (writeRevive v.toNat)) rfl (hearly _ (by decide))).1⟩
  case scratch =>
    exact leadsTo_of_run (f := registerWrite (.ctl 0x30) 8 v) rfl (registerWrite_scratch hretry hlc hpairs hv) rfl rfl

end Sys2Proof.Machine

/-! PROOF. What keeps the operating time: events, the ends of operations, and what the compute die loses (R478). -/

namespace Sys2Proof.Machine

open Sys2Proof.Claims

/-- Operating time and cycle count stay, and what is saved of the time is what was saved or the time itself. -/
structure KeepsHours (s t : State) : Prop where
  time : t.evr.time = s.evr.time
  cycles : t.evr.cycles = s.evr.cycles
  saved : t.evr.saved = s.evr.saved ∨ t.evr.saved = s.evr.time

theorem keepsHours_of_evr {s t : State} (h : t.evr = s.evr) : KeepsHours s t :=
  ⟨congrArg Evr.time h, congrArg Evr.cycles h, Or.inl (congrArg Evr.saved h)⟩

theorem keepsHours_refl (s : State) : KeepsHours s s := keepsHours_of_evr rfl

theorem keepsHours_trans {s t u : State} (h : KeepsHours s t) (g : KeepsHours t u) : KeepsHours s u := by
  refine ⟨g.time.trans h.time, g.cycles.trans h.cycles, ?_⟩
  rcases g.saved with hg | hg
  · rw [hg]
    exact h.saved
  · exact Or.inr (hg.trans h.time)

/-- A step that the relation starts behind, or ends before, and that leaves the recorder as it was. -/
theorem keepsHours_after {s t u : State} (g : KeepsHours t u) (h : t.evr = s.evr) : KeepsHours s u :=
  keepsHours_trans (keepsHours_of_evr h) g

theorem keepsHours_then {s t u : State} (h : KeepsHours s t) (g : u.evr = t.evr) : KeepsHours s u :=
  keepsHours_trans h (keepsHours_of_evr g)

theorem keepsHours_ite {c : Prop} [Decidable c] {s t u : State} (h : KeepsHours s t) (g : KeepsHours s u) :
    KeepsHours s (if c then t else u) := by
  split
  · exact h
  · exact g

theorem keepsHours_foldl {α : Type} (f : State → α → State) (h : ∀ s a, KeepsHours s (f s a)) (l : List α) (s : State) :
    KeepsHours s (l.foldl f s) := by
  induction l generalizing s with
  | nil => exact keepsHours_refl s
  | cons a l ih => exact keepsHours_trans (h s a) (ih _)

/-! ### Records -/

theorem startFlush_hours (s : State) : KeepsHours s (startFlush s) := by
  unfold startFlush
  split
  · exact ⟨rfl, rfl, Or.inr rfl⟩
  · exact keepsHours_refl s

theorem enterEvt_hours (e : Evt) (s : State) : KeepsHours s (enterEvt e s) := by
  have hraise (u : State) : KeepsHours u (if 3 ≤ e.severity then raise 11 u else u) :=
    keepsHours_ite (keepsHours_of_evr (raise_evr ..)) (keepsHours_refl u)
  have hflush (c : Prop) [Decidable c] (u : State) : KeepsHours u (if c then startFlush u else u) :=
    keepsHours_ite (startFlush_hours u) (keepsHours_refl u)
  have hplace : KeepsHours s (bump Ctr.evrRecords 1 { s with evr := { s.evr with
      buffer := s.evr.buffer ++ [{ e with sequence := s.evr.next % 2 ^ 32 }], next := (s.evr.next + 1) % 2 ^ 32 } }) :=
    ⟨rfl, rfl, Or.inl rfl⟩
  unfold enterEvt
  exact keepsHours_trans (keepsHours_trans hplace (hraise _)) (hflush _ _)

theorem enterBoth_hours (e : Evt) (s : State) : KeepsHours s (enterBoth e s) := by
  unfold enterBoth
  split
  · exact enterEvt_hours e s
  · refine keepsHours_trans (keepsHours_trans ?_ (enterEvt_hours _ _)) (enterEvt_hours _ _)
    exact ⟨rfl, rfl, Or.inl rfl⟩

theorem recordEvt_hours (e : Evt) (s : State) : KeepsHours s (recordEvt e s) := by
  have htoken : KeepsHours s (enterBoth e (takeToken e.code s)) :=
    keepsHours_trans (t := takeToken e.code s) ⟨rfl, rfl, Or.inl rfl⟩ (enterBoth_hours _ _)
  exact keepsHours_ite (keepsHours_ite (enterBoth_hours e s) ⟨rfl, rfl, Or.inl rfl⟩)
    (keepsHours_ite ⟨rfl, rfl, Or.inl rfl⟩ (keepsHours_ite (enterBoth_hours e s)
      (keepsHours_ite ⟨rfl, rfl, Or.inl rfl⟩ htoken)))

theorem event_hours (code sev fn : Nat) (d : Bytes) (s : State) : KeepsHours s (event code sev fn d s) := recordEvt_hours ..

/-! ### The ends of operations -/

theorem retireTile_hours (t cause : Nat) (s : State) : KeepsHours s (retireTile t cause s) := by
  have h : KeepsHours s (trouble 7 (event 0x0602 2 deviceWide [byte t, byte cause]
      (updTile t (fun y => { y with state := .retired, retiredHour := hoursOf s.evr.time, retireWanted := false }) s))) :=
    keepsHours_then (keepsHours_after (event_hours 0x0602 2 deviceWide [byte t, byte cause]
      (updTile t (fun y => { y with state := .retired, retiredHour := hoursOf s.evr.time, retireWanted := false }) s)) rfl) rfl
  unfold retireTile
  dsimp only
  split
  · exact keepsHours_refl s
  · split
    · exact keepsHours_trans h (keepsHours_of_evr rfl)
    · exact h

theorem freeUnit?_hours (u : Option Nat) (s : State) : KeepsHours s (freeUnit? u s) := by
  have hrelease (t : Nat) (v : State) : KeepsHours v (atRelease t v) := by
    unfold atRelease
    dsimp only
    split
    · exact keepsHours_refl v
    · have h : KeepsHours v (match (tileAt v t).next with
          | none => v
          | some n => updTile t (fun y => { y with pool := n.1, split := n.2, next := none, cached := [], cachedB := [] }) v) := by
        split <;> exact keepsHours_of_evr rfl
      exact keepsHours_ite (keepsHours_trans h (retireTile_hours ..)) h
  cases u with
  | none => exact keepsHours_refl s
  | some v => exact keepsHours_after (hrelease _ _) rfl

theorem releasePair_hours (k : Nat) (s : State) : KeepsHours s (releasePair k s) := by
  unfold releasePair
  split
  · exact keepsHours_refl s
  · refine keepsHours_then ?_ (updSeat_evr ..)
    refine keepsHours_trans (keepsHours_trans ?_ (freeUnit?_hours ..)) (freeUnit?_hours ..)
    exact keepsHours_of_evr rfl

theorem endCeremony_hours (result : Nat) (s : State) : KeepsHours s (endCeremony result s) := by
  have hfinish (c : Ceremony) : KeepsHours s (event 0x0C02 1 deviceWide ([byte c.action, byte result] ++ leBytes 2 (countedMask c))
      { s with tkb := { s.tkb with approval := .none, result := result } }) :=
    keepsHours_after (event_hours ..) rfl
  unfold endCeremony
  dsimp only
  split
  · exact hfinish _
  · exact hfinish _
  · exact keepsHours_refl s

theorem lapseApproval_hours (k : Nat) (s : State) : KeepsHours s (lapseApproval k s) := by
  unfold lapseApproval
  split
  · split
    · exact keepsHours_refl s
    · exact keepsHours_ite (keepsHours_after (endCeremony_hours ..) rfl) (keepsHours_of_evr rfl)
  · exact keepsHours_refl s

theorem forfeitLeaf_evr (x : Seat) (s : State) : (forfeitLeaf x s).evr = s.evr := by
  unfold forfeitLeaf
  split
  · rfl
  · split <;> rfl

theorem dropRun_hours (k : Nat) (s : State) : KeepsHours s (dropRun k s) := by
  unfold dropRun
  split
  · exact keepsHours_refl s
  · next x _ =>
    dsimp only
    have h1 : KeepsHours s (if x.phase = .held then undoHold x.undo (releasePair k s) else releasePair k s) :=
      keepsHours_ite (keepsHours_trans (releasePair_hours k s) (keepsHours_of_evr rfl)) (releasePair_hours k s)
    exact keepsHours_trans (keepsHours_trans (keepsHours_trans h1 (keepsHours_of_evr (forfeitLeaf_evr ..))) (lapseApproval_hours ..))
      (keepsHours_of_evr rfl)

theorem endQuiesces_evr (s : State) : (endQuiesces s).evr = s.evr := by
  unfold endQuiesces
  refine List.foldlRecOn (motive := fun t : State => t.evr = s.evr) _ _ rfl fun t ht w _ => ?_
  split
  · exact ht
  · exact ht

theorem releaseSeat_hours (k : Nat) (s : State) : KeepsHours s (releaseSeat k s) :=
  keepsHours_of_evr (endQuiesces_evr _)

theorem squashSeat_hours (k : Nat) (s : State) : KeepsHours s (squashSeat k s) :=
  keepsHours_trans (dropRun_hours k s) (releaseSeat_hours k _)

theorem complete_evr (i : Item) (s : State) : (complete i s).evr = s.evr := by
  unfold complete countCompletion
  split <;> rfl

theorem endSeat_hours (k : Nat) (st : Status) (s : State) : KeepsHours s (endSeat k st s) := by
  unfold endSeat
  split
  · exact keepsHours_refl s
  · exact keepsHours_ite (keepsHours_trans (dropRun_hours k s) (releaseSeat_hours k _))
      (keepsHours_trans (dropRun_hours k s) (keepsHours_of_evr (complete_evr ..)))

theorem operandFails_hours (k : Nat) (s : State) : KeepsHours s (operandFails k s) := by
  unfold operandFails
  split
  · exact keepsHours_refl s
  · dsimp only
    split
    · exact endSeat_hours ..
    · exact keepsHours_after (endSeat_hours ..) rfl

theorem detach_hours (k : Nat) (s : State) : KeepsHours s (detach k s) := by
  unfold detach
  split
  · exact keepsHours_refl s
  · exact keepsHours_ite (keepsHours_after (operandFails_hours ..) rfl) (keepsHours_of_evr rfl)

theorem resetSeat_hours (s : State) (k : Nat) : KeepsHours s (resetSeat s k) := by
  unfold resetSeat
  split
  · exact keepsHours_refl s
  · split
    · exact squashSeat_hours k s
    · exact keepsHours_ite (squashSeat_hours k s) (detach_hours k s)
    · exact releaseSeat_hours k s
    · exact keepsHours_of_evr rfl
    · exact detach_hours k s

/-! ### Resets -/

theorem drainFunction_hours (f : Nat) (s : State) : KeepsHours s (drainFunction f s) :=
  keepsHours_trans (keepsHours_of_evr (t := drainQueues f s) rfl) (keepsHours_foldl _ resetSeat_hours _ _)

theorem startReset_hours (f cause : Nat) (joined : List Nat) (vanishes : Bool) (s : State) :
    KeepsHours s (startReset f cause joined vanishes s) := by
  unfold startReset
  split
  · exact keepsHours_of_evr rfl
  · dsimp only
    refine keepsHours_trans (keepsHours_trans ?_ (drainFunction_hours ..)) (event_hours ..)
    exact keepsHours_of_evr rfl

theorem resetHot_hours (s : State) : KeepsHours s (resetHot s) := by
  have hown : KeepsHours s (resetOwn s) := keepsHours_trans (drainFunction_hours 0 s) (keepsHours_of_evr rfl)
  have hvfs : KeepsHours (resetOwn s) (resetVfs (resetOwn s)) :=
    keepsHours_foldl _ (fun t i => startReset_hours (i + 1) 2 [] true t) _ _
  have heq : (resetHot s).evr = (resetVfs (resetOwn s)).evr := rfl
  exact keepsHours_trans (keepsHours_trans hown hvfs) (keepsHours_of_evr heq)

theorem endKey_evr (i seq : Nat) (s : State) : (endKey i seq s).evr = s.evr := by
  have hpin : (endPin i s).evr = s.evr := by
    unfold endPin
    split <;> rfl
  unfold endKey
  split
  · rfl
  · split
    · rfl
    · exact hpin

theorem erasePartition_hours (f : Nat) (s : State) : KeepsHours s (erasePartition f s) := by
  have hshared : (writeShared (.partitionErase f) (fun q => .partitionErase q f) s).evr = s.evr := by
    rw [writeShared_only (.partitionErase f) (fun q => .partitionErase q f) s]
  have hslots (seq : Nat) (l : List (Nat × Slot)) (u : State) : KeepsHours u (l.foldl (fun t x => endKey x.1 seq t) u) :=
    keepsHours_foldl _ (fun t x => keepsHours_of_evr (endKey_evr x.1 seq t)) l u
  exact keepsHours_trans (keepsHours_trans (keepsHours_of_evr hshared) (hslots _ _ _)) (keepsHours_of_evr rfl)

theorem unpair_hours (s : State) : KeepsHours s (unpair s) := by
  have hmirrors (u : State) : KeepsHours u (eraseMirrors u) :=
    keepsHours_foldl _ (fun t f => keepsHours_trans (erasePartition_hours f t) (event_hours ..)) _ u
  refine keepsHours_then (t := eraseMirrors { endSession s with twn := { (endSession s).twn with record := none } }) ?_ rfl
  exact keepsHours_after (hmirrors _) rfl

theorem losePtm_hours (s : State) : KeepsHours s (losePtm s) := by
  unfold losePtm
  exact keepsHours_ite (keepsHours_of_evr rfl) (keepsHours_after (event_hours ..) rfl)

theorem resetTwinConfig_hours (s : State) : KeepsHours s (resetTwinConfig s) := by
  unfold resetTwinConfig
  exact keepsHours_trans (keepsHours_ite (unpair_hours s) (keepsHours_refl s)) (keepsHours_of_evr rfl)

/-- What the compute die loses, the operating time is not part of (R478). -/
theorem resetCompute_hours (s : State) : KeepsHours s (resetCompute s) := by
  have hops : KeepsHours s (loseOperations s) :=
    keepsHours_after (keepsHours_foldl _ (fun t k => squashSeat_hours k t) _ _) rfl
  have hcer (u : State) : KeepsHours u (resetCeremony u) := keepsHours_trans (endCeremony_hours 0 u) (keepsHours_of_evr rfl)
  have hlost : KeepsHours s (lostSeats s) :=
    keepsHours_then (keepsHours_trans (keepsHours_trans hops (keepsHours_after (hcer (dropSwitch (loseKeyState (loseOperations s)))) rfl))
      (resetTwinConfig_hours _)) rfl
  have hptm (u : State) : KeepsHours u (writePtmEnable false u) :=
    keepsHours_after (losePtm_hours { u with pcie := { u.pcie with ptmEnable := false, ptmDialog := u.pcie.ptmDialog && false } }) rfl
  have hctl (u : State) : KeepsHours u (resetController u) :=
    keepsHours_then (hptm u) rfl
  rw [resetCompute_eq]
  exact keepsHours_trans (keepsHours_trans hlost (resetHot_hours _)) (keepsHours_after (hctl (resetRegisters _)) rfl)

/-! ### The curtain -/

theorem declareAbsent_hours (s : State) : KeepsHours s (declareAbsent s) := by
  have habsent (u : State) : KeepsHours u (bump Ctr.absences 1 (event 0x0901 2 deviceWide [] u)) :=
    keepsHours_trans (event_hours ..) (keepsHours_of_evr rfl)
  have hpage (e : Nat) (c : List (Nat × Nat)) (u : State) : (writeTwinPage e c true u).evr = u.evr := by
    unfold writeTwinPage
    split <;> rfl
  unfold declareAbsent
  refine keepsHours_trans (t := endSession s) (keepsHours_of_evr rfl) ?_
  dsimp only
  split
  · exact keepsHours_ite (unpair_hours _) (keepsHours_of_evr rfl)
  · split
    · exact keepsHours_refl _
    · have h : KeepsHours (endSession s) (bump Ctr.absences 1 (event 0x0901 2 deviceWide [] { endSession s with
          twn := { (endSession s).twn with state := .absent },
          ten := { (endSession s).ten with homes := (endSession s).ten.homes.mapRows fun _ h => { h with adopted := false } } })) :=
        keepsHours_after (habsent _) rfl
      split
      · exact h
      · exact keepsHours_trans h (keepsHours_of_evr (hpage ..))

theorem dropCurtain_hours (ch : Nat) (s : State) : KeepsHours s (dropCurtain ch s) := by
  have hops (u : State) : KeepsHours u (curtainOps u) :=
    keepsHours_after (t := cutRecords u) (keepsHours_foldl _ (fun t k => endSeat_hours k .curtain t) _ _) rfl
  have hstreams (u : State) : (closeStreams u).evr = u.evr := by rw [closeStreams_frame]
  have hsecrets (u : State) : KeepsHours u (curtainStage2 u) :=
    keepsHours_trans (keepsHours_trans (keepsHours_then (u := clearSecrets (clearRandom (closeStreams (curtainOps u))))
      (keepsHours_then (hops u) (hstreams _)) rfl) (declareAbsent_hours (clearSecrets (clearRandom (closeStreams (curtainOps u)))))) (endCeremony_hours 0 _)
  have hdrop (u : State) : KeepsHours u (curtainStage2 (curtainStage1 u)) := keepsHours_after (hsecrets _) rfl
  have hbump : KeepsHours s (bump Ctr.tmpDrops 1 (event 0x0A04 4 deviceWide [byte ch] s)) :=
    keepsHours_trans (event_hours ..) (keepsHours_of_evr rfl)
  unfold dropCurtain
  refine keepsHours_ite (keepsHours_refl s) ?_
  dsimp only
  generalize bump Ctr.tmpDrops 1 (event 0x0A04 4 deviceWide [byte ch] s) = u at hbump
  have hset : KeepsHours s { u with tmp := { u.tmp with dropTick := some u.now, curtainDown := true, raising := false } } :=
    keepsHours_then hbump rfl
  generalize { u with tmp := { u.tmp with dropTick := some u.now, curtainDown := true, raising := false } } = v at hset
  exact keepsHours_then (t := curtainStage2 (curtainStage1 v)) (keepsHours_trans hset (hdrop v)) rfl

/-- The operating time and the hold that a firing sets: `v` holds the time as `s` does. -/
theorem holdSet_hours {s v : State} (p : Nat) (h : KeepsHours s v) :
    KeepsHours s (if 2 ≤ p then { v with tmp := { v.tmp with hold := true, lastHold := some v.now } } else v) := by
  split
  · exact keepsHours_then h rfl
  · exact h

theorem fireChannel_hours_eq (n : Nat) (s : State) :
    ∃ u, KeepsHours s u ∧ fireChannel n s = if 3 ≤ (monAt s n).policy then dropCurtain n u else u := by
  have hraise (c : Prop) [Decidable c] (u : State) : KeepsHours u (if c then raise 10 u else u) :=
    keepsHours_ite (keepsHours_of_evr (raise_evr ..)) (keepsHours_refl u)
  have hmon : KeepsHours s (bump (Ctr.tmpFirings n) 1
      (updMon n (fun m => { m with stamps := [], lastFire := some (s.now, (monAt s n).policy) }) s)) := keepsHours_of_evr rfl
  refine ⟨_, ?_, rfl⟩
  generalize bump (Ctr.tmpFirings n) 1
    (updMon n (fun m => { m with stamps := [], lastFire := some (s.now, (monAt s n).policy) }) s) = v at hmon
  exact holdSet_hours _ (keepsHours_trans hmon (keepsHours_trans (event_hours ..) (hraise (1 ≤ (monAt s n).policy) _)))

theorem fireChannel_hours (n : Nat) (s : State) : KeepsHours s (fireChannel n s) := by
  obtain ⟨u, hu, hfire⟩ := fireChannel_hours_eq n s
  rw [hfire]
  exact keepsHours_ite (keepsHours_trans hu (dropCurtain_hours n u)) hu

theorem countEvent_hours (n : Nat) (s : State) : KeepsHours s (countEvent n s) := by
  by_cases hlc : lc s = .scrapped
  · rw [countEvent, if_pos hlc]
    exact keepsHours_refl s
  · have hcounted : KeepsHours s (counted n s) := keepsHours_of_evr (views_evr (counted_views n s) :)
    rw [countEvent_eq hlc]
    exact keepsHours_ite (keepsHours_trans hcounted (fireChannel_hours n _)) hcounted

end Sys2Proof.Machine

/-! PROOF. Losses of supply, and the power-up of the vault die (O48): R389, R462, R464, R473, R478, R480, R517, R518, R522. -/

namespace Sys2Proof.Machine

open Sys2Proof.Claims

/-! ### What a loss of the main supply leaves (R31, R123, R522) -/

theorem enterWaiting_hours (s : State) : KeepsHours s (enterWaiting s) :=
  keepsHours_trans (t := { s with evr := { s.evr with waiting := [] } }) ⟨rfl, rfl, Or.inl rfl⟩
    (keepsHours_foldl (fun t e => recordEvt e t) (fun t e => recordEvt_hours e t) _ _)

theorem storeRecord_hours (s : State) (e : Evt) : KeepsHours s (storeRecord s e) := by
  unfold storeRecord
  split
  · exact ⟨rfl, rfl, Or.inl rfl⟩
  · split <;> exact ⟨rfl, rfl, Or.inl rfl⟩

theorem flushAll_hours (s : State) : KeepsHours s (flushAll s) := by
  have hclear (u : State) : KeepsHours u { u with evr := { u.evr with buffer := [], flushing := 0 } } := ⟨rfl, rfl, Or.inl rfl⟩
  have hstore (l : List Evt) (u : State) : KeepsHours u (l.foldl storeRecord { u with evr := { u.evr with buffer := [], flushing := 0 } }) :=
    keepsHours_trans (hclear u) (keepsHours_foldl storeRecord storeRecord_hours l _)
  exact keepsHours_trans (keepsHours_trans (hstore _ s) (enterWaiting_hours _)) (hstore _ _)

/-- A loss of the main supply takes operations, streams, rings and meters, and of the recorder what was not flushed. -/
structure LosesSupply (s t : State) : Prop where
  seats : t.seats = []
  writer : t.writer = []
  rings : t.ush.rings = []
  streams : t.dig.streams = []
  running : t.box.running = false
  ready : t.pcie.ready = false
  up : t.pwr.up = false
  buffer : t.evr.buffer = []
  slots : s.twn.state ≠ .pairing → (∀ p ∈ s.seats, p.2.phase ≠ .held) → t.keys.slots = s.keys.slots
  mkPresent : t.keys.mkPresent = s.keys.mkPresent
  hours : KeepsHours s t

theorem loseMeters_frame (s : State) : (loseMeters s).seats = s.seats ∧ (loseMeters s).writer = s.writer
    ∧ (loseMeters s).evr = s.evr ∧ (loseMeters s).keys = s.keys ∧ (loseMeters s).box.running = false :=
  ⟨rfl, rfl, rfl, rfl, rfl⟩

theorem loseSupply_leaves (s : State) : LosesSupply s (loseSupply s) := by
  have h := resetCompute_leaves s
  obtain ⟨hmeters, hwriter, hevr, hkeys, hrun⟩ := loseMeters_frame (resetCompute s)
  rw [h.seats] at hmeters
  rw [h.writer] at hwriter
  have hhours := keepsHours_then (resetCompute_hours s) hevr
  have hstreams := closeStreams_streams (loseMeters (resetCompute s))
  have hframe := closeStreams_frame (loseMeters (resetCompute s))
  unfold loseSupply
  dsimp only
  generalize loseMeters (resetCompute s) = v at *
  generalize closeStreams v = u at *
  have hseats : u.seats = [] := by rw [hframe]; exact hmeters
  have huw : u.writer = [] := by rw [hframe]; exact hwriter
  have huk : u.keys = v.keys := (congrArg State.keys hframe :)
  have hue : u.evr = v.evr := (congrArg State.evr hframe :)
  have hub : u.box = v.box := (congrArg State.box hframe :)
  have hslots : u.keys.slots = (resetCompute s).keys.slots := by rw [huk, hkeys]
  have hmk : u.keys.mkPresent = (resetCompute s).keys.mkPresent := by rw [huk, hkeys]
  have hhu := keepsHours_then hhours hue
  refine ⟨?_, huw, rfl, hstreams, (congrArg Box.running hub).trans hrun, rfl, rfl, rfl, fun h1 h2 => hslots.trans (h.slots h1 h2),
    hmk.trans h.mkPresent, keepsHours_trans hhu ⟨rfl, rfl, Or.inl rfl⟩⟩
  dsimp only [endSession, clearRandom]
  rw [hseats]
  rfl

/-! ### PWRFAIL_N falls (R517) -/

theorem consumeTransition_hours (s : State) : KeepsHours s (consumeTransition s) := by
  unfold consumeTransition
  dsimp only
  split
  · exact keepsHours_ite (keepsHours_of_evr rfl) (keepsHours_of_evr rfl)
  · exact keepsHours_of_evr rfl

theorem afterProgramming_hours (t : Nat) (s : State) : KeepsHours s (afterProgramming t s) := by
  unfold afterProgramming
  dsimp only
  split
  · exact keepsHours_of_evr rfl
  · exact keepsHours_of_evr rfl
  · exact keepsHours_of_evr rfl
  · exact keepsHours_then (keepsHours_after (resetHot_hours { s with lcs := { s.lcs with transition := .wiping t } }) rfl) rfl

theorem groupProgrammed_hours (s : State) : KeepsHours s (groupProgrammed s) := by
  unfold groupProgrammed
  split
  · next t from_ _ =>
    refine keepsHours_trans ?_ (afterProgramming_hours t _)
    have hevent : KeepsHours s (event 0x0D01 4 deviceWide [byte from_, byte (lc (consumeTransition s)).code] (consumeTransition s)) :=
      keepsHours_trans (consumeTransition_hours s) (event_hours ..)
    exact keepsHours_trans hevent (keepsHours_ite (unpair_hours _) (keepsHours_refl _))
  · exact keepsHours_refl s

/-- Everything that the hold-up saves, before the supply is lost. -/
def holdUp (s : State) : State :=
  let t := flushAll (event 0x0002 2 deviceWide [] (groupProgrammed s))
  { t with evr := { t.evr with saved := t.evr.time } }

theorem pwrfailFalls_eq {s : State} (h : fallIgnored s = false) :
    pwrfailFalls s = (let u := loseSupply (holdUp s)
                      { u with pwr := { u.pwr with pwrfailHigh := false } }) := by
  simp only [pwrfailFalls, holdUp, h, Bool.false_eq_true, if_false]

theorem holdUp_time (s : State) : (holdUp s).evr.time = s.evr.time ∧ (holdUp s).evr.saved = (holdUp s).evr.time := by
  have h : KeepsHours s (flushAll (event 0x0002 2 deviceWide [] (groupProgrammed s))) :=
    keepsHours_trans (keepsHours_trans (groupProgrammed_hours s) (event_hours ..)) (flushAll_hours _)
  unfold holdUp
  generalize flushAll (event 0x0002 2 deviceWide [] (groupProgrammed s)) = u at h
  exact ⟨h.time, rfl⟩

theorem pwrfailFalls_leaves {s : State} (h : fallIgnored s = false) :
    (∃ u, LosesSupply u (pwrfailFalls s)) ∧ (pwrfailFalls s).pwr.pwrfailHigh = false
      ∧ (pwrfailFalls s).evr.saved = (pwrfailFalls s).evr.time ∧ (pwrfailFalls s).evr.time = s.evr.time := by
  rw [pwrfailFalls_eq h]
  obtain ⟨htime, hsaved⟩ := holdUp_time s
  generalize holdUp s = v at htime hsaved
  have hl := loseSupply_leaves v
  generalize loseSupply v = u at hl
  have hsu : u.evr.saved = u.evr.time := by
    rcases hl.hours.saved with h1 | h1
    · rw [h1, hl.hours.time, hsaved]
    · rw [h1, hl.hours.time]
  exact ⟨⟨v, { hl with hours := keepsHours_then hl.hours rfl }⟩, rfl, hsu, hl.hours.time.trans htime⟩

/-! ### The supply goes (R473, R480) -/

theorem partGroup_blank_partial {n : Nat} (h1 : 1 ≤ n) (h8 : n < 8) : groupPartial (partGroup 0 n) = true := by
  interval_cases n <;> decide

theorem interruptedOtp_partial {s : State} {f : Nat} (ht : s.lcs.transition = .programming 1 f) (h0 : s.otp.g0 = 0) :
    groupPartial (interruptedOtp s).g0 = true := by
  have hpart : (interruptedOtp s).g0 = partGroup 0 (1 + Config.choice s.free % 7) := by
    simp only [interruptedOtp, ht, h0]
  rw [hpart]
  exact partGroup_blank_partial (by omega) (by omega)

theorem supplyGone_leaves {s : State} (h : sudden s = true) :
    ∃ u, LosesSupply { spend s with evr := { s.evr with buffer := [], waiting := [], time := s.evr.saved } } u
      ∧ supplyGone s = { u with pwr := { u.pwr with vault := false, mains := false, up := false } } :=
  ⟨_, loseSupply_leaves _, by rw [supplyGone, dropSupply, if_pos h]⟩

/-! ### What an event of a channel keeps of the start-up -/

/-- The supplies, the life cycle, the banks, the start of the sources and the import of the latch stay. -/
structure KeepsStart (s t : State) : Prop where
  pwr : t.pwr = s.pwr
  otp : t.otp = s.otp
  bankA : t.stg.bankA = s.stg.bankA
  bankB : t.stg.bankB = s.stg.bankB
  srcs : t.rng.srcs = s.rng.srcs
  katDone : t.rng.katDone = s.rng.katDone
  katFail : t.rng.katFail = s.rng.katFail
  latch : t.tmp.latch = s.tmp.latch
  imported : t.tmp.imported = s.tmp.imported
  onBackup : t.tmp.onBackup = s.tmp.onBackup
  replayDone : t.keys.replayDone = s.keys.replayDone

theorem keepsStart_refl (s : State) : KeepsStart s s := ⟨rfl, rfl, rfl, rfl, rfl, rfl, rfl, rfl, rfl, rfl, rfl⟩

theorem keepsStart_trans {s t u : State} (h : KeepsStart s t) (g : KeepsStart t u) : KeepsStart s u :=
  ⟨g.pwr.trans h.pwr, g.otp.trans h.otp, g.bankA.trans h.bankA, g.bankB.trans h.bankB, g.srcs.trans h.srcs,
    g.katDone.trans h.katDone, g.katFail.trans h.katFail, g.latch.trans h.latch, g.imported.trans h.imported,
    g.onBackup.trans h.onBackup, g.replayDone.trans h.replayDone⟩

theorem keepsStart_ite {c : Prop} [Decidable c] {s t u : State} (h : KeepsStart s t) (g : KeepsStart s u) :
    KeepsStart s (if c then t else u) := by
  split
  · exact h
  · exact g

theorem keepsStart_of_logs {s t : State} (h : OnlyLogs s t) : KeepsStart s t := by
  unfold OnlyLogs at h
  constructor <;> rw [h]

theorem keepsStart_of_views {s t : State} (h : OnlyViews s t) : KeepsStart s t := by
  unfold OnlyViews at h
  constructor <;> rw [h]

theorem keepsStart_of_ends {s t : State} (h : OnlyEnds s t) : KeepsStart s t := by
  unfold OnlyEnds at h
  constructor <;> rw [h]

theorem keepsStart_of_forgets {s t : State} (h : ForgetsTwin s t) : KeepsStart s t := by
  have ho := h.only
  constructor <;> rw [ho]

theorem closeStreams_start (s : State) : KeepsStart s (closeStreams s) := by
  have h := closeStreams_frame s
  constructor <;> rw [h]

theorem endCeremony_start (result : Nat) (s : State) : KeepsStart s (endCeremony result s) := by
  have h := endCeremony_logs result s
  unfold OnlyLogs at h
  constructor <;> rw [h]

theorem curtainOps_start (s : State) : KeepsStart s (curtainOps s) := by
  have h := (curtainOps_leaves s).1
  generalize curtainOps s = u at h
  exact keepsStart_trans (t := { s with writer := u.writer, ush := (cutRecords s).ush })
    ⟨rfl, rfl, rfl, rfl, rfl, rfl, rfl, rfl, rfl, rfl, rfl⟩ (keepsStart_of_ends h)

theorem clearRandom_start (s : State) : KeepsStart s (clearRandom s) := ⟨rfl, rfl, rfl, rfl, rfl, rfl, rfl, rfl, rfl, rfl, rfl⟩

theorem clearSecrets_start (s : State) : KeepsStart s (clearSecrets s) := ⟨rfl, rfl, rfl, rfl, rfl, rfl, rfl, rfl, rfl, rfl, rfl⟩

theorem curtainStage2_start (s : State) : KeepsStart s (curtainStage2 s) := by
  rw [curtainStage2_eq]
  have h1 := keepsStart_trans (curtainOps_start s) (closeStreams_start _)
  generalize closeStreams (curtainOps s) = u at *
  have h2 := keepsStart_trans h1 (keepsStart_trans (clearRandom_start u) (clearSecrets_start _))
  generalize clearSecrets (clearRandom u) = v at *
  exact keepsStart_trans h2 (keepsStart_trans (keepsStart_of_forgets (declareAbsent_forgets v)) (endCeremony_start 0 _))

theorem dropCurtain_start (ch : Nat) (s : State) : KeepsStart s (dropCurtain ch s) := by
  have hbump : KeepsStart s (bump Ctr.tmpDrops 1 (event 0x0A04 4 deviceWide [byte ch] s)) :=
    keepsStart_of_logs (onlyLogs_trans (event_logs ..) (bump_logs ..))
  unfold dropCurtain
  refine keepsStart_ite (keepsStart_refl s) ?_
  dsimp only
  generalize bump Ctr.tmpDrops 1 (event 0x0A04 4 deviceWide [byte ch] s) = u at hbump
  have hdrop := curtainStage2_start (curtainStage1 { u with tmp := { u.tmp with dropTick := some u.now, curtainDown := true, raising := false } })
  generalize curtainStage2 _ = v at *
  exact keepsStart_trans hbump ⟨hdrop.pwr, hdrop.otp, hdrop.bankA, hdrop.bankB, hdrop.srcs, hdrop.katDone, hdrop.katFail,
    hdrop.latch, hdrop.imported, hdrop.onBackup, hdrop.replayDone⟩

theorem fireChannel_start (n : Nat) (s : State) : KeepsStart s (fireChannel n s) := by
  obtain ⟨u, hu, hfire⟩ := fireChannel_eq n s
  have hfired : KeepsStart s { s with tmp := firedTmp n s } := ⟨rfl, rfl, rfl, rfl, rfl, rfl, rfl, rfl, rfl, rfl, rfl⟩
  have hlogs := keepsStart_trans hfired (keepsStart_of_logs hu)
  rw [hfire]
  exact keepsStart_ite (keepsStart_trans hlogs (dropCurtain_start n u)) hlogs

theorem countEvent_start (n : Nat) (s : State) : KeepsStart s (countEvent n s) := by
  by_cases hlc : lc s = .scrapped
  · rw [countEvent, if_pos hlc]
    exact keepsStart_refl s
  · have hstamps : KeepsStart s (bump (Ctr.tmpEvents n) 1 (updMon n (fun m => { m with stamps := eventStamps n s }) s)) :=
      ⟨rfl, rfl, rfl, rfl, rfl, rfl, rfl, rfl, rfl, rfl, rfl⟩
    have hcounted := keepsStart_trans hstamps (keepsStart_of_views (counted_views n s))
    rw [countEvent_eq hlc]
    exact keepsStart_ite (keepsStart_trans hcounted (fireChannel_start n _)) hcounted

/-! ### The power-up sequence (R389, R462, R478, R522) -/

/-- Numbering resumes at `n`. -/
def renumbered (n : Nat) (s : State) : State := { s with evr := { s.evr with next := n } }

theorem renumbered_start (n : Nat) (s : State) : KeepsStart s (renumbered n s) :=
  ⟨rfl, rfl, rfl, rfl, rfl, rfl, rfl, rfl, rfl, rfl, rfl⟩

theorem renumbered_hours (n : Nat) (s : State) : KeepsHours s (renumbered n s) := ⟨rfl, rfl, Or.inl rfl⟩

theorem powerUpRecords_eq (s : State) :
    (∃ d, powerUpRecords s = event 0x0001 0 deviceWide d s)
      ∨ ∃ n c d, powerUpRecords s = event 0x0003 2 deviceWide d (event 0x0001 0 deviceWide c (renumbered n s)) := by
  cases hl : lastStored s with
  | none =>
    left
    simp only [powerUpRecords, hl]
    exact ⟨_, rfl⟩
  | some e =>
    by_cases hc : e.code = 0x0002
    · left
      simp only [powerUpRecords, hl, if_pos hc]
      exact ⟨_, rfl⟩
    · right
      simp only [powerUpRecords, hl, if_neg hc]
      exact ⟨_, _, _, rfl⟩

theorem powerUpRecords_start (s : State) : KeepsStart s (powerUpRecords s) := by
  rcases powerUpRecords_eq s with ⟨d, h⟩ | ⟨n, c, d, h⟩
  · rw [h]
    exact keepsStart_of_logs (event_logs ..)
  · rw [h]
    refine keepsStart_trans (renumbered_start n s) ?_
    generalize renumbered n s = u
    exact keepsStart_of_logs (onlyLogs_trans (event_logs ..) (event_logs ..))

theorem powerUpRecords_hours (s : State) : KeepsHours s (powerUpRecords s) := by
  rcases powerUpRecords_eq s with ⟨d, h⟩ | ⟨n, c, d, h⟩
  · rw [h]
    exact event_hours ..
  · rw [h]
    refine keepsHours_trans (renumbered_hours n s) ?_
    generalize renumbered n s = u
    exact keepsHours_trans (event_hours ..) (event_hours ..)

theorem importRecord_logs (code : Nat) (d : Bytes) (s : State) : OnlyLogs s (importRecord code d s) := recordEvt_logs ..

theorem importRecord_hours (code : Nat) (d : Bytes) (s : State) : KeepsHours s (importRecord code d s) := recordEvt_hours ..

/-- The import of the backup latch makes records, and changes of the monitors what it names (R462). -/
theorem importLatch_eq (s : State) : ∃ u a b, OnlyLogs s u ∧ KeepsHours s u
    ∧ importLatch s = { u with tmp := { u.tmp with latch := [], imported := s.tmp.latch.length, backupLost := a,
                                                   backupEvents := b, onBackup := false } } := by
  refine ⟨_, _, _, ?_, ?_, rfl⟩
  · split
    · exact importRecord_logs ..
    · exact onlyLogs_foldl _ (fun t e => importRecord_logs _ _ t) _ _
  · exact keepsHours_ite (importRecord_hours ..) (keepsHours_foldl _ (fun t e => importRecord_hours _ _ t) _ _)

/-- The records that a check of the plans makes; of the plan's state it changes what it decides. -/
theorem recordRefusal_logs (bank : Bool) (p : Option Plan) (n : Nat) (s : State) :
    OnlyLogs s (recordRefusal bank p n s) ∧ KeepsHours s (recordRefusal bank p n s) := by
  have hend (u : State) : OnlyLogs u (trouble 12 (event 0x0801 2 deviceWide [byte (bnat bank), byte n] u)) :=
    onlyLogs_trans (event_logs ..) (trouble_logs ..)
  have hhend (u : State) : KeepsHours u (trouble 12 (event 0x0801 2 deviceWide [byte (bnat bank), byte n] u)) :=
    keepsHours_then (event_hours ..) rfl
  unfold recordRefusal
  dsimp only
  split
  · exact ⟨hend s, hhend s⟩
  · split
    · split
      · exact ⟨onlyLogs_trans (event_logs ..) (hend _), keepsHours_trans (event_hours ..) (hhend _)⟩
      · exact ⟨hend s, hhend s⟩
    · exact ⟨hend s, hhend s⟩

/-- What a step of the start-up that comes behind the start of the sources keeps. -/
def KeepsBoth (s t : State) : Prop := KeepsStart s t ∧ KeepsHours s t

theorem keepsBoth_trans {s t u : State} (h : KeepsBoth s t) (g : KeepsBoth t u) : KeepsBoth s u :=
  ⟨keepsStart_trans h.1 g.1, keepsHours_trans h.2 g.2⟩

theorem keepsBoth_ite {c : Prop} [Decidable c] {s t u : State} (h : KeepsBoth s t) (g : KeepsBoth s u) :
    KeepsBoth s (if c then t else u) := by
  split
  · exact h
  · exact g

theorem keepsBoth_refl (s : State) : KeepsBoth s s := ⟨keepsStart_refl s, keepsHours_refl s⟩

theorem event_keepsBoth (code sev fn : Nat) (d : Bytes) (s : State) : KeepsBoth s (event code sev fn d s) :=
  ⟨keepsStart_of_logs (event_logs ..), event_hours ..⟩

theorem recordRefusal_keepsBoth (bank : Bool) (p : Option Plan) (n : Nat) (s : State) : KeepsBoth s (recordRefusal bank p n s) :=
  ⟨keepsStart_of_logs (recordRefusal_logs bank p n s).1, (recordRefusal_logs bank p n s).2⟩

/-- `s` with what the check decides of the plan's state. -/
def planned (active fallback noPlan : Bool) (s : State) : State :=
  { s with stg := { s.stg with active := active, fallback := fallback, noPlan := noPlan } }

theorem planned_keepsBoth (a b c : Bool) (s : State) : KeepsBoth s (planned a b c s) :=
  ⟨⟨rfl, rfl, rfl, rfl, rfl, rfl, rfl, rfl, rfl, rfl, rfl⟩, keepsHours_of_evr rfl⟩

theorem checkPlans_keepsBoth (s : State) : KeepsBoth s (checkPlans s) := by
  have hclear : KeepsBoth s { s with stg := { s.stg with fallback := false, noPlan := false } } := planned_keepsBoth s.stg.active false false s
  unfold checkPlans
  dsimp only
  generalize { s with stg := { s.stg with fallback := false, noPlan := false } } = u at *
  split
  · exact hclear
  · next n _ =>
    have hfirst := keepsBoth_trans hclear (recordRefusal_keepsBoth s.stg.active (bankOf u s.stg.active) n u)
    generalize recordRefusal s.stg.active (bankOf u s.stg.active) n u = v at *
    split
    · exact keepsBoth_trans hfirst
        (keepsBoth_trans (planned_keepsBoth (!s.stg.active) true v.stg.noPlan v) (event_keepsBoth ..))
    · next m _ =>
      have hsecond := keepsBoth_trans hfirst (recordRefusal_keepsBoth (!s.stg.active) (bankOf v !s.stg.active) m v)
      generalize recordRefusal (!s.stg.active) (bankOf v !s.stg.active) m v = w at *
      exact keepsBoth_trans hsecond (planned_keepsBoth w.stg.active w.stg.fallback true w)

theorem enforcePlan_keepsBoth (s : State) : KeepsBoth s (enforcePlan s) := by
  unfold enforcePlan
  split <;> exact ⟨⟨rfl, rfl, rfl, rfl, rfl, rfl, rfl, rfl, rfl, rfl, rfl⟩, keepsHours_of_evr rfl⟩

theorem missingKey_keepsBoth (s : State) : KeepsBoth s (missingKey s) := by
  unfold missingKey
  split
  · exact ⟨⟨rfl, rfl, rfl, rfl, rfl, rfl, rfl, rfl, rfl, rfl, rfl⟩, keepsHours_of_evr rfl⟩
  · exact keepsBoth_refl s

theorem resumeTransition_keepsBoth (s : State) : KeepsBoth s (resumeTransition s) :=
  ⟨⟨rfl, rfl, rfl, rfl, rfl, rfl, rfl, rfl, rfl, rfl, rfl⟩, keepsHours_of_evr rfl⟩

/-- The sources start up, with the outcome of the known-answer tests. -/
def randomStarted (ok : Bool) (s : State) : State :=
  let src : Source := { Source.first with state := .startUp }
  { s with rng := { s.rng with srcs := [src, src], katDone := true, katFail := !ok } }

theorem startRandom_keepsBoth (ok : Bool) (s : State) : KeepsBoth (randomStarted ok s) (startRandom ok s) :=
  keepsBoth_ite (keepsBoth_refl _) ⟨countEvent_start 46 _, countEvent_hours 46 _⟩

/-- The supplies of the vault are valid again; VDD_VAULT was absent. -/
def poweredUp (s : State) : State :=
  { s with pwr := { s.pwr with vault := true, vhold := true, pwrfailHigh := true, up := true },
           evr := { s.evr with cycles := s.evr.cycles + 1 }, smb := { s.smb with up := true } }

/-- The latch has been imported, and what the state of the life cycle asks for recorded. -/
def latchImported (s : State) : State :=
  let t := importLatch (powerUpRecords (poweredUp s))
  missingKey (if lc t = .locked then event 0x0D02 4 deviceWide [byte t.otp.pendingTarget] t else t)

/-- The steps of the power-up behind the start of the sources. -/
def afterSources (s : State) : State :=
  let t := enforcePlan (checkPlans s)
  resumeTransition (if paired t then { t with twn := { t.twn with state := .absent } } else t)

theorem powerUp_eq {s : State} (ok : Bool) (hup : s.pwr.up = false) (hvault : s.pwr.vault = false) (hlc : lc s ≠ .scrapped) :
    powerUp ok s = (let u := startRandom ok (latchImported s)
                    afterSources { u with keys := { u.keys with replayDone := true } }) := by
  have hgo : ¬ ((s.pwr.up || (s.pwr.vault && !s.pwr.pwrfailHigh)) = true) := by simp [hup, hvault]
  have hcycles : (if s.pwr.vault = true then s.evr.cycles else s.evr.cycles + 1) = s.evr.cycles + 1 := by simp [hvault]
  rw [powerUp, if_neg hgo]
  dsimp only
  rw [hcycles, if_neg (by exact hlc)]
  rfl

theorem afterSources_keepsBoth (s : State) : KeepsBoth s (afterSources s) := by
  have hplans := keepsBoth_trans (checkPlans_keepsBoth s) (enforcePlan_keepsBoth _)
  unfold afterSources
  dsimp only
  generalize enforcePlan (checkPlans s) = u at *
  refine keepsBoth_trans (keepsBoth_trans hplans (keepsBoth_ite ?_ (keepsBoth_refl u))) (resumeTransition_keepsBoth _)
  exact ⟨⟨rfl, rfl, rfl, rfl, rfl, rfl, rfl, rfl, rfl, rfl, rfl⟩, keepsHours_of_evr rfl⟩

/-- What the power-up holds as its sources start. -/
structure Imports (s t : State) : Prop where
  pwr : t.pwr = { s.pwr with vault := true, vhold := true, pwrfailHigh := true, up := true }
  cycles : t.evr.cycles = s.evr.cycles + 1
  bankA : t.stg.bankA = s.stg.bankA
  bankB : t.stg.bankB = s.stg.bankB
  latch : t.tmp.latch = []
  imported : t.tmp.imported = s.tmp.latch.length
  onBackup : t.tmp.onBackup = false

theorem latchImported_imports (s : State) : Imports s (latchImported s) := by
  have hrecords : KeepsBoth (poweredUp s) (powerUpRecords (poweredUp s)) := ⟨powerUpRecords_start _, powerUpRecords_hours _⟩
  unfold latchImported
  dsimp only
  generalize powerUpRecords (poweredUp s) = v at *
  obtain ⟨u, a, b, hlogs, hhours, heq⟩ := importLatch_eq v
  obtain ⟨hstart, hcycles⟩ := keepsBoth_trans hrecords ⟨keepsStart_of_logs hlogs, hhours⟩
  have himport : Imports s (importLatch v) := by
    rw [heq]
    exact ⟨hstart.pwr, hcycles.cycles, hstart.bankA, hstart.bankB, rfl, congrArg List.length hrecords.1.latch, rfl⟩
  generalize importLatch v = w at *
  obtain ⟨hend, hendHours⟩ : KeepsBoth w (missingKey (if lc w = .locked then event 0x0D02 4 deviceWide [byte w.otp.pendingTarget] w else w)) :=
    keepsBoth_trans (keepsBoth_ite (event_keepsBoth ..) (keepsBoth_refl w)) (missingKey_keepsBoth _)
  exact ⟨hend.pwr.trans himport.pwr, hendHours.cycles.trans himport.cycles, hend.bankA.trans himport.bankA,
    hend.bankB.trans himport.bankB, hend.latch.trans himport.latch, hend.imported.trans himport.imported,
    hend.onBackup.trans himport.onBackup⟩

/-- What the power-up leaves (R522). -/
structure PowersUp (ok : Bool) (s t : State) : Prop where
  imports : Imports s t
  srcs : t.rng.srcs = [{ Source.first with state := .startUp }, { Source.first with state := .startUp }]
  katDone : t.rng.katDone = true
  katFail : t.rng.katFail = !ok
  replayDone : t.keys.replayDone = true

theorem powerUp_powersUp {s : State} (ok : Bool) (hup : s.pwr.up = false) (hvault : s.pwr.vault = false)
    (hlc : lc s ≠ .scrapped) : PowersUp ok s (powerUp ok s) := by
  rw [powerUp_eq ok hup hvault hlc]
  dsimp only
  have himport := latchImported_imports s
  generalize latchImported s = v at *
  obtain ⟨hrandom, hrandomHours⟩ := startRandom_keepsBoth ok v
  generalize startRandom ok v = u at *
  obtain ⟨hafter, hafterHours⟩ := afterSources_keepsBoth { u with keys := { u.keys with replayDone := true } }
  generalize afterSources _ = t at *
  exact
    { imports := ⟨hafter.pwr.trans (hrandom.pwr.trans himport.pwr), hafterHours.cycles.trans (hrandomHours.cycles.trans himport.cycles),
        hafter.bankA.trans (hrandom.bankA.trans himport.bankA), hafter.bankB.trans (hrandom.bankB.trans himport.bankB),
        hafter.latch.trans (hrandom.latch.trans himport.latch), hafter.imported.trans (hrandom.imported.trans himport.imported),
        hafter.onBackup.trans (hrandom.onBackup.trans himport.onBackup)⟩
      srcs := hafter.srcs.trans hrandom.srcs, katDone := hafter.katDone.trans hrandom.katDone
      katFail := hafter.katFail.trans hrandom.katFail, replayDone := hafter.replayDone }

/-! ### The obligation -/

/-- Settles O48: what `loseSupply` leaves, what the hold-up saves, and what the power-up sequence keeps of its early steps. -/
theorem powerRows : Obligations.PowerRows := by
  unfold Obligations.PowerRows
  refine ⟨fun s hvault hvhold hhigh => ⟨?falls, ?goes⟩, fun s => ⟨fun hup hvault hlc ok => ?starts, fun hlow => ?rises⟩⟩
  case falls =>
    have hignored : fallIgnored { s with otp := fallOtp s } = false := by simp [fallIgnored, hvault, hvhold, hhigh]
    have hotp : fallOtp s = programmedOtp s := if_neg (by simp [fallIgnored, hvault, hvhold, hhigh])
    obtain ⟨⟨w, hl⟩, hfail, hsaved, htime⟩ := pwrfailFalls_leaves hignored
    obtain ⟨t, ht, hto, hv⟩ := views_of_runOtp (i := .pwrfailNFall) (g := fallOtp) (f := pwrfailFalls) rfl rfl
    generalize pwrfailFalls { s with otp := fallOtp s } = u at *
    have hpwr : t.pwr = u.pwr := (views_pwr hv :)
    have hevr : t.evr = u.evr := (views_evr hv :)
    refine ⟨t, ht, hto.trans hotp, (congrArg Pwr.pwrfailHigh hpwr).trans hfail, (congrArg Pwr.up hpwr).trans hl.up,
      Eq.trans (congrArg Pcie.ready (views_pcie hv) :) hl.ready, ?_, (congrArg Evr.time hevr).trans htime,
      Eq.trans (views_seats hv :) hl.seats, Eq.trans (views_writer hv :) hl.writer,
      Eq.trans (congrArg Ush.rings (views_ush hv) :) hl.rings, Eq.trans (congrArg Dig.streams (views_dig hv) :) hl.streams,
      Eq.trans (congrArg Box.running (views_box hv) :) hl.running⟩
    rw [hevr]
    exact hsaved
  case goes =>
    have hsudden : sudden s = true := by simp [sudden, hvault, hhigh]
    have hotp : supplyOtp s = interruptedOtp s := if_pos hsudden
    obtain ⟨w, hl, hgone⟩ := supplyGone_leaves (s := { s with otp := supplyOtp s }) hsudden
    obtain ⟨t, ht, hto, hv⟩ := views_of_runOtp (i := .supplyLoss) (g := supplyOtp) (f := supplyGone) (s := s) rfl hgone
    have hpwr := views_pwr hv
    have hkeys : t.keys = w.keys := (views_keys hv :)
    have hevr : t.evr = w.evr := (views_evr hv :)
    refine ⟨t, ht, (congrArg Pwr.vault hpwr :), (congrArg Pwr.mains hpwr :), (congrArg Evr.buffer hevr).trans hl.buffer,
      (congrArg Evr.time hevr).trans hl.hours.time, Eq.trans (views_seats hv :) hl.seats, Eq.trans (views_writer hv :) hl.writer,
      Eq.trans (congrArg Ush.rings (views_ush hv) :) hl.rings, Eq.trans (congrArg Dig.streams (views_dig hv) :) hl.streams,
      fun h1 h2 => (congrArg Keys.slots hkeys).trans (hl.slots h1 h2), (congrArg Keys.mkPresent hkeys).trans hl.mkPresent,
      fun f htr h0 => ?_⟩
    rw [hto, hotp]
    exact interruptedOtp_partial htr h0
  case starts =>
    have hp := powerUp_powersUp ok hup hvault hlc
    obtain ⟨t, ht, hv⟩ := views_of_run (i := .vaultPowerUp ok) (f := powerUp ok) (s := s) rfl rfl
    generalize powerUp ok s = u at *
    obtain ⟨hpwr, hcycles, hbankA, hbankB, hlatch, himported, honBackup⟩ := hp.imports
    have htpwr : t.pwr = u.pwr := (views_pwr hv :)
    have htrng : t.rng = u.rng := (views_rng hv :)
    have httmp : t.tmp = u.tmp := (views_tmp hv :)
    have htstg : t.stg = u.stg := (views_stg hv :)
    refine ⟨t, ht, ?_, ?_, Eq.trans (congrArg Evr.cycles (views_evr hv) :) hcycles, (congrArg Rng.katDone htrng).trans hp.katDone,
      (congrArg Rng.katFail htrng).trans hp.katFail, (congrArg Tmp.latch httmp).trans hlatch,
      (congrArg Tmp.imported httmp).trans himported, (congrArg Tmp.onBackup httmp).trans honBackup,
      Eq.trans (congrArg Keys.replayDone (views_keys hv) :) hp.replayDone, fun i hi => ?_, fun hA hB => ?_⟩
    · rw [htpwr, hpwr]
    · rw [htpwr, hpwr]
    · rw [sourceAt, htrng, hp.srcs]
      interval_cases i <;> rfl
    · rw [activePlan, htstg, hbankA, hbankB, hA, hB]
      simp
  case rises =>
    have hleaves := resetHot_leaves s
    obtain ⟨t, ht, hv⟩ := views_of_run (i := .pwrfailNRise)
      (f := fun u : State => if u.pwr.pwrfailHigh then u else
        let v := resetHot u
        { v with pwr := { v.pwr with pwrfailHigh := true, up := false } }) (s := s) rfl (if_neg (by simp [hlow]))
    generalize resetHot s = u at *
    have hpwr := views_pwr hv
    exact ⟨t, ht, (congrArg Pwr.pwrfailHigh hpwr :), (congrArg Pwr.up hpwr :),
      Eq.trans (congrArg Pcie.vfs (views_pcie hv) :) hleaves.vfs⟩

end Sys2Proof.Machine

/-! PROOF. Switches of the stage plan, the scene change and the overlay (O49): R354, R391 to R393, R396. -/

namespace Sys2Proof.Machine

open Sys2Proof.Claims

/-! ### Requests of a switch (R391) -/

/-- The result of a switch in STG_RESULT. -/
def switched (st : Status) (kind us : Nat) (s : State) : State :=
  { s with stg := { s.stg with switching := .idle, asker := none, resultStatus := st, resultKind := kind, resultUs := us } }

/-- The refusal E_BUSY in STG_RESULT. -/
def switchBusy (s : State) : State := { s with stg := { s.stg with resultStatus := .busy, resultKind := 0, resultUs := 0 } }

/-- A request whose bank is free: its check begins. -/
def switchChecks (bank raiseMin : Bool) (asker : Option Nat) (s : State) : State :=
  { s with stg := { s.stg with switching := .checking, target := bank, raiseMin := raiseMin, asker := asker } }

/-- A switch has its result in the register, and of the device nothing else but the seat that asked. -/
theorem switchResult_frame (st : Status) (kind us : Nat) (s : State) :
    ∃ w, switchResult st kind us s = { switched st kind us s with seats := w } := by
  cases ha : s.stg.asker with
  | none => exact ⟨s.seats, by simp only [switchResult, ha]; rfl⟩
  | some k => exact ⟨_, by simp only [switchResult, ha]; rfl⟩

theorem requestSwitch_taken {s : State} (bank raiseMin : Bool) (h : s.stg.switching ≠ .idle) :
    requestSwitch bank raiseMin none s = switchBusy s
      ∧ ∀ k, requestSwitch bank raiseMin (some k) s = finishSeat (ended .busy 0) (switchBusy s) k := by
  have hne : (s.stg.switching != .idle) = true := by simp [h]
  exact ⟨if_pos hne, fun k => if_pos hne⟩

theorem requestSwitch_loading {s : State} {bank : Bool} (raiseMin : Bool) (asker : Option Nat) (h : s.stg.switching = .idle)
    (hl : ∃ l ∈ s.stg.loading, l.2 = bank) :
    requestSwitch bank raiseMin asker s = switchResult .busy 0 0 { s with stg := { s.stg with asker := asker } } := by
  have hany : (s.stg.loading.any fun l => l.2 = bank) = true := by simpa using hl
  rw [requestSwitch, if_neg (by simp [h]), if_pos hany]

theorem requestSwitch_checks {s : State} {bank : Bool} (raiseMin : Bool) (asker : Option Nat) (h : s.stg.switching = .idle)
    (hl : ∀ l ∈ s.stg.loading, l.2 ≠ bank) : requestSwitch bank raiseMin asker s = switchChecks bank raiseMin asker s := by
  have hany : ¬ (s.stg.loading.any fun l => l.2 = bank) = true := fun h => by
    obtain ⟨l, hmem, hbank⟩ := List.any_eq_true.1 h
    exact hl l hmem (of_decide_eq_true hbank)
  rw [requestSwitch, if_neg (by simp [h]), if_neg hany]
  rfl

theorem switchResult_busy_none {s : State} (h : s.stg.switching = .idle) :
    switchResult .busy 0 0 { s with stg := { s.stg with asker := none } } = switchBusy { s with stg := { s.stg with asker := none } } := by
  simp only [switchResult, switchBusy, ← h]

theorem switchResult_busy_some {s : State} {k : Nat} (h : s.stg.switching = .idle) :
    switchResult .busy 0 0 { s with stg := { s.stg with asker := some k } }
      = finishSeat (ended .busy 0) (switchBusy { s with stg := { s.stg with asker := none } }) k := by
  simp only [switchResult, switchBusy, ← h, reduceCtorEq, if_false]

theorem opSwitch_asks {s : State} {k : Nat} {x : Seat} (hx : s.seats.get? k = some x) (hc : computing x 0x031 = true)
    (hh : strayHandle x = false) (ha : s.stg.asker ≠ some k) :
    opSwitch k s = requestSwitch (x.entry.argBit 0 0) (x.entry.argBit 1 0) (some k) s := by
  simp [opSwitch, hx, hc, hh, ha]

/-! ### Results of a check (R391 to R393) -/

/-- A switch ends with status `st`, and no plan comes into force. -/
def SwitchEnds (st : Status) (s t : State) : Prop :=
  t.stg.switching = .idle ∧ t.stg.resultStatus = st ∧ t.stg.resultKind = 0 ∧ t.stg.active = s.stg.active
    ∧ t.stg.minSvn = s.stg.minSvn ∧ t.stg.bankA = s.stg.bankA ∧ t.stg.bankB = s.stg.bankB ∧ t.til = s.til

theorem switchResult_ends (st : Status) (us : Nat) (s : State) : SwitchEnds st s (switchResult st 0 us s) := by
  obtain ⟨w, hw⟩ := switchResult_frame st 0 us s
  rw [hw]
  exact ⟨rfl, rfl, rfl, rfl, rfl, rfl, rfl, rfl⟩

theorem switchEnds_of_logs {st : Status} {s u t : State} (h : OnlyLogs s u) (g : SwitchEnds st u t) : SwitchEnds st s t := by
  have hstg : u.stg = s.stg := by rw [h]
  have htil : u.til = s.til := by rw [h]
  unfold SwitchEnds at *
  rwa [hstg, htil] at g

/-- A check that ends the switch with `st`. -/
theorem planCheck_ends {st : Status} {s : State} (h : SwitchEnds st s (planChecked s)) :
    ∃ t, exec .planCheckComplete s = .next t ∧ SwitchEnds st s t := by
  obtain ⟨t, ht, hv⟩ := views_of_run (i := .planCheckComplete) (f := planChecked) (s := s) rfl rfl
  have hstg : t.stg = (planChecked s).stg := (views_stg hv :)
  have htil : t.til = (planChecked s).til := (views_til hv :)
  refine ⟨t, ht, ?_⟩
  unfold SwitchEnds at *
  rwa [hstg, htil]

theorem planChecked_refused {s : State} {n : Nat} (hc : s.stg.switching = .checking) (h : bankCheck s s.stg.target = some n) :
    planChecked s = switchResult (planStatus n) 0 0 (recordRefusal s.stg.target (bankOf s s.stg.target) n s) := by
  simp [planChecked, hc, h]

/-- A plan that passes its own checks, by the rows of R391. -/
theorem planChecked_passed {s : State} {p : Plan} (hc : s.stg.switching = .checking) (h : bankCheck s s.stg.target = none)
    (hp : bankOf s s.stg.target = some p) :
    planChecked s =
      if s.pcie.vfEnable = true ∧ Nat.min p.vfOffer s.stg.overlayMax < s.pcie.numVfs then switchResult .busy 0 0 s
      else if p.pinPages < pinPagesUsed s then switchResult .busy 0 0 s
      else if s.stg.active = s.stg.target ∧ s.stg.noPlan = false then switchResult .ok 0 0 s
      else if structuralSwitch (activePlan s) p = true then { s with stg := { s.stg with switching := .intermission } }
      else commitPlan p 1 0 s := by
  simp [planChecked, hc, h, hp]

/-- A commit leaves the plan of the target bank in force, and the result of the switch. -/
structure PlanCommits (kind us : Nat) (s t : State) : Prop where
  active : t.stg.active = s.stg.target
  noPlan : t.stg.noPlan = false
  switching : t.stg.switching = .idle
  status : t.stg.resultStatus = .ok
  resultKind : t.stg.resultKind = kind
  resultUs : t.stg.resultUs = us
  til : t.til = s.til

/-- A new scene is none of the plan's state, nor of the tiles. -/
theorem beginScene_frame (b : Bool) (p : Plan) (s : State) : ∃ c, beginScene b p s = { s with scr := c } := by
  unfold beginScene
  by_cases h : planImages p = ((match s.scr.maker with | some m => m.digest | none => []), s.scr.customer.map Image.digest)
  · exact ⟨s.scr, if_pos h⟩
  · exact ⟨_, if_neg h⟩

/-- A commit puts the pointer in place, and gives the result of the switch. -/
theorem commitPlan_eq (p : Plan) (kind us : Nat) (s : State) :
    ∃ u n, u.stg = { s.stg with active := s.stg.target, noPlan := false, minSvn := n } ∧ u.til = s.til
      ∧ commitPlan p kind us s = switchResult .ok kind us u := by
  have hscene (b : Bool) (u : State) : (beginScene b p u).stg = u.stg ∧ (beginScene b p u).til = u.til := by
    obtain ⟨c, hc⟩ := beginScene_frame b p u
    rw [hc]
    exact ⟨rfl, rfl⟩
  have hrecord (d : Bytes) (u : State) : (bump Ctr.switches 1 (event 0x0803 0 deviceWide d u)).stg = u.stg
      ∧ (bump Ctr.switches 1 (event 0x0803 0 deviceWide d u)).til = u.til := by simp
  have hraise (c : Bool) (n : Nat) (u : State) : (raiseFloors (if c then { u with scr := { u.scr with minSvn := n } } else u)).stg = u.stg
      ∧ (raiseFloors (if c then { u with scr := { u.scr with minSvn := n } } else u)).til = u.til := by cases c <;> exact ⟨rfl, rfl⟩
  refine ⟨_, if s.stg.raiseMin then Nat.max s.stg.minSvn p.svn else s.stg.minSvn, ?_, ?_, rfl⟩
  · exact (hrecord _ _).1.trans ((hscene _ _).1.trans (hraise _ _ _).1)
  · exact (hrecord _ _).2.trans ((hscene _ _).2.trans (hraise _ _ _).2)

theorem commitPlan_commits (p : Plan) (kind us : Nat) (s : State) : PlanCommits kind us s (commitPlan p kind us s) := by
  obtain ⟨u, n, hstg, htil, hcommit⟩ := commitPlan_eq p kind us s
  obtain ⟨w, hw⟩ := switchResult_frame .ok kind us u
  rw [hcommit, hw]
  exact ⟨congrArg Stg.active hstg, congrArg Stg.noPlan hstg, rfl, rfl, rfl, rfl, htil⟩

/-! ### The intermission (R393) -/

/-- The end of an intermission gives the tiles the pools of their positions, and commits. -/
theorem endIntermission_eq {s : State} {p : Plan} (us : Nat) (h : s.stg.switching = .intermission)
    (hp : bankOf s s.stg.target = some p) :
    ∃ v, v.stg = s.stg ∧ v.til.tiles = s.til.tiles.map (reconfigure p)
      ∧ endIntermission us s = servePools (bump Ctr.intermissions 1 (bumpMax Ctr.interMax us (commitPlan p 2 us v))) := by
  have hevict (c : Bool) (u : State) : (if c then { u with keys := { u.keys with cache := [] } } else u).stg = u.stg
      ∧ (if c then { u with keys := { u.keys with cache := [] } } else u).til = u.til := by cases c <;> exact ⟨rfl, rfl⟩
  unfold endIntermission
  rw [if_neg (by simp [h]), hp]
  refine ⟨_, ?_, ?_, rfl⟩
  · exact (hevict _ _).1
  · exact congrArg Til.tiles (hevict _ _).2

theorem endIntermission_leaves {s : State} {p : Plan} (us : Nat) (h : s.stg.switching = .intermission)
    (hp : bankOf s s.stg.target = some p) :
    ∃ v, v.stg = s.stg ∧ v.til.tiles = s.til.tiles.map (reconfigure p) ∧ PlanCommits 2 us v (endIntermission us s) := by
  obtain ⟨v, hstg, htil, hend⟩ := endIntermission_eq us h hp
  have hc := commitPlan_commits p 2 us v
  refine ⟨v, hstg, htil, ?_⟩
  rw [hend]
  generalize commitPlan p 2 us v = w at *
  exact { hc with }

/-! ### The scene change (R354) -/

/-- Words that a scene change has to retain. -/
def toRetain (s : State) : Nat :=
  match s.scr.retainBank with
  | some b => retainedWords s b
  | none => 0

theorem changeScene_asks {s : State} {p : Plan} (hc : s.scr.sceneChange = true) (hp : activePlan s = some p) :
    changeScene s = if 16384 < toRetain s then s
      else { s with scr := { s.scr with maker := some p.maker, customer := p.customer, sceneChange := false, retain := toRetain s,
                                        retainBank := if toRetain s = 0 then none else s.scr.retainBank } } := by
  unfold changeScene
  rw [hc, hp]
  rfl

theorem toRetain_none {s : State} (h : s.scr.retainBank = none) : toRetain s = 0 := by simp only [toRetain, h]

theorem toRetain_some {s : State} {b : Bool} (h : s.scr.retainBank = some b) : toRetain s = retainedWords s b := by
  simp only [toRetain, h]

/-! ### The obligation -/

/-- Settles O49: a switch by what `requestSwitch`, `switchResult` and `commitPlan` leave, the scene change and the overlay by
their rules. -/
theorem plansAndOverlay : Obligations.PlansAndOverlay := by
  unfold Obligations.PlansAndOverlay
  refine ⟨fun s => ⟨fun k x hx hc hh ha => ⟨fun hs => ?taken, fun hs hl => ?loading, fun hs hl => ?asks⟩,
    fun htakes hbad v hv => ⟨fun hs hl => ?writes, fun hs hl => ?writeLoading, fun hs => ?writeTaken⟩,
    fun hs => ⟨fun n hn => ?refused, fun p hn hp => ⟨fun hbusy => ?busy, fun hlow hpin => ⟨fun hact hno => ?nothing, fun hnew =>
      ⟨fun hst => ?begins, fun hst => ?hitless⟩⟩⟩⟩,
    fun hs p us hp => ?ends, fun hs => ?notChecking, fun hs us => ?notIntermission⟩,
    fun s => ⟨fun p hc hp => ⟨fun hb => ?free, fun b hb hfit => ?fits, fun b hb hfull => ?full⟩, fun hc => ?none,
      fun htakes hbad => ⟨fun n v hn => ?deny, fun v hv => ⟨fun hen => ?maxLater, fun hen => ?maxNow⟩⟩⟩⟩
  case taken =>
    refine leadsTo_of_run (f := opSwitch k) rfl ?_ rfl rfl
    exact (opSwitch_asks hx hc hh ha).trans (((requestSwitch_taken _ _ hs).2 k).trans (finishSeat_eq (s := switchBusy s) _ hx))
  case loading =>
    refine leadsTo_of_run (f := opSwitch k) rfl ?_ rfl rfl
    rw [opSwitch_asks hx hc hh ha, requestSwitch_loading _ _ hs hl, switchResult_busy_some hs]
    exact finishSeat_eq (s := switchBusy { s with stg := { s.stg with asker := none } }) _ hx
  case asks =>
    refine leadsTo_of_run (f := opSwitch k) rfl ?_ rfl rfl
    exact (opSwitch_asks hx hc hh ha).trans (requestSwitch_checks _ _ hs hl)
  case writes =>
    refine leadsTo_of_run (f := pfGuarded 0x380108 (writeSwitch v)) rfl ?_ rfl rfl
    rw [pfGuarded_of_takes htakes hbad, writeSwitch, Nat.mod_eq_of_lt hv]
    exact requestSwitch_checks _ _ hs hl
  case writeLoading =>
    refine leadsTo_of_run (f := pfGuarded 0x380108 (writeSwitch v)) rfl ?_ rfl rfl
    rw [pfGuarded_of_takes htakes hbad, writeSwitch, Nat.mod_eq_of_lt hv]
    exact (requestSwitch_loading (s := { s with stg := { s.stg with switchReg := v } }) _ _ hs hl).trans
      (switchResult_busy_none (s := { s with stg := { s.stg with switchReg := v } }) hs)
  case writeTaken =>
    refine leadsTo_of_run (f := pfGuarded 0x380108 (writeSwitch v)) rfl ?_ rfl rfl
    rw [pfGuarded_of_takes htakes hbad, writeSwitch, Nat.mod_eq_of_lt hv]
    exact (requestSwitch_taken (s := { s with stg := { s.stg with switchReg := v } }) _ _ hs).1
  case refused =>
    refine planCheck_ends ?_
    rw [planChecked_refused hs hn]
    exact switchEnds_of_logs (recordRefusal_logs ..).1 (switchResult_ends ..)
  case busy =>
    refine planCheck_ends ?_
    rw [planChecked_passed hs hn hp]
    split
    · exact switchResult_ends ..
    · next hlow =>
      rw [if_pos (hbusy.resolve_left hlow)]
      exact switchResult_ends ..
  case nothing =>
    refine planCheck_ends ?_
    rw [planChecked_passed hs hn hp, if_neg hlow, if_neg (Nat.not_lt.2 hpin), if_pos ⟨hact, hno⟩]
    exact switchResult_ends ..
  case begins =>
    refine leadsTo_of_run (f := planChecked) rfl ?_ rfl rfl
    have hchange : ¬ (s.stg.active = s.stg.target ∧ s.stg.noPlan = false) := fun h => hnew.elim (· h.1) (by simp [h.2])
    rw [planChecked_passed hs hn hp, if_neg hlow, if_neg (Nat.not_lt.2 hpin), if_neg hchange, if_pos hst]
  case hitless =>
    have hchange : ¬ (s.stg.active = s.stg.target ∧ s.stg.noPlan = false) := fun h => hnew.elim (· h.1) (by simp [h.2])
    have hu : planChecked s = commitPlan p 1 0 s := by
      rw [planChecked_passed hs hn hp, if_neg hlow, if_neg (Nat.not_lt.2 hpin), if_neg hchange, if_neg (by simp [hst])]
    have hc := commitPlan_commits p 1 0 s
    obtain ⟨t, ht, hv⟩ := views_of_run (i := .planCheckComplete) (f := planChecked) rfl hu
    generalize commitPlan p 1 0 s = u at *
    have hstg : t.stg = u.stg := (views_stg hv :)
    exact ⟨t, ht, (congrArg Stg.active hstg).trans hc.active, (congrArg Stg.noPlan hstg).trans hc.noPlan,
      (congrArg Stg.switching hstg).trans hc.switching, (congrArg Stg.resultStatus hstg).trans hc.status,
      (congrArg Stg.resultKind hstg).trans hc.resultKind, Eq.trans (views_til hv :) hc.til⟩
  case ends =>
    obtain ⟨w, hwstg, hwtil, hc⟩ := endIntermission_leaves us hs hp
    obtain ⟨t, ht, hv⟩ := views_of_run (i := .intermissionEnd us) (f := endIntermission us) (s := s) rfl rfl
    generalize endIntermission us s = u at *
    have hstg : t.stg = u.stg := (views_stg hv :)
    have htil : t.til = u.til := (views_til hv :)
    exact ⟨t, ht, (congrArg Stg.active hstg).trans (hc.active.trans (congrArg Stg.target hwstg)),
      (congrArg Stg.noPlan hstg).trans hc.noPlan, (congrArg Stg.switching hstg).trans hc.switching,
      (congrArg Stg.resultStatus hstg).trans hc.status, (congrArg Stg.resultKind hstg).trans hc.resultKind,
      (congrArg Stg.resultUs hstg).trans hc.resultUs, (congrArg Til.tiles (htil.trans hc.til)).trans hwtil⟩
  case notChecking => exact leadsTo_of_run (f := planChecked) rfl (if_pos (by simp [hs])) rfl rfl
  case notIntermission => exact leadsTo_of_run (f := endIntermission us) rfl (if_pos (by simp [hs])) rfl rfl
  case free =>
    refine leadsTo_of_run (f := changeScene) rfl ?_ rfl rfl
    rw [changeScene_asks hc hp, toRetain_none hb, if_neg (by decide), if_pos rfl]
  case fits =>
    have hu := changeScene_asks hc hp
    rw [toRetain_some hb, if_neg (Nat.not_lt.2 hfit)] at hu
    obtain ⟨t, ht, hv⟩ := views_of_run (i := .sceneChange) (f := changeScene) rfl hu
    have hscr := views_scr hv
    exact ⟨t, ht, (congrArg Scr.sceneChange hscr :), (congrArg Scr.maker hscr :), (congrArg Scr.customer hscr :),
      (congrArg Scr.retain hscr :)⟩
  case full =>
    refine leadsTo_of_run (f := changeScene) rfl ?_ rfl rfl
    rw [changeScene_asks hc hp, toRetain_some hb, if_pos hfull]
  case none =>
    refine leadsTo_of_run (f := changeScene) rfl ?_ rfl rfl
    simp [changeScene, hc]
  case deny =>
    refine leadsTo_of_run (f := if n < 64 then pfGuarded (0x380200 + 8 * n) (writeDeny n v.toNat) else id) rfl ?_ rfl rfl
    rw [if_pos hn, pfGuarded_of_takes htakes hbad, writeDeny, if_pos hn, Nat.mod_eq_of_lt v.isLt]
  case maxLater =>
    refine leadsTo_of_run (f := pfGuarded 0x3801A0 (writeVfMax v)) rfl ?_ rfl rfl
    rw [pfGuarded_of_takes htakes hbad]
    simp only [writeVfMax, Nat.mod_eq_of_lt hv, if_pos hen]
  case maxNow =>
    refine leadsTo_of_run (f := pfGuarded 0x3801A0 (writeVfMax v)) rfl ?_ rfl rfl
    rw [pfGuarded_of_takes htakes hbad]
    simp only [writeVfMax, Nat.mod_eq_of_lt hv, hen, Bool.false_eq_true, if_false]

end Sys2Proof.Machine

/-! PROOF. The sequencer of the scripts (O51), and the words and customer opcodes of a run (O50): R315, R335, R336, R344, R345,
R347, R353. -/

namespace Sys2Proof.Machine

open Sys2Proof.Claims

/-! ### The sequencer (R335, R345) -/

section
variable {c : Ctx} {x y : SideState} {q : Seq}

theorem seqEffect_goto (hm : q.mode = 1) (hc : condHolds x q = true) : seqEffect c x q y = .ok { y with pc := q.target } := by
  simp [seqEffect, hm, hc]

theorem seqEffect_call (hm : q.mode = 2) (hc : condHolds x q = true) (hs : x.stack.length < 8) :
    seqEffect c x q y = .ok { y with pc := q.target, stack := (x.pc + 1) % 65536 :: x.stack } := by
  simp [seqEffect, hm, hc, Nat.not_le.2 hs]

theorem seqEffect_call_full (hm : q.mode = 2) (hc : condHolds x q = true) (hs : 8 ≤ x.stack.length) :
    seqEffect c x q y = .error .scriptFault := by
  simp [seqEffect, hm, hc, hs]

theorem seqEffect_ret_empty (hm : q.mode = 3) (hc : condHolds x q = true) (hs : x.stack = []) :
    seqEffect c x q y = .error .scriptFault := by
  simp [seqEffect, hm, hc, hs]

theorem seqEffect_ret {a : Nat} {l : List Nat} (hm : q.mode = 3) (hc : condHolds x q = true) (hs : x.stack = a :: l) :
    seqEffect c x q y = if c.hdr.holds a then .ok { y with pc := a, stack := l } else .error .scriptFault := by
  simp [seqEffect, hm, hc, hs]

theorem seqEffect_loop {n : Nat} (hm : q.mode = 4) (hn : countDown x.lc0 = n) :
    seqEffect c x q y = .ok { y with lc0 := n, pc := if n = 0 then (x.pc + 1) % 65536 else q.target } := by
  simp [seqEffect, hm, hn]

end

/-- Settles O51: the modes of the sequencer, one by one. -/
theorem sequencerRules : Obligations.SequencerRules := by
  unfold Obligations.SequencerRules
  refine fun c x y q r hc => ⟨fun hm hs => ⟨_, seqEffect_call hm hc hs, rfl, fun hr hcr => ⟨fun hh => ?_, fun hh => ?_⟩⟩,
    fun hm hs => seqEffect_call_full hm hc hs, fun hm hs => seqEffect_ret_empty hm hc hs,
    fun hm => ?_,
    fun hm => ⟨_, seqEffect_goto hm hc, rfl⟩⟩
  · refine ⟨_, (seqEffect_ret hr hcr rfl).trans (if_pos hh), rfl, rfl⟩
  · exact (seqEffect_ret hr hcr rfl).trans (if_neg (by simp [hh]))
  · obtain ⟨n, hn⟩ : ∃ n, countDown x.lc0 = n := ⟨_, rfl⟩
    exact ⟨_, seqEffect_loop hm hn, hn.symm, fun hz => if_pos hz, fun hz => if_neg hz, rfl⟩

/-! ### Words of a run (R336) -/

/-- The sides of a run as a word leaves them: staged, or with the clock of the chunk that the side waits for. -/
def sideAfter (x : Seat) (y : SideState) : SideState := if x.input.isSome then y else { y with base := y.clock }

/-- What is left of a word: the sides, its wait, and the choice it used up. -/
def wordIssued (k : Nat) (p : SideState × SideState) (waited : Nat) (s : State) : State :=
  let t := spend (bump Ctr.scrCueWaits waited s)
  { t with scr := { t.scr with sides := t.scr.sides.put k p } }

section
variable {s : State} {k : Nat} {x : Seat} {h : Header}
  (hx : s.seats.get? k = some x) (hh : runHeader s x = some h) (hs : scripting x h = true)
include hx hh hs

theorem issueMicroword_a {c : Ctx} {y : SideState} {n : Nat}
    (hc : ctxOf s x h (sidesOf s k x h).1 (sidesOf s k x h).2.offers = some c) (hy : stepSide c (sidesOf s k x h).1 = some (y, n)) :
    issueMicroword k .a s = countReleased k (sideAfter x y, (sidesOf s k x h).2) h
      (wordIssued k (sideAfter x y, (sidesOf s k x h).2) n s) := by
  simp only [issueMicroword, hx, hh, hs, Bool.not_true, Bool.false_eq_true, if_false, hc, Option.bind_some, hy]
  rfl

theorem issueMicroword_b {c : Ctx} {y : SideState} {n : Nat}
    (hc : ctxOf s x h (sidesOf s k x h).2 (sidesOf s k x h).1.offers = some c) (hy : stepSide c (sidesOf s k x h).2 = some (y, n)) :
    issueMicroword k .b s = countReleased k ((sidesOf s k x h).1, sideAfter x y) h
      (wordIssued k ((sidesOf s k x h).1, sideAfter x y) n s) := by
  simp only [issueMicroword, hx, hh, hs, Bool.not_true, Bool.false_eq_true, if_false, hc, Option.bind_some, hy]
  rfl

theorem issueMicroword_a_waits {c : Ctx} (hc : ctxOf s x h (sidesOf s k x h).1 (sidesOf s k x h).2.offers = some c)
    (hy : stepSide c (sidesOf s k x h).1 = none) : issueMicroword k .a s = s := by
  simp only [issueMicroword, hx, hh, hs, Bool.not_true, Bool.false_eq_true, if_false, hc, Option.bind_some, hy]

theorem issueMicroword_b_waits {c : Ctx} (hc : ctxOf s x h (sidesOf s k x h).2 (sidesOf s k x h).1.offers = some c)
    (hy : stepSide c (sidesOf s k x h).2 = none) : issueMicroword k .b s = s := by
  simp only [issueMicroword, hx, hh, hs, Bool.not_true, Bool.false_eq_true, if_false, hc, Option.bind_some, hy]

end

/-- The count of released chunks changes a seat's `processed` only. -/
theorem countReleased_leaves {k : Nat} {x : Seat} {s : State} (p : SideState × SideState) (h : Header)
    (hx : s.seats.get? k = some x) :
    (countReleased k p h s).scr = s.scr ∧ (countReleased k p h s).writer = s.writer
      ∧ ∃ n, (countReleased k p h s).seats.get? k = some { x with processed := n } := by
  unfold countReleased
  split
  · refine ⟨rfl, rfl, Nat.max x.processed (Nat.min p.1.released.length p.2.released.length), ?_⟩
    simp [updSeat, Tab.get?_upd, hx]
  · exact ⟨rfl, rfl, x.processed, hx⟩

/-- A word of one side: the other side stays, and of the seat outcome and phase. -/
theorem word_issues {i : Instr} {f : State → State} {s : State} {k : Nat} {x : Seat} {p : SideState × SideState} {h : Header}
    {n : Nat} (hi : exec i s = run f s) (hf : f s = countReleased k p h (wordIssued k p n s)) (hx : s.seats.get? k = some x) :
    ∃ t z, exec i s = .next t ∧ t.scr.sides.get? k = some p ∧ t.seats.get? k = some z ∧ z.outcome = x.outcome
      ∧ z.phase = x.phase := by
  obtain ⟨t, ht, hv⟩ := views_of_run hi hf
  obtain ⟨hscr, -, m, hm⟩ := countReleased_leaves (s := wordIssued k p n s) p h hx
  generalize countReleased k p h (wordIssued k p n s) = u at *
  have htscr : t.scr = u.scr := (views_scr hv :)
  have htseats : t.seats = u.seats := (views_seats hv :)
  refine ⟨t, { x with processed := m }, ht, ?_, ?_, rfl, rfl⟩
  · rw [htscr, hscr]
    exact Tab.get?_put_same _ _ _
  · rw [htseats]
    exact hm

/-! ### Customer opcodes (R344, R347, R353) -/

theorem overrunIfOpen_ended (x : SideState) : (overrunIfOpen x).ended ≠ .running := by
  unfold overrunIfOpen
  split
  · simp [stopped]
  · assumption

/-- The run of both sides of a customer opcode, with the words that its interval has room for. -/
def customerSides (s : State) (k : Nat) (x : Seat) (h : Header) (row : Bytes) : Nat × Nat × (SideState × SideState) :=
  runSides s x h row (2 * scriptInterval h row x.entry (leAt row 2 2) + 2) 0 (sidesOf s k x h)

/-- Both sides of a customer opcode at their ends. -/
def customerEnds (s : State) (k : Nat) (x : Seat) (h : Header) (row : Bytes) : SideState × SideState :=
  (overrunIfOpen (customerSides s k x h row).2.2.1, overrunIfOpen (customerSides s k x h row).2.2.2)

/-- The state with the sides of a customer opcode at their ends. -/
def customerRan (k : Nat) (x : Seat) (h : Header) (row : Bytes) (s : State) : State :=
  bump Ctr.scrCueWaits (customerSides s k x h row).2.1
    { s with free := (customerSides s k x h row).1 + 1,
             scr := { s.scr with sides := s.scr.sides.put k (customerEnds s k x h row) } }

/-- A customer opcode runs both sides to their ends, and takes the outcome of side A. -/
theorem customerRun_runs {s : State} {k i : Nat} {x : Seat} {h : Header} {row : Bytes} (hx : s.seats.get? k = some x)
    (hh : runHeader s x = some h) (hcust : isCustomer x.entry.opc = true) (hc : computing x x.entry.opc = true)
    (hrow : headerRow h x.entry.ps = some (i, row)) (hent : x.noEntropy = false) (hstray : strayHandle x = false) :
    customerRun k s = countReleased k (customerEnds s k x h row) h
      (updSeat k (fun y => { y with outcome := some (sideOutcome h row x.entry (customerEnds s k x h row).1) })
        (customerRan k x h row s)) := by
  simp only [customerRun, hx, hcust, hc, Bool.and_self, Bool.not_true, Bool.false_eq_true, if_false, hh, hrow, hent, hstray,
    Bool.or_self]
  rfl

/-- Settles O50: a word by `issueMicroword`, a customer opcode by `customerRun`. -/
theorem scriptsRun : Obligations.ScriptsRun := by
  unfold Obligations.ScriptsRun
  refine fun s k x h hx hh => ⟨fun hs => ⟨fun c y n hc hy => ?wordA, fun c y n hc hy => ?wordB, fun c hc hy => ?waitsA,
    fun c hc hy => ?waitsB⟩, fun i row hcust hcomp hrow hent hstray => ?customer⟩
  case wordA =>
    obtain ⟨t, z, ht, hq, hz, ho, hp⟩ := word_issues (i := .microwordIssue k .a) (f := issueMicroword k .a) rfl
      (issueMicroword_a hx hh hs hc hy) hx
    exact ⟨t, _, z, ht, hq, rfl, fun hin => if_pos hin, hz, ho, hp⟩
  case wordB =>
    obtain ⟨t, z, ht, hq, hz, ho, hp⟩ := word_issues (i := .microwordIssue k .b) (f := issueMicroword k .b) rfl
      (issueMicroword_b hx hh hs hc hy) hx
    exact ⟨t, _, z, ht, hq, rfl, fun hin => if_pos hin, hz, ho, hp⟩
  case waitsA => exact leadsTo_of_run (f := issueMicroword k .a) rfl (issueMicroword_a_waits hx hh hs hc hy) rfl rfl
  case waitsB => exact leadsTo_of_run (f := issueMicroword k .b) rfl (issueMicroword_b_waits hx hh hs hc hy) rfl rfl
  case customer =>
    obtain ⟨t, ht, hv⟩ := views_of_run (i := .customerOpcode k) (f := customerRun k) rfl
      (customerRun_runs hx hh hcust hcomp hrow hent hstray)
    have hA : (customerEnds s k x h row).1.ended ≠ .running := overrunIfOpen_ended _
    have hB : (customerEnds s k x h row).2.ended ≠ .running := overrunIfOpen_ended _
    have hranSides : (customerRan k x h row s).scr.sides = s.scr.sides.put k (customerEnds s k x h row) := rfl
    have hranSeats : (customerRan k x h row s).seats = s.seats := rfl
    have hranWriter : (customerRan k x h row s).writer = s.writer := rfl
    generalize customerRan k x h row s = v at *
    generalize customerEnds s k x h row = p at *
    have hseat : (updSeat k (fun y => { y with outcome := some (sideOutcome h row x.entry p.1) }) v).seats.get? k
        = some { x with outcome := some (sideOutcome h row x.entry p.1) } := by
      simp [updSeat, Tab.get?_upd, hranSeats, hx]
    obtain ⟨hscr, hwriter, m, hm⟩ := countReleased_leaves p h hseat
    have htscr := views_scr hv
    have htseats := views_seats hv
    refine ⟨t, { x with outcome := some (sideOutcome h row x.entry p.1), processed := m }, p.1, p.2, _, ht, ?_, ?_, hA, hB, rfl,
      rfl, rfl, rfl, rfl, rfl, ?_⟩
    · exact (congrArg (fun l => l.get? k) htseats).trans hm
    · rw [(congrArg Scr.sides (htscr.trans hscr) : t.scr.sides = v.scr.sides), hranSides]
      exact Tab.get?_put_same _ _ _
    · exact Eq.trans (views_writer hv :) (hwriter.trans hranWriter)

end Sys2Proof.Machine

/-! PROOF. The rows of the twin link itself (O52): R398, R399, R405, R407, R411, R412, R418. -/

namespace Sys2Proof.Machine

open Sys2Proof.Claims

/-! ### What commits keep of the twin link -/

/-- The link's state, the homes of the partitions and the acknowledgements stay. -/
structure KeepsTwin (s t : State) : Prop where
  twn : t.twn = s.twn
  homes : t.ten.homes = s.ten.homes
  seq : t.keys.seq = s.keys.seq
  ackedSeq : t.keys.ackedSeq = s.keys.ackedSeq

theorem keepsTwin_refl (s : State) : KeepsTwin s s := ⟨rfl, rfl, rfl, rfl⟩

theorem keepsTwin_trans {s t u : State} (h : KeepsTwin s t) (g : KeepsTwin t u) : KeepsTwin s u :=
  ⟨g.twn.trans h.twn, g.homes.trans h.homes, g.seq.trans h.seq, g.ackedSeq.trans h.ackedSeq⟩

theorem keepsTwin_of_ends {s t : State} (h : OnlyEnds s t) : KeepsTwin s t := by
  unfold OnlyEnds at h
  constructor <;> rw [h]

theorem commitSeat_keepsTwin (k held : Nat) (s : State) : KeepsTwin s (commitSeat k held s) := by
  cases hx : s.seats.get? k with
  | none => simpa only [commitSeat, hx] using keepsTwin_refl s
  | some x =>
    cases ho : x.outcome with
    | none => simpa only [commitSeat, hx, ho] using keepsTwin_refl s
    | some o =>
      have hcharge : KeepsTwin s (charge x.fn x.table.cls (commitRecord s k x o held).units s) := ⟨rfl, rfl, rfl, rfl⟩
      have hbody := keepsTwin_trans hcharge (keepsTwin_of_ends (commitBody_ends k x o held s))
      rw [commitSeat_eq held hx ho]
      generalize commitBody k x o held s = u at *
      split
      · exact keepsTwin_trans hbody (keepsTwin_of_ends (releaseSeat_ends k u))
      · refine keepsTwin_trans hbody (keepsTwin_trans (t := handOver (committedItem k x o held s) u) ⟨rfl, rfl, rfl, rfl⟩ ?_)
        exact keepsTwin_of_ends (complete_endsWith (committedItem k x o held s) u)

/-- The holds that are over release their operations, and of the link nothing changes. -/
theorem releaseHolds_keepsTwin (held : List (Nat × Nat)) (s : State) : KeepsTwin s (releaseHolds held s) := by
  refine List.foldlRecOn (motive := fun t => KeepsTwin s t) _ _ (keepsTwin_refl s) fun t ht k _ => ?_
  split
  · exact keepsTwin_trans ht (commitSeat_keepsTwin ..)
  · next h =>
    have hspend (u : State) : KeepsTwin u (spend u) := ⟨rfl, rfl, rfl, rfl⟩
    exact keepsTwin_trans ht (keepsTwin_trans (commitSeat_keepsTwin k (Config.choice t.free) t) (hspend _))

theorem releaseAbandoned_keepsTwin (s : State) : KeepsTwin s (releaseAbandoned s) := by
  unfold releaseAbandoned
  split
  · exact keepsTwin_refl s
  · exact releaseHolds_keepsTwin [] s

/-! ### Absence (R411) -/

/-- The twin of a device that is not pairing is declared absent, once: the session ends, and the pairing stays. -/
theorem declareAbsent_twn {s : State} (hstate : s.twn.state ≠ .pairing)
    (h : paired s = true ∧ s.twn.state ≠ .diverged ∨ s.twn.state = .absent) :
    (declareAbsent s).twn = { (endSession s).twn with state := .absent } := by
  have hpage (e : Nat) (c : List (Nat × Nat)) (u : State) : (writeTwinPage e c true u).twn = u.twn := by
    unfold writeTwinPage
    split <;> rfl
  have hstate' : (endSession s).twn.state = s.twn.state := rfl
  have hpaired : paired (endSession s) = paired s := rfl
  unfold declareAbsent
  dsimp only
  rw [hstate', hpaired, if_neg hstate]
  by_cases habsent : s.twn.state = .absent
  · rw [if_pos (by simp [habsent])]
    simp only [endSession, habsent]
  · obtain ⟨hp, hd⟩ := h.resolve_right habsent
    rw [if_neg (by simp [hp, habsent, hd])]
    split
    · simp
    · rw [hpage]
      simp

theorem twinAbsent_ends {s : State} (held : List (Nat × Nat)) (hstate : s.twn.state ≠ .pairing)
    (h : paired s = true ∧ s.twn.state ≠ .diverged ∨ s.twn.state = .absent) :
    ∃ t, exec (.twinAbsent held) s = .next t ∧ t.twn.state = .absent ∧ t.twn.session = false ∧ t.twn.record = s.twn.record := by
  have hkeeps := (releaseHolds_keepsTwin held (declareAbsent s)).twn.trans (declareAbsent_twn hstate h)
  obtain ⟨t, ht, hv⟩ := views_of_run (i := .twinAbsent held) (f := fun u => releaseHolds held (declareAbsent u)) (s := s) rfl rfl
  have htwn : t.twn = { (endSession s).twn with state := .absent } := Eq.trans (views_twn hv :) hkeeps
  exact ⟨t, ht, congrArg Twn.state htwn, congrArg Twn.session htwn, (congrArg Twn.record htwn :)⟩

/-- The effect of LINK_TRAINED. -/
def linkTrains (s : State) : State :=
  if !s.twn.enable then s else
    let s := { s with twn := { s.twn with linkUp := true } }
    if s.twn.session then s else sendHello false s

/-- The effect of HEARTBEAT_SEND. -/
def beat (s : State) : State :=
  if s.twn.session && s.twn.linkUp then emit (.twinHeartbeat (ownHeartbeat s)) (countFrames 1 s) else s

/-- The effect of CHECKPOINT_SNAPSHOT. -/
def snapshotMeters (s : State) : State :=
  if s.box.running then sendCheckpoint (.snapshot s.box.epoch (pageCounters s)) s else s

theorem resend_sends {s : State} {journal : Bool} {n : Nat} (hses : s.twn.session = true) (hup : s.twn.linkUp = true)
    (hn : (if journal then s.twn.journal else s.twn.checkpoint).unacked = n) (hn0 : n ≠ 0) :
    ∃ t, exec (.resendTimeout journal) s = .next t ∧ Emit.twinResend journal n ∈ t.host ∧ t.twn.framesTx = s.twn.framesTx + n := by
  have hu : resend journal s = bump Ctr.resent n (emit (.twinResend journal n) (countFrames n s)) := by
    simp only [resend, hn, hses, hup, Bool.true_and]
    exact if_pos (by simp [hn0])
  obtain ⟨t, ht, hf⟩ := follows_of_run (i := .resendTimeout journal) (f := resend journal) rfl hu
  exact ⟨t, ht, follows_sends hf (List.mem_append_right _ (List.mem_singleton.2 rfl)), (congrArg Twn.framesTx (views_twn hf.only) :)⟩

/-- Where its channel has room, a snapshot of the meters becomes a frame at once. -/
theorem sendCheckpoint_sends {s : State} (m : CheckpointMessage) (hsh : sharing s = true) (hroom : s.twn.checkpoint.unacked < 256)
    (hq : s.twn.checkpointQueue = []) :
    (sendCheckpoint m s).twn.checkpoint.unacked = s.twn.checkpoint.unacked + 1
      ∧ Emit.twinCheckpoint m ∈ (sendCheckpoint m s).host := by
  have htake : ([] ++ [m]).take (256 - s.twn.checkpoint.unacked) = [m] := by
    rw [List.nil_append, List.take_of_length_le]
    simp only [List.length_singleton]
    omega
  have hshare : sharing { s with twn := { s.twn with checkpointQueue := s.twn.checkpointQueue ++ [m] } } = true := hsh
  rw [sendCheckpoint, if_pos hsh, pumpCheckpoint, if_neg (by simp [hshare])]
  simp only [hq, htake]
  exact ⟨rfl, List.mem_append_right _ (List.mem_singleton.2 rfl)⟩

/-- Settles O52: the rows of the link by their rules, absence by `declareAbsent` and what the released holds keep. -/
theorem linkRows : Obligations.LinkRows := by
  unfold Obligations.LinkRows
  refine fun s => ⟨?loss, fun hen => ?forbidden, fun hen hses => ?trained, ?joined,
    fun hses hup => ⟨?beat, fun n hn hn0 => ?resendJournal, fun n hn hn0 => ?resendCheckpoint⟩, fun hno => ⟨?silent, fun j => ?nothing⟩,
    fun hno => ?idle, fun hrun hsh hroom hq => ?snapshot, fun held hp h1 h2 h3 => ?absent, fun held habs => ?again⟩
  case loss => exact leadsTo_of_run (f := fun u : State => { u with twn := { u.twn with linkUp := false } }) rfl rfl rfl rfl
  case forbidden => exact leadsTo_of_run (f := linkTrains) rfl (if_pos (by simp [hen])) rfl rfl
  case trained =>
    refine leadsTo_of_run (f := linkTrains) rfl ?_ rfl rfl
    rw [linkTrains, if_neg (by simp [hen])]
    exact if_pos hses
  case joined => exact leadsTo_of_run (f := fun u : State => { u with twn := { u.twn with joinUntil := 0 } }) rfl rfl rfl rfl
  case beat =>
    obtain ⟨t, ht, hf⟩ := follows_of_run (i := .heartbeatSend) (f := beat) (s := s) rfl (if_pos (by simp [hses, hup]))
    refine ⟨t, ht, (congrArg Twn.framesTx (views_twn hf.only) :), (views_keys hf.only :), ownHeartbeat (countFrames 1 s),
      follows_sends hf (List.mem_append_right _ (List.mem_singleton.2 rfl)), rfl, rfl, rfl, rfl, rfl, rfl⟩
  case resendJournal => exact resend_sends hses hup (by exact hn) hn0
  case resendCheckpoint => exact resend_sends hses hup (by exact hn) hn0
  case silent =>
    refine leadsTo_of_run (f := beat) rfl (if_neg ?_) rfl rfl
    rcases hno with h | h <;> simp [h]
  case nothing =>
    refine leadsTo_of_run (f := resend j) rfl (if_neg ?_) rfl rfl
    rcases hno with h | h <;> simp [h]
  case idle =>
    refine leadsTo_of_run (f := snapshotMeters) rfl ?_ rfl rfl
    rcases hno with h | h
    · exact if_neg (by simp [h])
    · unfold snapshotMeters
      split
      · exact if_neg (by simp [h])
      · rfl
  case snapshot =>
    obtain ⟨t, ht, hf⟩ := follows_of_run (i := .checkpointSnapshot) (f := snapshotMeters) (s := s) rfl (if_pos hrun)
    obtain ⟨hone, hsent⟩ := sendCheckpoint_sends (.snapshot s.box.epoch (pageCounters s)) hsh hroom hq
    generalize sendCheckpoint (.snapshot s.box.epoch (pageCounters s)) s = u at *
    exact ⟨t, ht, Eq.trans (congrArg (fun w => w.checkpoint.unacked) (views_twn hf.only) :) hone, follows_sends hf hsent⟩
  case absent => exact twinAbsent_ends held h1 (Or.inl ⟨hp, h3⟩)
  case again => exact twinAbsent_ends held (by simp [habs]) (Or.inr habs)

end Sys2Proof.Machine

/-! PROOF. The handshake of the twin link, rekey and rejoin (O53): R402, R414, R415. -/

namespace Sys2Proof.Machine

open Sys2Proof.Claims

/-! ### HELLO, REPLY and AUTH_I (R402) -/

/-- The nonce and the shares of a handshake can be drawn. -/
theorem drawBytes_of_serving {s : State} (n : Nat) (h : servingInst s ≠ none) :
    ∃ i b, drawBytes n s = some (b, generate i n false s) := by
  cases hi : servingInst s with
  | none => exact absurd hi h
  | some i => exact ⟨i, drawn s i n, by simp only [drawBytes, hi]⟩

/-- The link's state once HELLO `m` has gone out. -/
def helloTwn (rekey : Bool) (m : TwinHello) (eph : Bytes) (w : Twn) : Twn :=
  { w with handshake := .sentHello, hello := some m, rekeying := rekey, ephemeral := eph }

theorem sendHello_sends {s : State} (rekey : Bool) (hidle : s.twn.handshake = .idle) (hmay : mayHandshake s = true)
    (hinit : initiates s = true) (hserve : servingInst s ≠ none) :
    ∃ i m e, m.serial = s.otp.serial ∧ m.pairId = ownPairId s
      ∧ sendHello rekey s = emit (.twinHello m) { generate i 152 false s with twn := helloTwn rekey m e s.twn } := by
  obtain ⟨i, b, hb⟩ := drawBytes_of_serving 152 hserve
  rw [sendHello, if_neg (by simp [hmay, hinit, hidle]), hb]
  exact ⟨i, _, _, rfl, rfl, rfl⟩

/-- The link's state once `m` has been answered by REPLY `r`. -/
def replyTwn (rekeying : Bool) (m : TwinHello) (r : TwinReply) (agreed : Bytes) (w : Twn) : Twn :=
  { w with handshake := .sentReply, hello := some m, reply := some r, rekeying := rekeying, agreed := agreed }

theorem receiveHello_answers {s : State} {m : TwinHello} (hmay : mayHandshake s = true) (hinit : initiates s = false)
    (hpeer : expectedPeer s = some m.serial) (hfits : helloFits s m = true) (hserve : servingInst s ≠ none) :
    ∃ i r a, r.serial = s.otp.serial
      ∧ receiveHello m s = emit (.twinReply r) { generate i 120 false s with twn := replyTwn (sharing s) m r a s.twn } := by
  obtain ⟨i, b, hb⟩ := drawBytes_of_serving 120 hserve
  rw [receiveHello, if_neg (by simp [hmay, hinit]), if_neg (by simp [hpeer]), if_neg (by simp [hfits]), hb]
  exact ⟨i, _, _, rfl, rfl⟩

theorem receiveHello_stranger {s : State} {m : TwinHello} (hask : askerSeat s = none) (hpeer : expectedPeer s ≠ some m.serial) :
    receiveHello m s = s := by
  have hne : (expectedPeer s != some m.serial) = true := by simp [hpeer]
  simp only [receiveHello, hne, hask, if_true, Option.isSome_none, Bool.false_eq_true, if_false, ite_self]

/-- A handshake that fails, with nobody who waits for it, leaves the session that runs. -/
theorem failAsker_none {st : Status} {s : State} (hask : askerSeat s = none) (hstate : s.twn.state ≠ .pairing) :
    failAsker st s = endHandshake s := by
  simp only [failAsker, hask, if_neg hstate]

/-- The link's state once REPLY `m` has been answered by AUTH_I `a`. -/
def authTwn (m : TwinReply) (a : TwinAuth) (agreed : Bytes) (w : Twn) : Twn :=
  { w with handshake := .sentAuthI, reply := some m, auth := some a, agreed := agreed }

theorem receiveReply_answers {s : State} {m : TwinReply} {h : TwinHello} (hsent : s.twn.handshake = .sentHello)
    (hh : s.twn.hello = some h) (hpeer : expectedPeer s = some m.serial) :
    receiveReply m s = (let a := ownAuth (transcript h m none) s
      emit (.twinAuth a) { spend s with twn := authTwn m a (agreedShares s.twn.ephemeral m.shares) s.twn }) := by
  simp only [receiveReply, hsent, hh, hpeer, bne_self_eq_false, Bool.false_eq_true, if_false]
  rfl

theorem receiveReply_stranger {s : State} {m : TwinReply} {h : TwinHello} (hsent : s.twn.handshake = .sentHello)
    (hh : s.twn.hello = some h) (hpeer : expectedPeer s ≠ some m.serial) : receiveReply m s = failAsker .auth s := by
  simp only [receiveReply, hsent, hh, bne_iff_ne, ne_eq, hpeer, not_false_eq_true, if_true]

/-! ### The handshake succeeds (R402, R414, R415) -/

/-- New keys of the session that runs. -/
def rekeyedTwn (s : State) (th : Bytes) : Twn :=
  (endHandshake (placeKeys (handshakeKeys s false th) s)).twn

theorem establish_rekeys {s : State} {m : TwinAuth} {th : Bytes} (h : s.twn.rekeying = true) :
    establish m th s = { s with twn := { rekeyedTwn s th with framesTx := 0, fctrRx := 0 } } := by
  rw [establish]
  exact if_pos h

theorem pairingMode_none {s : State} (h : askerSeat s = none) : pairingMode s = none := by simp only [pairingMode, h]

theorem restoring_none {s : State} (h : askerSeat s = none) : restoring s = false := by simp only [restoring, h]

theorem establish_rejoins {s : State} {m : TwinAuth} {th : Bytes} (hre : s.twn.rekeying = false) (hask : askerSeat s = none)
    (hm : m.claims ≠ []) : establish m th s = startRejoin m (handshakeKeys s false th) s := by
  simp only [establish, hre, Bool.false_eq_true, if_false, pairingMode_none hask, restoring_none hask, if_neg hm]

/-- What a rejoin's session has of the peer: it runs, in state `st`. -/
structure Rejoins (m : TwinAuth) (st : TwinState) (bad : List Nat) (t : State) : Prop where
  session : t.twn.session = true
  state : t.twn.state = st
  peerState : t.twn.peerState = m.lcState
  diverged : t.twn.diverged = bad

/-- What the frames of the journal channel keep of a session. -/
theorem pumpJournal_rejoins {m : TwinAuth} {st : TwinState} {bad : List Nat} {s : State} (h : Rejoins m st bad s) :
    Rejoins m st bad (pumpJournal s) := by
  unfold pumpJournal
  split
  · exact h
  · dsimp only
    generalize hout : s.twn.journalQueue.take (256 - s.twn.journal.unacked) = out
    have hfold : (out.foldl (fun t m => emit (.twinJournal m) t) s).twn = s.twn :=
      List.foldlRecOn (motive := fun t : State => t.twn = s.twn) _ _ rfl fun t ht _ _ => ht
    generalize out.foldl (fun t m => emit (.twinJournal m) t) s = u at *
    exact ⟨(congrArg Twn.session hfold).trans h.session, (congrArg Twn.state hfold).trans h.state,
      (congrArg Twn.peerState hfold).trans h.peerState, (congrArg Twn.diverged hfold).trans h.diverged⟩

theorem startRejoin_resends {s : State} {m : TwinAuth} (keys : Bytes) (h : divergedFunctions s m = []) :
    Rejoins m .resending [] (startRejoin m keys s) := by
  unfold startRejoin
  dsimp only
  rw [if_neg (by simp [h])]
  exact pumpJournal_rejoins ⟨rfl, rfl, rfl, rfl⟩

theorem startRejoin_stops {s : State} {m : TwinAuth} (keys : Bytes) (h : divergedFunctions s m ≠ []) :
    Rejoins m .diverged (divergedFunctions s m) (startRejoin m keys s) ∧ (startRejoin m keys s).keys = s.keys := by
  unfold startRejoin
  dsimp only
  rw [if_pos (by simp [h])]
  split
  · exact ⟨⟨by simp; rfl, by simp, by simp; rfl, by simp⟩, by simp; rfl⟩
  · exact ⟨⟨rfl, rfl, rfl, rfl⟩, rfl⟩

/-! ### The obligation -/

/-- A row that ends in HELLO of this device. -/
theorem asks_hello {i : Instr} {f : State → State} {s : State} (rekey : Bool) (hi : exec i s = run f s)
    (hf : f s = sendHello rekey s) (hidle : s.twn.handshake = .idle) (hmay : mayHandshake s = true) (hinit : initiates s = true)
    (hserve : servingInst s ≠ none) :
    ∃ t m, exec i s = .next t ∧ t.twn.handshake = .sentHello ∧ t.twn.hello = some m ∧ t.twn.rekeying = rekey
      ∧ t.twn.session = s.twn.session ∧ m.serial = s.otp.serial ∧ m.pairId = ownPairId s ∧ Emit.twinHello m ∈ t.host := by
  obtain ⟨j, m, e, hserial, hpair, hsend⟩ := sendHello_sends rekey hidle hmay hinit hserve
  obtain ⟨t, ht, hv⟩ := follows_of_run hi (hf.trans hsend)
  have htwn := views_twn hv.only
  exact ⟨t, m, ht, (congrArg Twn.handshake htwn :), (congrArg Twn.hello htwn :), (congrArg Twn.rekeying htwn :),
    (congrArg Twn.session htwn :), hserial, hpair, follows_sends hv (List.mem_append_right _ (List.mem_singleton.2 rfl))⟩

/-- A row that drops the handshake. -/
theorem drops_handshake {i : Instr} {f : State → State} {s : State} (hi : exec i s = run f s)
    (hf : f s = failAsker .auth s) (hask : askerSeat s = none) (hstate : s.twn.state ≠ .pairing) : LeadsTo i s (endHandshake s) :=
  leadsTo_of_run hi (hf.trans (failAsker_none hask hstate)) rfl rfl

/-- A row that ends a rekey's handshake: `u` is `s` but for messages and choices. -/
theorem rekeys_of_establish {i : Instr} {f : State → State} {s u : State} {m : TwinAuth} {th : Bytes} (hi : exec i s = run f s)
    (hf : f s = establish m th u) (hu : ∃ h n, u = { s with host := h, free := n }) (hre : s.twn.rekeying = true) :
    ∃ t, exec i s = .next t ∧ (∀ e ∈ u.host, e ∈ t.host) ∧ t.twn = { rekeyedTwn s th with framesTx := 0, fctrRx := 0 } := by
  obtain ⟨h, n, rfl⟩ := hu
  obtain ⟨t, ht, hv⟩ := follows_of_run hi (hf.trans (establish_rekeys hre))
  exact ⟨t, ht, fun e he => follows_sends hv he, (views_twn hv.only :)⟩

/-- A row that ends a rejoin's handshake. -/
theorem rejoins_of_establish {i : Instr} {f : State → State} {s u : State} {m : TwinAuth} {th : Bytes} (hi : exec i s = run f s)
    (hf : f s = establish m th u) (hu : ∃ h n, u = { s with host := h, free := n }) (hre : s.twn.rekeying = false)
    (hask : askerSeat s = none) (hm : m.claims ≠ []) :
    (divergedFunctions s m = [] → ∃ t, exec i s = .next t ∧ t.twn.session = true ∧ t.twn.state = .resending
        ∧ t.twn.peerState = m.lcState ∧ t.twn.diverged = [])
      ∧ (divergedFunctions s m ≠ [] → ∃ t, exec i s = .next t ∧ t.twn.session = true ∧ t.twn.state = .diverged
        ∧ t.twn.diverged = divergedFunctions s m ∧ t.keys = s.keys) := by
  obtain ⟨h, n, rfl⟩ := hu
  have hf' := hf.trans (establish_rejoins hre hask hm)
  refine ⟨fun hd => ?_, fun hd => ?_⟩
  · have hr := startRejoin_resends (s := { s with host := h, free := n }) (handshakeKeys { s with host := h, free := n } false th) hd
    obtain ⟨t, ht, hv⟩ := views_of_run hi hf'
    generalize startRejoin m _ { s with host := h, free := n } = v at *
    have htwn : t.twn = v.twn := (views_twn hv :)
    exact ⟨t, ht, (congrArg Twn.session htwn).trans hr.session, (congrArg Twn.state htwn).trans hr.state,
      (congrArg Twn.peerState htwn).trans hr.peerState, (congrArg Twn.diverged htwn).trans hr.diverged⟩
  · obtain ⟨hr, hkeys⟩ := startRejoin_stops (s := { s with host := h, free := n })
      (handshakeKeys { s with host := h, free := n } false th) hd
    obtain ⟨t, ht, hv⟩ := views_of_run hi hf'
    generalize startRejoin m _ { s with host := h, free := n } = v at *
    have htwn : t.twn = v.twn := (views_twn hv :)
    exact ⟨t, ht, (congrArg Twn.session htwn).trans hr.session, (congrArg Twn.state htwn).trans hr.state,
      (congrArg Twn.diverged htwn).trans hr.diverged, Eq.trans (views_keys hv :) hkeys⟩

/-- The effect of REKEY. -/
def rekeyLink (s : State) : State := if sharing s then sendHello true s else s

/-- The effect of REJOIN_RETRY. -/
def retryRejoin (s : State) : State :=
  if s.twn.state = .diverged then sendHello false s else if s.twn.session then s else sendHello false s

section
variable {s : State} {m : TwinAuth} {h : TwinHello} {r : TwinReply} (hh : s.twn.hello = some h) (hr : s.twn.reply = some r)
include hh hr

theorem receiveAuthI_fails (hs : s.twn.handshake = .sentReply) (hok : authOk (transcript h r none) m = false) :
    receiveAuthI m s = failAsker .auth s := by
  simp only [receiveAuthI, hs, hh, hr, hok, Bool.not_false, if_true]

theorem receiveAuthI_establishes (hs : s.twn.handshake = .sentReply) (hok : authOk (transcript h r none) m = true) :
    receiveAuthI m s = establish m (transcript h r (some m))
      (emit (.twinAuth (ownAuth (transcript h r (some m)) s)) (spend s)) := by
  simp only [receiveAuthI, hs, hh, hr, hok, Bool.not_true, Bool.false_eq_true, if_false]

theorem receiveAuthR_fails (hs : s.twn.handshake = .sentAuthI) (hok : authOk (transcript h r s.twn.auth) m = false) :
    receiveAuthR m s = failAsker .auth s := by
  simp only [receiveAuthR, hs, hh, hr, hok, Bool.not_false, if_true]

theorem receiveAuthR_establishes (hs : s.twn.handshake = .sentAuthI) (hok : authOk (transcript h r s.twn.auth) m = true) :
    receiveAuthR m s = establish m (transcript h r s.twn.auth) s := by
  simp only [receiveAuthR, hs, hh, hr, hok, Bool.not_true, Bool.false_eq_true, if_false]

end

/-- Settles O53: HELLO, REPLY and AUTH_I by what they send, the end of the handshake by `establish`. -/
theorem handshakes : Obligations.Handshakes := by
  unfold Obligations.Handshakes
  intro s
  dsimp only
  refine ⟨fun hsh hidle hmay hinit hserve => ?rekeys, fun hsh => ?alone, fun hst hidle hmay hinit hserve => ?retries,
    fun hst hses => ?running, fun hup hses hidle hmay hinit hserve => ?trains, fun m hmay hinit hpeer hfits hserve => ?answers,
    fun m hask hpeer => ?stranger, fun m h hsent hh => ⟨fun hpeer => ?replies, fun hpeer hask hstate => ?wrong⟩, fun hidle => ?idle,
    fun hidle hask hstate => ?late, fun m h r hh hr => ⟨fun hs => ⟨fun hok hask hstate => ?failsI, fun hok => ?authI⟩,
      fun hs => ⟨fun hok hask hstate => ?failsR, fun hok => ?authR⟩⟩⟩
  case rekeys => exact asks_hello (f := rekeyLink) true rfl (if_pos hsh) hidle hmay hinit hserve
  case alone => exact leadsTo_of_run (f := rekeyLink) rfl (if_neg (by simp [hsh])) rfl rfl
  case retries =>
    refine asks_hello (f := retryRejoin) false rfl ?_ hidle hmay hinit hserve
    unfold retryRejoin
    split
    · rfl
    · next hne => exact if_neg (by simp [hst.resolve_left hne])
  case running => exact leadsTo_of_run (f := retryRejoin) rfl ((if_neg hst).trans (if_pos hses)) rfl rfl
  case trains =>
    refine asks_hello (f := linkTrains) false rfl ?_ hidle hmay hinit hserve
    have hen : s.twn.enable = true := by
      simp only [mayHandshake, Bool.and_eq_true] at hmay
      exact hmay.1.1.1.2
    have hsame : ({ s with twn := { s.twn with linkUp := true } } : State) = s := by rw [← hup]
    rw [linkTrains, if_neg (by simp [hen])]
    exact (if_neg (by simp [hses])).trans (congrArg (sendHello false) hsame)
  case answers =>
    obtain ⟨j, r, a, hserial, hans⟩ := receiveHello_answers hmay hinit hpeer hfits hserve
    obtain ⟨t, ht, hv⟩ := follows_of_run (i := .hello m) (f := receiveHello m) rfl hans
    have htwn := views_twn hv.only
    exact ⟨t, r, ht, (congrArg Twn.handshake htwn :), (congrArg Twn.hello htwn :), (congrArg Twn.reply htwn :), hserial,
      (congrArg Twn.rekeying htwn :), (congrArg Twn.session htwn :),
      follows_sends hv (List.mem_append_right _ (List.mem_singleton.2 rfl))⟩
  case stranger => exact leadsTo_of_run (f := receiveHello m) rfl (receiveHello_stranger hask hpeer) rfl rfl
  case replies =>
    obtain ⟨t, ht, hv⟩ := follows_of_run (i := .reply m) (f := receiveReply m) rfl (receiveReply_answers hsent hh hpeer)
    have htwn := views_twn hv.only
    exact ⟨t, ownAuth (transcript h m none) s, ht, (congrArg Twn.handshake htwn :), (congrArg Twn.reply htwn :),
      (congrArg Twn.auth htwn :), rfl, rfl, (congrArg Twn.session htwn :),
      follows_sends hv (List.mem_append_right _ (List.mem_singleton.2 rfl))⟩
  case wrong => exact drops_handshake (f := receiveReply m) rfl (receiveReply_stranger hsent hh hpeer) hask hstate
  case idle => exact leadsTo_of_run (f := handshakeExpires) rfl (if_pos hidle) rfl rfl
  case late => exact drops_handshake (f := handshakeExpires) rfl ((if_neg hidle).trans (if_neg (by simp [hask]))) hask hstate
  case failsI => exact drops_handshake (f := receiveAuthI m) rfl (receiveAuthI_fails hh hr hs hok) hask hstate
  case authI =>
    have hf := receiveAuthI_establishes hh hr hs hok
    refine ⟨fun hre => ?_, fun hre hask hm => rejoins_of_establish (f := receiveAuthI m) rfl hf ⟨_, _, rfl⟩ hre hask hm, fun hre => ?_⟩
    · obtain ⟨t, ht, -, htwn⟩ := rekeys_of_establish (i := .authI m) (f := receiveAuthI m) rfl hf ⟨_, _, rfl⟩ hre
      exact ⟨t, ht, (congrArg Twn.handshake htwn :), (congrArg Twn.framesTx htwn :), (congrArg Twn.fctrRx htwn :),
        (congrArg Twn.session htwn :), (congrArg Twn.journal htwn :), (congrArg Twn.keyOut htwn :), (congrArg Twn.keyIn htwn :)⟩
    · obtain ⟨t, ht, hsent, -⟩ := rekeys_of_establish (i := .authI m) (f := receiveAuthI m) rfl hf ⟨_, _, rfl⟩ hre
      exact ⟨t, ownAuth (transcript h r (some m)) s, ht, hsent _ (List.mem_append_right _ (List.mem_singleton.2 rfl)), rfl, rfl⟩
  case failsR => exact drops_handshake (f := receiveAuthR m) rfl (receiveAuthR_fails hh hr hs hok) hask hstate
  case authR =>
    have hf := receiveAuthR_establishes hh hr hs hok
    refine ⟨fun hre => ?_, fun hre hask hm => rejoins_of_establish (f := receiveAuthR m) rfl hf ⟨_, _, rfl⟩ hre hask hm⟩
    obtain ⟨t, ht, -, htwn⟩ := rekeys_of_establish (i := .authR m) (f := receiveAuthR m) rfl hf ⟨_, _, rfl⟩ hre
    exact ⟨t, ht, (congrArg Twn.handshake htwn :), (congrArg Twn.framesTx htwn :), (congrArg Twn.fctrRx htwn :),
      (congrArg Twn.session htwn :), (congrArg Twn.journal htwn :), (congrArg Twn.keyOut htwn :), (congrArg Twn.keyIn htwn :)⟩

end Sys2Proof.Machine

/-! PROOF. Pairing, restore and unpairing (O54), and adoption (O55): R400, R403, R413, R417. -/

namespace Sys2Proof.Machine

open Sys2Proof.Claims

/-! ### HELLO of a pairing or a restore -/

/-- HELLO goes out, or not: seats, keys, asker and state of the link stay. -/
theorem sendHello_keeps (rekey : Bool) (s : State) :
    (sendHello rekey s).seats = s.seats ∧ (sendHello rekey s).keys = s.keys ∧ (sendHello rekey s).twn.asker = s.twn.asker
      ∧ (sendHello rekey s).twn.state = s.twn.state := by
  unfold sendHello
  split
  · exact ⟨rfl, rfl, rfl, rfl⟩
  · split
    · exact ⟨rfl, rfl, rfl, rfl⟩
    · next b u hb =>
      obtain ⟨i, -, -, rfl⟩ := drawBytes_some hb
      exact ⟨rfl, rfl, rfl, rfl⟩

/-! ### OP_TWIN_PAIR and OP_TWIN_RESTORE (R400, R417) -/

section
variable {s : State} {k : Nat} {x : Seat} (hx : s.seats.get? k = some x)
include hx

section
variable (hc : computing x 0x050 = true) (hask : s.twn.asker ≠ some k)
include hc hask

theorem opTwinPair_refused {st : Status} (h : pairCheck s x = some st) : opTwinPair k s = finishSeat (ended st 0) s k := by
  simp [opTwinPair, hx, hc, hask, h]

theorem opTwinPair_starts (h : pairCheck s x = none) (hmode : x.entry.arg 0 ≠ 2) :
    opTwinPair k s = sendHello false { s with twn := { s.twn with asker := some k, state := .pairing } } := by
  simp [opTwinPair, hx, hc, hask, h, hmode]

theorem opTwinPair_unpairs (h : pairCheck s x = none) (hmode : x.entry.arg 0 = 2) :
    opTwinPair k s = if mirrorsNamed s then s else finishSeat (done (pairOutput s 0) 0 [.twinPair 2]) s k := by
  simp [opTwinPair, hx, hc, hask, h, hmode]

end

section
variable (hc : computing x 0x052 = true) (hask : s.twn.asker ≠ some k)
include hc hask

theorem opTwinRestore_refused {st : Status} (h : restoreCheck s x = some st) :
    opTwinRestore k s = finishSeat (ended st 0) s k := by
  simp [opTwinRestore, hx, hc, hask, h]

theorem opTwinRestore_starts (h : restoreCheck s x = none) :
    opTwinRestore k s = sendHello false { s with twn := { s.twn with asker := some k } } := by
  simp [opTwinRestore, hx, hc, hask, h]

end

end

theorem pairCheck_auth {s : State} {x : Seat} (hent : x.noEntropy = false) (hstray : strayHandle x = false)
    (hmode : x.entry.arg 0 ≤ 1) (hap : x.approval = false) : pairCheck s x = some .auth := by
  simp [pairCheck, hent, hstray, hmode, hap]

theorem pairCheck_busy {s : State} {x : Seat} (hent : x.noEntropy = false) (hstray : strayHandle x = false)
    (hmode : x.entry.arg 0 ≤ 1) (hap : x.approval = true) (h : s.twn.enable = false ∨ paired s = true) :
    pairCheck s x = some .busy := by
  have hbusy : (!s.twn.enable || (x.entry.arg 0 ≤ 2 && s.twn.asker.isSome) || (x.entry.arg 0 ≤ 1 && paired s)
      || (x.entry.arg 0 = 2 && !paired s)) = true := by
    rcases h with h | h <;> simp [h, hmode]
  simp only [pairCheck, hent, hstray, hap, Bool.false_eq_true, if_false, Bool.not_true, Bool.and_false, hbusy, if_true]

/-! ### A pairing without an answer (R400) -/

theorem askerSeat_pairing {s : State} {k : Nat} {x : Seat} (hx : s.seats.get? k = some x) (hc : computing x 0x050 = true)
    (hask : s.twn.asker = some k) : askerSeat s = some (k, x) := by
  have hnone : x.outcome.isNone = true := by
    simp only [computing, Bool.and_eq_true] at hc
    exact hc.1.2
  simp [askerSeat, hask, hx, hc, hnone]

theorem failAsker_pairing {s : State} {k : Nat} {x : Seat} (st : Status) (hx : s.seats.get? k = some x)
    (hc : computing x 0x050 = true) (hask : s.twn.asker = some k) (hstate : s.twn.state = .pairing) :
    failAsker st s = (let u := unpair (finishSeat (ended st 0) s k)
                      { u with twn := { u.twn with asker := none } }) := by
  have hstate' : (finishSeat (ended st 0) s k).twn.state = .pairing := hstate
  simp only [failAsker, askerSeat_pairing hx hc hask, hstate', if_true]

theorem unpair_twn (s : State) : (unpair s).twn.record = none ∧ (unpair s).twn.state = .unpaired
    ∧ (unpair s).twn.session = false ∧ (unpair s).ten.homes = [] := ⟨rfl, rfl, rfl, rfl⟩

/-- The operation of a pairing that nobody answered ends with `st`, and the device is unpaired. -/
theorem failAsker_unpairs {s : State} {k : Nat} {x : Seat} (st : Status) (hx : s.seats.get? k = some x)
    (hc : computing x 0x050 = true) (hask : s.twn.asker = some k) (hstate : s.twn.state = .pairing) :
    (∃ y, (failAsker st s).seats.get? k = some y ∧ y.outcome = some (ended st 0)) ∧ (failAsker st s).twn.state = .unpaired
      ∧ (failAsker st s).twn.asker = none ∧ (failAsker st s).twn.record = none := by
  rw [failAsker_pairing st hx hc hask hstate, finishSeat_eq _ hx]
  have hseat : (setSeat k { x with outcome := some (ended st 0) } s).seats.get? k = some { x with outcome := some (ended st 0) } :=
    Tab.get?_put_same _ _ _
  generalize setSeat k { x with outcome := some (ended st 0) } s = v at *
  obtain ⟨y, hy, ho⟩ := (unpair_forgets v).outcomes k _ hseat
  obtain ⟨hrecord, hstate, -, -⟩ := unpair_twn v
  generalize unpair v = u at *
  exact ⟨⟨y, hy, ho⟩, hstate, rfl, hrecord⟩

/-! ### The obligation on pairing -/

/-- Settles O54: pairing and restore by what HELLO keeps, unpairing by what `unpair` leaves. -/
theorem pairingRows : Obligations.PairingRows := by
  unfold Obligations.PairingRows
  refine fun s k x hx => ⟨fun hc hask => ⟨fun st hst => ?refused, fun hst hmode => ?starts, fun hst hmode hno => ?unpairs,
    fun hst hmode hnamed => ?waits, fun hent hstray hmode => ⟨fun hap => pairCheck_auth hent hstray hmode hap,
      fun hap h => pairCheck_busy hent hstray hmode hap h⟩⟩,
    fun hc hask => ⟨fun st hst => ?noRestore, fun hst => ?restores⟩,
    fun hc hask hstate => ⟨fun hses => ?answered, fun hses => ?expires⟩, fun hp hses => ⟨fun hnamed => ?later, fun hno => ?notice⟩⟩
  case refused =>
    exact leadsTo_of_run (f := opTwinPair k) rfl ((opTwinPair_refused hx hc hask hst).trans (finishSeat_eq _ hx)) rfl rfl
  case starts =>
    obtain ⟨hseats, hkeys, hasker, hstate⟩ := sendHello_keeps false { s with twn := { s.twn with asker := some k, state := .pairing } }
    obtain ⟨t, ht, hv⟩ := views_of_run (i := .opTwinPair k) (f := opTwinPair k) rfl (opTwinPair_starts hx hc hask hst hmode)
    generalize sendHello false _ = u at *
    exact ⟨t, ht, Eq.trans (congrArg Twn.asker (views_twn hv) :) hasker, Eq.trans (congrArg Twn.state (views_twn hv) :) hstate,
      Eq.trans (views_seats hv :) hseats, Eq.trans (views_keys hv :) hkeys⟩
  case unpairs =>
    refine leadsTo_of_run (f := opTwinPair k) rfl ((opTwinPair_unpairs hx hc hask hst hmode).trans ?_) rfl rfl
    rw [if_neg (by simp [hno]), finishSeat_eq _ hx]
  case waits =>
    exact leadsTo_of_run (f := opTwinPair k) rfl ((opTwinPair_unpairs hx hc hask hst hmode).trans (if_pos hnamed)) rfl rfl
  case noRestore =>
    exact leadsTo_of_run (f := opTwinRestore k) rfl ((opTwinRestore_refused hx hc hask hst).trans (finishSeat_eq _ hx)) rfl rfl
  case restores =>
    obtain ⟨hseats, -, hasker, hstate⟩ := sendHello_keeps false { s with twn := { s.twn with asker := some k } }
    obtain ⟨t, ht, hv⟩ := views_of_run (i := .opTwinRestore k) (f := opTwinRestore k) rfl (opTwinRestore_starts hx hc hask hst)
    generalize sendHello false _ = u at *
    exact ⟨t, ht, Eq.trans (congrArg Twn.asker (views_twn hv) :) hasker, Eq.trans (views_seats hv :) hseats,
      Eq.trans (congrArg Twn.state (views_twn hv) :) hstate⟩
  case answered => exact leadsTo_of_run (f := pairingExpires k) rfl (if_neg (by simp [hses])) rfl rfl
  case expires =>
    obtain ⟨⟨y, hy, ho⟩, hun, hnone, hrecord⟩ := failAsker_unpairs .busy hx hc hask hstate
    obtain ⟨t, ht, hv⟩ := views_of_run (i := .pairingTimeout k) (f := pairingExpires k) (s := s) rfl (if_pos (by simp [hask, hses]))
    generalize failAsker .busy s = u at *
    have htwn : t.twn = u.twn := (views_twn hv :)
    exact ⟨t, y, ht, Eq.trans (congrArg (fun l => l.get? k) (views_seats hv) :) hy, ho, (congrArg Twn.state htwn).trans hun,
      (congrArg Twn.asker htwn).trans hnone, (congrArg Twn.record htwn).trans hrecord⟩
  case later => exact leadsTo_of_run (f := takeUnpair) rfl (if_pos (by simp [hnamed])) rfl rfl
  case notice =>
    obtain ⟨hrecord, hstate, hsession, hhomes⟩ := unpair_twn s
    have hkeeps := releaseAbandoned_keepsTwin (unpair s)
    obtain ⟨t, ht, hv⟩ := views_of_run (i := .twinUnpairNotice) (f := takeUnpair) (s := s) rfl
      (if_neg (by simp [hp, hses, hno]))
    generalize unpair s = v at *
    generalize releaseAbandoned v = u at *
    have htwn : t.twn = v.twn := Eq.trans (views_twn hv :) hkeeps.twn
    exact ⟨t, ht, (congrArg Twn.record htwn).trans hrecord, (congrArg Twn.state htwn).trans hstate,
      (congrArg Twn.session htwn).trans hsession, Eq.trans (congrArg Ten.homes (views_ten hv) :) (hkeeps.homes.trans hhomes)⟩

/-! ### Adoption (R413) -/

section
variable {s : State} {k : Nat} {x : Seat} (hx : s.seats.get? k = some x) (hc : computing x 0x051 = true)
include hx hc

theorem opTwinAdopt_bad (h : adoptInputBad s x = true) : opTwinAdopt k s = finishSeat (ended .invalidInput 0) s k := by
  simp [opTwinAdopt, hx, hc, h]

theorem opTwinAdopt_yields (h : adoptInputBad s x = false) (hy : x.entry.argBit 2 0 = true) :
    opTwinAdopt k s = finishSeat (done [] 0 [.twinAdopt (x.entry.argN 0 2) true]) s k := by
  simp [opTwinAdopt, hx, hc, h, hy]

variable (h : adoptInputBad s x = false) (hy : x.entry.argBit 2 0 = false)
include h hy

theorem opTwinAdopt_absent (ha : twinAbsentLive s = true) :
    opTwinAdopt k s = finishSeat (done [] 0 [.twinAdopt (x.entry.argN 0 2) false]) s k := by
  simp [opTwinAdopt, hx, hc, h, hy, ha]

theorem opTwinAdopt_ends (ha : twinAbsentLive s = false) (hl : adoptTargets s (x.entry.argN 0 2) = []) :
    opTwinAdopt k s = finishSeat (done (padTo 8 x.chunks) 0 []) s k := by
  simp [opTwinAdopt, hx, hc, h, hy, ha, hl]

theorem opTwinAdopt_waits (ha : twinAbsentLive s = false) (hl : adoptTargets s (x.entry.argN 0 2) ≠ []) (hs : x.staged = 1) :
    opTwinAdopt k s = s := by
  simp [opTwinAdopt, hx, hc, h, hy, ha, hl, hs]

theorem opTwinAdopt_asks (ha : twinAbsentLive s = false) (hl : adoptTargets s (x.entry.argN 0 2) ≠ []) (hs : x.staged ≠ 1) :
    opTwinAdopt k s = updSeat k (fun y => { y with staged := 1, chunks := zeros 8 })
      ((adoptTargets s (x.entry.argN 0 2)).foldl (fun t f => emit (.twinAdopt f) (countFrames 1 t)) s) := by
  simp [opTwinAdopt, hx, hc, h, hy, ha, hl, hs]

end

/-- The requests that ask the twin to yield: every partition named, and of the device only counters and messages change. -/
theorem adoptRequests_sent (l : List Nat) (s : State) :
    let t := l.foldl (fun t f => emit (.twinAdopt f) (countFrames 1 t)) s
    t.seats = s.seats ∧ t.keys = s.keys ∧ (∀ e ∈ s.host, e ∈ t.host) ∧ ∀ g ∈ l, Emit.twinAdopt g ∈ t.host := by
  induction l generalizing s with
  | nil => exact ⟨rfl, rfl, fun _ he => he, fun _ hg => nomatch hg⟩
  | cons a l ih =>
    obtain ⟨hseats, hkeys, hhost, hall⟩ := ih (emit (.twinAdopt a) (countFrames 1 s))
    refine ⟨hseats, hkeys, fun e he => hhost e (List.mem_append_left _ he), fun g hg => ?_⟩
    rcases List.mem_cons.1 hg with rfl | hg
    · exact hhost _ (List.mem_append_right _ (List.mem_singleton.2 rfl))
    · exact hall g hg

/-! ### A yield to the twin (R413) -/

theorem takeAdoptRequest_ignored {f : Nat} {s : State} (h : (homeOf s f).twin = true ∨ s.twn.session = false) :
    takeAdoptRequest f s = s := by
  refine if_pos ?_
  rcases h with h | h <;> simp [h]

theorem takeAdoptRequest_eq {f : Nat} {s : State} (hf : f ≤ Config.vfTotal) (hses : s.twn.session = true)
    (hhome : (homeOf s f).twin = false) (hy : s.twn.yielding = []) :
    takeAdoptRequest f s = yieldPartition { s with twn := { s.twn with yielding := [f] } } f := by
  have hno : ¬ (!s.twn.session || (homeOf s f).twin || decide (Config.vfTotal < f)) = true := by
    simp [hses, hhome, hf]
  simp only [takeAdoptRequest]
  rw [if_neg (by simpa using hno), hy]
  rfl

theorem writeTenantRecord_only (f : Nat) (s : State) : OnlyJournal s (writeTenantRecord f s) := by
  unfold writeTenantRecord
  exact writeShared_only _ _ s

theorem assemble_of_slots {s t : State} (h : t.keys.slots = s.keys.slots) (host : Bytes) (l : List Fragment) :
    assemble t host l = assemble s host l := by
  have hbytes (f : Fragment) : keyBytes t f = keyBytes s f := by simp only [keyBytes, h]
  induction l generalizing host with
  | nil => rfl
  | cons f l ih => simp only [assemble, hbytes, ih]

/-- The changes in flight are those of seats, by the key table. -/
theorem changesInFlight_of_same {s t : State} (hseats : t.seats = s.seats) (hslots : t.keys.slots = s.keys.slots) (f : Nat) :
    changesInFlight t f = changesInFlight s f := by
  have hinput (x : Seat) : fullInput t x = fullInput s x := by simp only [fullInput, assemble_of_slots hslots]
  have hchanges (x : Seat) : changesPartition t x = changesPartition s x := by simp only [changesPartition, slotOf, hslots, hinput]
  simp only [changesInFlight, hseats, hchanges]

/-- A partition whose changes are through becomes mirror. -/
theorem yieldPartition_yields {f : Nat} {s : State} (h1 : changesInFlight s f = false) (h2 : changedApart s f = false) :
    (homeOf (yieldPartition s f) f).twin = true ∧ f ∉ (yieldPartition s f).twn.yielding := by
  have heq : yieldPartition s f = writeTenantRecord f (becomeMirror f (homeOf s f).term s) := if_neg (by simp [h1, h2])
  rw [heq]
  have hhome : (homeOf (becomeMirror f (homeOf s f).term s) f).twin = true := by
    simp [homeOf, becomeMirror]
  have hyield : f ∉ (becomeMirror f (homeOf s f).term s).twn.yielding := by
    simp [becomeMirror]
  generalize becomeMirror f (homeOf s f).term s = u at *
  have hj : OnlyJournal u (writeTenantRecord f u) := writeTenantRecord_only f u
  generalize writeTenantRecord f u = v at *
  have hten : v.ten = u.ten := by rw [hj]
  have htwn : v.twn.yielding = u.twn.yielding := by rw [hj]
  refine ⟨?_, htwn ▸ hyield⟩
  unfold homeOf at *
  rwa [hten]

/-- Settles O55: adoption by the cases of `opTwinAdopt`, the twin's request by `yieldPartition`. -/
theorem adoptionRows : Obligations.AdoptionRows := by
  unfold Obligations.AdoptionRows
  refine fun s => ⟨fun k x hx hc => ⟨fun hp => ?unpaired, fun hin => ⟨fun hy => ?yields, fun hy => ⟨fun ha => ?absent,
    fun ha hl => ?ends, fun ha hl hs => ?asks, fun ha hl hs => ?waits⟩⟩⟩, fun f h => ?ignored,
    fun f hf hses hhome hy => ⟨fun h => ?keeps, fun h1 h2 => ?gives⟩⟩
  case unpaired =>
    have hbad : adoptInputBad s x = true := by simp [adoptInputBad, hp]
    exact leadsTo_of_run (f := opTwinAdopt k) rfl ((opTwinAdopt_bad hx hc hbad).trans (finishSeat_eq _ hx)) rfl rfl
  case yields =>
    exact leadsTo_of_run (f := opTwinAdopt k) rfl ((opTwinAdopt_yields hx hc hin hy).trans (finishSeat_eq _ hx)) rfl rfl
  case absent =>
    exact leadsTo_of_run (f := opTwinAdopt k) rfl ((opTwinAdopt_absent hx hc hin hy ha).trans (finishSeat_eq _ hx)) rfl rfl
  case ends =>
    exact leadsTo_of_run (f := opTwinAdopt k) rfl ((opTwinAdopt_ends hx hc hin hy ha hl).trans (finishSeat_eq _ hx)) rfl rfl
  case asks =>
    obtain ⟨hseats, hkeys, -, hall⟩ := adoptRequests_sent (adoptTargets s (x.entry.argN 0 2)) s
    obtain ⟨t, ht, hv⟩ := follows_of_run (i := .opTwinAdopt k) (f := opTwinAdopt k) rfl (opTwinAdopt_asks hx hc hin hy ha hl hs)
    generalize (adoptTargets s (x.entry.argN 0 2)).foldl _ s = u at *
    have hnone : x.outcome = none := by
      simp only [computing, Bool.and_eq_true] at hc
      exact Option.isNone_iff_eq_none.1 hc.1.2
    refine ⟨t, { x with staged := 1, chunks := zeros 8 }, ht, ?_, rfl, hnone, fun g hg => follows_sends hv (hall g hg),
      Eq.trans (views_keys hv.only :) hkeys⟩
    refine Eq.trans (congrArg (fun l => l.get? k) (views_seats hv.only) :) ?_
    dsimp only [updSeat]
    rw [Tab.get?_upd, if_pos rfl, hseats, hx]
    rfl
  case waits => exact leadsTo_of_run (f := opTwinAdopt k) rfl (opTwinAdopt_waits hx hc hin hy ha hl hs) rfl rfl
  case ignored => exact leadsTo_of_run (f := takeAdoptRequest f) rfl (takeAdoptRequest_ignored h) rfl rfl
  case keeps =>
    have hflight := changesInFlight_of_same (s := s) (t := { s with twn := { s.twn with yielding := [f] } }) rfl rfl f
    refine leadsTo_of_run (f := takeAdoptRequest f) rfl ((takeAdoptRequest_eq hf hses hhome hy).trans (if_pos ?_)) rfl rfl
    exact Bool.or_eq_true_iff.2 (h.imp_left hflight.trans)
  case gives =>
    have h1' := (changesInFlight_of_same (s := s) (t := { s with twn := { s.twn with yielding := [f] } }) rfl rfl f).trans h1
    obtain ⟨hmirror, hdone⟩ := yieldPartition_yields h1' h2
    obtain ⟨t, ht, hv⟩ := views_of_run (i := .twinAdoptRequest f) (f := takeAdoptRequest f) rfl
      (takeAdoptRequest_eq hf hses hhome hy)
    generalize yieldPartition _ f = u at *
    have hten : t.ten = u.ten := (views_ten hv :)
    have htwn : t.twn = u.twn := (views_twn hv :)
    refine ⟨t, ht, ?_, htwn ▸ hdone⟩
    unfold homeOf at *
    rwa [hten]

end Sys2Proof.Machine

/-! PROOF. Frames of the twin link, checked and applied in their turn (O56): R405 to R408, R416, R418. -/

namespace Sys2Proof.Machine

open Sys2Proof.Claims

/-! ### Frames that are sent meanwhile -/

/-- Journal messages become frames: the journal channel's queue and its count of frames sent change, and what it received
stays. -/
theorem pumpJournal_frame (s : State) : ∃ n h c, pumpJournal s = { s with
      twn := { s.twn with journalQueue := s.twn.journalQueue.drop n, framesTx := s.twn.framesTx + n,
                          journal := { s.twn.journal with sendSeq := s.twn.journal.sendSeq + n,
                                                          unacked := s.twn.journal.unacked + n } },
      host := h, glb := { s.glb with counters := c } } ∧ n ≤ s.twn.journalQueue.length := by
  have hfold (l : List JournalMessage) : ∃ h, l.foldl (fun t m => emit (.twinJournal m) t) s = { s with host := h } :=
    List.foldlRecOn (motive := fun t : State => ∃ h, t = { s with host := h }) _ _ ⟨s.host, rfl⟩ fun t ht m _ => by
      obtain ⟨h, rfl⟩ := ht
      exact ⟨_, rfl⟩
  unfold pumpJournal
  split
  · exact ⟨0, s.host, s.glb.counters, rfl, Nat.zero_le _⟩
  · dsimp only
    obtain ⟨h, hh⟩ := hfold (s.twn.journalQueue.take (256 - s.twn.journal.unacked))
    rw [hh]
    exact ⟨_, _, _, rfl, List.length_take_le' _ _⟩

theorem pumpCheckpoint_frame (s : State) : ∃ q n k h c, pumpCheckpoint s = { s with
      twn := { s.twn with checkpointQueue := q, framesTx := n, checkpoint := k }, host := h, glb := { s.glb with counters := c } } := by
  have hfold (l : List CheckpointMessage) : ∃ h, l.foldl (fun t m => emit (.twinCheckpoint m) t) s = { s with host := h } :=
    List.foldlRecOn (motive := fun t : State => ∃ h, t = { s with host := h }) _ _ ⟨s.host, rfl⟩ fun t ht m _ => by
      obtain ⟨h, rfl⟩ := ht
      exact ⟨_, rfl⟩
  unfold pumpCheckpoint
  split
  · exact ⟨_, _, _, _, _, rfl⟩
  · dsimp only
    obtain ⟨h, hh⟩ := hfold (s.twn.checkpointQueue.take (256 - s.twn.checkpoint.unacked))
    rw [hh]
    exact ⟨_, _, _, _, _, rfl⟩

/-- What of the journal channel a record of this device leaves: what it received, and what it applied. -/
structure KeepsReceived (s t : State) : Prop where
  recvSeq : t.twn.journal.recvSeq = s.twn.journal.recvSeq
  appliedSeq : t.twn.appliedSeq = s.twn.appliedSeq
  slots : t.keys.slots = s.keys.slots

theorem keepsReceived_refl (s : State) : KeepsReceived s s := ⟨rfl, rfl, rfl⟩

theorem keepsReceived_trans {s t u : State} (h : KeepsReceived s t) (g : KeepsReceived t u) : KeepsReceived s u :=
  ⟨g.recvSeq.trans h.recvSeq, g.appliedSeq.trans h.appliedSeq, g.slots.trans h.slots⟩

theorem shareRecord_received (h : Nat) (m : JournalMessage) (s : State) : KeepsReceived s (shareRecord h m s) := by
  unfold shareRecord
  split
  · obtain ⟨n, w, c, hpump, -⟩ := pumpJournal_frame { s with
      keys := { s.keys with log := s.keys.log ++ [(h, m)] }, twn := { s.twn with journalQueue := s.twn.journalQueue ++ [m] } }
    have hsend : sendJournal m { s with keys := { s.keys with log := s.keys.log ++ [(h, m)] } } = _ := hpump
    rw [hsend]
    exact ⟨rfl, rfl, rfl⟩
  · exact keepsReceived_refl s

theorem carryForward_received (n fuel : Nat) (s : State) : KeepsReceived s (carryForward n fuel s) := by
  induction fuel generalizing s with
  | zero => exact keepsReceived_refl s
  | succ fuel ih =>
    unfold carryForward
    split
    · exact keepsReceived_refl s
    · refine keepsReceived_trans (keepsReceived_trans ?_ (shareRecord_received ..)) (ih _)
      exact ⟨rfl, rfl, rfl⟩

theorem writeRecord_received (r : JournalRecord) (s : State) : KeepsReceived s (writeRecord r s) :=
  keepsReceived_trans (carryForward_received r.size Config.statefulTotal s) ⟨rfl, rfl, rfl⟩

/-! ### Checks of a frame (R405) -/

section
variable {f : Frame} {s : State}

/-- A frame fails its checks. -/
def frameBad (f : Frame) (s : State) : Bool := !f.tagOk || !f.lenOk || !f.reservedOk || f.fctr ≤ s.twn.fctrRx

/-- Frames dropped for their tag in a row, with this one. -/
def tagFailsWith (f : Frame) (s : State) : Nat := if f.tagOk then 0 else s.twn.tagFails + 1

/-- The link once a frame has been accepted. -/
def frameTaken (f : Frame) (s : State) : State := bump Ctr.framesRx 1 { s with twn := { s.twn with fctrRx := f.fctr, tagFails := 0 } }

/-- The link once a frame has been dropped. -/
def frameDropped (f : Frame) (s : State) : State :=
  bump Ctr.dropped 1 { s with twn := { s.twn with tagFails := tagFailsWith f s } }

theorem onFrame_ignored (g : State → State) (h : s.twn.session = false ∨ s.twn.linkUp = false) : onFrame f g s = s := by
  have hno : (!s.twn.session || !s.twn.linkUp) = true := by rcases h with h | h <;> simp [h]
  simp only [onFrame, takeFrame, hno, if_true]

variable (hses : s.twn.session = true) (hup : s.twn.linkUp = true)
include hses hup

theorem takeFrame_eq : takeFrame f s = if frameBad f s then (false, decide (64 ≤ tagFailsWith f s), frameDropped f s)
    else (true, false, frameTaken f s) := by
  rw [takeFrame, if_neg (by simp [hses, hup])]
  rfl

theorem onFrame_taken (g : State → State) (h : frameBad f s = false) : onFrame f g s = g (frameTaken f s) := by
  simp only [onFrame, takeFrame_eq hses hup, h, Bool.false_eq_true, if_false]

theorem onFrame_dropped (g : State → State) (h : frameBad f s = true) (hn : tagFailsWith f s < 64) :
    onFrame f g s = frameDropped f s := by
  simp only [onFrame, takeFrame_eq hses hup, h, if_true, decide_eq_false (Nat.not_le.2 hn)]

theorem onFrame_loses (g : State → State) (h : frameBad f s = true) (hn : 64 ≤ tagFailsWith f s) :
    onFrame f g s = loseSession (frameDropped f s) := by
  simp only [onFrame, takeFrame_eq hses hup, h, if_true, decide_eq_true hn]

end

/-- Whatever becomes of the pairing, a declared absence ends the session. -/
theorem declareAbsent_session (s : State) : (declareAbsent s).twn.session = false := by
  have hpage (e : Nat) (c : List (Nat × Nat)) (u : State) : (writeTwinPage e c true u).twn = u.twn := by
    unfold writeTwinPage
    split <;> rfl
  unfold declareAbsent
  dsimp only
  split
  · split <;> rfl
  · split
    · rfl
    · split
      · simp [endSession]
      · rw [hpage]
        simp [endSession]

theorem loseSession_session (s : State) : (loseSession s).twn.session = false := by
  rw [loseSession, (releaseAbandoned_keepsTwin _).twn]
  exact declareAbsent_session s

/-- The checks of a frame, whatever takes it in. -/
theorem frame_checked {i : Instr} {f : Frame} {g : State → State} {s : State} (hi : exec i s = run (onFrame f g) s) :
    (s.twn.session = false ∨ s.twn.linkUp = false → LeadsTo i s s)
      ∧ (s.twn.session = true → s.twn.linkUp = true → frameBad f s = true →
        (tagFailsWith f s < 64 → LeadsTo i s (frameDropped f s))
        ∧ (64 ≤ tagFailsWith f s → ∃ t, exec i s = .next t ∧ t.twn.session = false)) := by
  refine ⟨fun h => leadsTo_of_run hi (onFrame_ignored g h) rfl rfl, fun hses hup hbad => ⟨fun hn => ?_, fun hn => ?_⟩⟩
  · exact leadsTo_of_run hi (onFrame_dropped hses hup g hbad hn) rfl rfl
  · obtain ⟨t, ht, hv⟩ := views_of_run hi (onFrame_loses hses hup g hbad hn)
    exact ⟨t, ht, Eq.trans (congrArg Twn.session (views_twn hv) :) (loseSession_session _)⟩

/-! ### Journal and checkpoint frames (R405, R406, R408, R416, R418) -/

/-- The journal channel once a frame came in its turn. -/
def journalTaken (s : State) : State :=
  { s with twn := { s.twn with journal := { s.twn.journal with recvSeq := s.twn.journal.recvSeq + 1 } } }

theorem takeJournal_late {f : Frame} {s : State} (m : JournalMessage) (h : f.cseq ≠ s.twn.journal.recvSeq) :
    takeJournal f m s = s := if_pos (by simp [h])

theorem takeCheckpoint_late {f : Frame} {s : State} (m : CheckpointMessage) (h : f.cseq ≠ s.twn.checkpoint.recvSeq) :
    takeCheckpoint f m s = s := if_pos (by simp [h])

theorem takeJournal_in_turn {f : Frame} {s : State} (m : JournalMessage) (hsh : sharing s = true)
    (h : f.cseq = s.twn.journal.recvSeq) :
    takeJournal f m s = if alreadyApplied s m then journalTaken s else applyMessage m (journalTaken s) := if_neg (by simp [hsh, h])

theorem alreadyApplied_slotCommit (s : State) (q : Nat) (x : SlotImage) :
    alreadyApplied s (.slotCommit q x) = (q != 0 && decide (q ≤ s.twn.appliedSeq)) := rfl

/-- The mirror slot that a slot commit describes. -/
def IsMirrorOf (m : SlotImage) (y : Slot) : Prop :=
  y.mirror = true ∧ y.occupied = true ∧ y.owner = m.owner ∧ y.gen = m.generation ∧ y.family = m.family
    ∧ y.paramSet = m.paramSet ∧ y.usage = m.usage ∧ y.exportable = m.exportable ∧ y.material = m.material
    ∧ y.unitCount = m.units

/-- The state of a slot that is about to be written again. -/
def slotCleared (i : Nat) (s : State) : State :=
  let t := clearSlot i s
  { t with keys := { t.keys with slots := t.keys.slots.del i } }

theorem slotCleared_frame (i : Nat) (s : State) :
    (slotCleared i s).twn = s.twn ∧ (slotCleared i s).keys.slots = s.keys.slots.del i := by
  have hpin : (endPin i s).twn = s.twn ∧ (endPin i s).keys.slots = s.keys.slots := by
    unfold endPin
    split <;> exact ⟨rfl, rfl⟩
  exact ⟨hpin.1, congrArg (fun l => l.del i) hpin.2⟩

/-- A slot commit writes its record, and the slot. -/
theorem applySlot_eq {m : SlotImage} (s : State) (hm : m.occupied = true) :
    ∃ r y w u z, IsMirrorOf m y ∧ applySlot m s = (let v := writeRecord r (slotCleared m.index s)
      { v with keys := { v.keys with slots := v.keys.slots.put m.index y, written := w, unitNext := u, stateful := z } }) := by
  unfold applySlot
  dsimp only
  rw [if_neg (by simp [hm])]
  exact ⟨_, _, _, _, _, ⟨rfl, rfl, rfl, rfl, rfl, rfl, rfl, rfl, rfl, rfl⟩, rfl⟩

/-- A slot commit of the twin makes the mirror slot that it describes; other slots, and what the channel received, stay. -/
theorem applySlot_mirrors {m : SlotImage} (s : State) (hm : m.occupied = true) :
    (applySlot m s).twn.journal.recvSeq = s.twn.journal.recvSeq ∧ (applySlot m s).twn.appliedSeq = s.twn.appliedSeq
      ∧ (∃ y, (applySlot m s).keys.slots.get? m.index = some y ∧ IsMirrorOf m y)
      ∧ ∀ j, j ≠ m.index → (applySlot m s).keys.slots.get? j = s.keys.slots.get? j := by
  obtain ⟨r, y, w, u, z, hy, heq⟩ := applySlot_eq s hm
  obtain ⟨htwn, hslots⟩ := slotCleared_frame m.index s
  have hkeeps := writeRecord_received r (slotCleared m.index s)
  rw [heq]
  generalize slotCleared m.index s = c at *
  generalize writeRecord r c = v at *
  refine ⟨hkeeps.recvSeq.trans (by rw [htwn]), hkeeps.appliedSeq.trans (by rw [htwn]), ⟨y, Tab.get?_put_same _ _ _, hy⟩, fun j hj => ?_⟩
  dsimp only
  rw [Tab.get?_put_other _ _ hj.symm, hkeeps.slots, hslots, Tab.get?_del, if_neg hj.symm]

/-! ### Heartbeats (R407, R408) -/

/-- What a heartbeat has told of the peer. -/
structure KeepsPeer (s t : State) : Prop where
  fctrRx : t.twn.fctrRx = s.twn.fctrRx
  peerState : t.twn.peerState = s.twn.peerState
  peerCurtain : t.twn.peerCurtain = s.twn.peerCurtain
  ackedSeq : t.keys.ackedSeq = s.keys.ackedSeq

theorem keepsPeer_refl (s : State) : KeepsPeer s s := ⟨rfl, rfl, rfl, rfl⟩

theorem keepsPeer_trans {s t u : State} (h : KeepsPeer s t) (g : KeepsPeer t u) : KeepsPeer s u :=
  ⟨g.fctrRx.trans h.fctrRx, g.peerState.trans h.peerState, g.peerCurtain.trans h.peerCurtain, g.ackedSeq.trans h.ackedSeq⟩

theorem becomePresent_peer (s : State) : KeepsPeer s (becomePresent s) ∧ (becomePresent s).twn.state = .present := by
  unfold becomePresent
  exact ⟨⟨by simp, by simp, by simp, by simp⟩, by simp⟩

theorem finishAsker_peer (s : State) : KeepsPeer s (finishAsker s) := by
  unfold finishAsker
  split
  · exact keepsPeer_refl s
  · exact ⟨rfl, rfl, rfl, rfl⟩

theorem progress_peer {s : State} (hy : s.twn.yielding = []) : KeepsPeer s (progress s) := by
  have hyields : finishYields s = s := by rw [finishYields, hy]; rfl
  unfold progress
  dsimp only
  rw [hyields]
  split
  · exact keepsPeer_refl s
  · split
    · exact keepsPeer_trans (finishAsker_peer s) (becomePresent_peer _).1
    · split
      · exact (becomePresent_peer s).1
      · exact keepsPeer_refl s

theorem progress_presents {s : State} (hy : s.twn.yielding = []) (hacked : allAcked s = true) (hstate : s.twn.state = .resending)
    (hrestore : restoring s = false) : (progress s).twn.state = .present := by
  have hyields : finishYields s = s := by rw [finishYields, hy]; rfl
  unfold progress
  dsimp only
  rw [hyields, if_neg (by simp [hacked]), if_neg (by simp [hstate]), if_pos (by simp [hstate, hrestore])]
  exact (becomePresent_peer s).2

/-- The link as a heartbeat has told of the peer. -/
def peerTold (h : Heartbeat) (s : State) : State :=
  { s with twn := { s.twn with peerState := h.lcState, peerCurtain := h.curtainDown,
                               journal := s.twn.journal.acked h.ackJournal, checkpoint := s.twn.checkpoint.acked h.ackCheckpoint } }

theorem ackRecords_frame (n : Nat) (s : State) : ∃ a l p f c, ackRecords n s = { s with
      keys := { s.keys with ackedSeq := a, log := l }, twn := { s.twn with peerApplied := p }, free := f,
      glb := { s.glb with counters := c } } ∧ (s.keys.ackedSeq < n → n ≤ s.keys.seq → a = n) := by
  unfold ackRecords
  split
  · next h => exact ⟨_, _, _, _, _, rfl, fun h1 h2 => absurd h (by omega)⟩
  · exact ⟨_, _, _, _, _, rfl, fun _ _ => rfl⟩

/-- The frames that go out behind the acknowledgements of a heartbeat, before what they complete. -/
def beatPumped (h : Heartbeat) (s : State) : State := pumpCheckpoint (pumpJournal (ackRecords h.appliedSeq (peerTold h s)))

theorem takeHeartbeat_eq (h : Heartbeat) (s : State) : takeHeartbeat h s = progress (beatPumped h s) := rfl

/-- What holds behind the acknowledgements. -/
structure Pumped (h : Heartbeat) (s t : State) : Prop where
  fctrRx : t.twn.fctrRx = s.twn.fctrRx
  peerState : t.twn.peerState = h.lcState
  peerCurtain : t.twn.peerCurtain = h.curtainDown
  ackedSeq : s.keys.ackedSeq < h.appliedSeq → h.appliedSeq ≤ s.keys.seq → t.keys.ackedSeq = h.appliedSeq
  yielding : t.twn.yielding = s.twn.yielding
  state : t.twn.state = s.twn.state
  restoring : restoring t = restoring s
  acked : s.twn.journalQueue = [] → (s.twn.journal.acked h.ackJournal).unacked = 0 → allAcked t = true

theorem beatPumped_pumped (h : Heartbeat) (s : State) : Pumped h s (beatPumped h s) := by
  obtain ⟨a, l, p, f, c, hacks, ha⟩ := ackRecords_frame h.appliedSeq (peerTold h s)
  obtain ⟨n, w, c', hjournal, hn⟩ := pumpJournal_frame (ackRecords h.appliedSeq (peerTold h s))
  obtain ⟨q, n', k, w', c'', hcheck⟩ := pumpCheckpoint_frame (pumpJournal (ackRecords h.appliedSeq (peerTold h s)))
  unfold beatPumped
  rw [hcheck, hjournal]
  rw [hacks] at hn ⊢
  refine ⟨rfl, rfl, rfl, ha, rfl, rfl, rfl, fun hq hacked => ?_⟩
  have hzero : n = 0 := by
    have hnil : ((peerTold h s).twn.journalQueue) = [] := hq
    simp only [hnil, List.length_nil, Nat.le_zero] at hn
    exact hn
  have hjq : (peerTold h s).twn.journalQueue = [] := hq
  have hju : (peerTold h s).twn.journal.unacked = 0 := hacked
  simp [allAcked, hjq, hju, hzero]

/-! ### The obligation -/

section
variable {s : State} {f : Frame} (hses : s.twn.session = true) (hup : s.twn.linkUp = true) (hbad : frameBad f s = false)
include hses hup hbad

theorem journalFrame_late {m : JournalMessage} (h : f.cseq ≠ s.twn.journal.recvSeq) :
    LeadsTo (.journalFrame f m) s (frameTaken f s) :=
  leadsTo_of_run (f := onFrame f (takeJournal f m)) rfl ((onFrame_taken hses hup _ hbad).trans (takeJournal_late m h)) rfl rfl

theorem checkpointFrame_late {m : CheckpointMessage} (h : f.cseq ≠ s.twn.checkpoint.recvSeq) :
    LeadsTo (.checkpointFrame f m) s (frameTaken f s) :=
  leadsTo_of_run (f := onFrame f (takeCheckpoint f m)) rfl ((onFrame_taken hses hup _ hbad).trans (takeCheckpoint_late m h)) rfl rfl

/-- A record that was applied before changes nothing again (R416). -/
theorem journalFrame_again {q : Nat} {m : SlotImage} (hsh : sharing s = true) (hseq : f.cseq = s.twn.journal.recvSeq) (hq : q ≠ 0)
    (h : q ≤ s.twn.appliedSeq) : LeadsTo (.journalFrame f (.slotCommit q m)) s (journalTaken (frameTaken f s)) := by
  refine leadsTo_of_run (f := onFrame f (takeJournal f (.slotCommit q m))) rfl ((onFrame_taken hses hup _ hbad).trans ?_) rfl rfl
  refine (takeJournal_in_turn (s := frameTaken f s) _ hsh hseq).trans (if_pos ?_)
  rw [alreadyApplied_slotCommit]
  exact Bool.and_eq_true_iff.2 ⟨by simp [hq], decide_eq_true h⟩

/-- A slot commit in its turn makes its mirror slot (R406). -/
theorem journalFrame_mirrors {q : Nat} {m : SlotImage} (hsh : sharing s = true) (hseq : f.cseq = s.twn.journal.recvSeq)
    (hm : m.occupied = true) (h : s.twn.appliedSeq < q) :
    ∃ t y, exec (.journalFrame f (.slotCommit q m)) s = .next t ∧ t.twn.appliedSeq = q
      ∧ t.twn.journal.recvSeq = s.twn.journal.recvSeq + 1 ∧ t.keys.slots.get? m.index = some y ∧ IsMirrorOf m y
      ∧ ∀ j, j ≠ m.index → t.keys.slots.get? j = s.keys.slots.get? j := by
  have hnew : ¬ alreadyApplied (frameTaken f s) (.slotCommit q m) = true := by
    rw [alreadyApplied_slotCommit]
    simp [frameTaken, Nat.not_le.2 h]
  obtain ⟨hrecv, happlied, ⟨y, hy, hmirror⟩, hother⟩ := applySlot_mirrors (journalTaken (frameTaken f s)) hm
  obtain ⟨t, ht, hv⟩ := views_of_run (i := .journalFrame f (.slotCommit q m)) (f := onFrame f (takeJournal f (.slotCommit q m))) rfl
    ((onFrame_taken hses hup _ hbad).trans ((takeJournal_in_turn (s := frameTaken f s) _ hsh hseq).trans (if_neg hnew)))
  have happly : applyMessage (.slotCommit q m) (journalTaken (frameTaken f s))
      = (let u := applySlot m (journalTaken (frameTaken f s))
         { u with twn := { u.twn with appliedSeq := Nat.max u.twn.appliedSeq q } }) := rfl
  rw [happly] at hv
  generalize applySlot m (journalTaken (frameTaken f s)) = u at *
  have htwn := views_twn hv
  have hkeys := views_keys hv
  have hmax : Nat.max u.twn.appliedSeq q = q := by
    rw [happlied]
    exact Nat.max_eq_right (Nat.le_of_lt h)
  exact ⟨t, y, ht, Eq.trans (congrArg Twn.appliedSeq htwn :) hmax, Eq.trans (congrArg (fun w => w.journal.recvSeq) htwn :) hrecv,
    Eq.trans (congrArg (fun w => w.slots.get? m.index) hkeys :) hy, hmirror,
    fun j hj => Eq.trans (congrArg (fun w => w.slots.get? j) hkeys :) (hother j hj)⟩

theorem checkpointFrame_keeps (hsh : sharing s = true) (hseq : f.cseq = s.twn.checkpoint.recvSeq) (e : Nat) (c : List (Nat × Nat)) :
    ∃ t, exec (.checkpointFrame f (.snapshot e c)) s = .next t ∧ t.twn.snapshot = some (e, c)
      ∧ t.twn.checkpoint.recvSeq = s.twn.checkpoint.recvSeq + 1 := by
  have htake : takeCheckpoint f (.snapshot e c) (frameTaken f s) = _ :=
    if_neg (by simp [show sharing (frameTaken f s) = true from hsh, show f.cseq = (frameTaken f s).twn.checkpoint.recvSeq from hseq])
  obtain ⟨t, ht, hv⟩ := views_of_run (i := .checkpointFrame f (.snapshot e c)) (f := onFrame f (takeCheckpoint f (.snapshot e c))) rfl
    ((onFrame_taken hses hup _ hbad).trans htake)
  have htwn := views_twn hv
  exact ⟨t, ht, (congrArg Twn.snapshot htwn :), (congrArg (fun w => w.checkpoint.recvSeq) htwn :)⟩

/-- A heartbeat tells of the peer, and its acknowledgements complete a rejoin (R407). -/
theorem heartbeat_tells {h : Heartbeat} {held : List (Nat × Nat)} (hy : s.twn.yielding = []) :
    ∃ t, exec (.heartbeat f ⟨h, held⟩) s = .next t ∧ t.twn.fctrRx = f.fctr
      ∧ t.twn.peerState = h.lcState ∧ t.twn.peerCurtain = h.curtainDown
      ∧ (s.keys.ackedSeq < h.appliedSeq → h.appliedSeq ≤ s.keys.seq → t.keys.ackedSeq = h.appliedSeq)
      ∧ (s.twn.state = .resending → restoring s = false → s.twn.journalQueue = [] →
        (s.twn.journal.acked h.ackJournal).unacked = 0 → t.twn.state = .present) := by
  obtain ⟨t, ht, hv⟩ := views_of_run (i := .heartbeat f ⟨h, held⟩)
    (f := onFrame f fun u => releaseHolds held (takeHeartbeat h u)) rfl (onFrame_taken hses hup _ hbad)
  have hp := beatPumped_pumped h (frameTaken f s)
  have hpeer := progress_peer (s := beatPumped h (frameTaken f s)) (hp.yielding.trans hy)
  have hholds := releaseHolds_keepsTwin held (takeHeartbeat h (frameTaken f s))
  have hpresents := fun ha hs hr => progress_presents (s := beatPumped h (frameTaken f s)) (hp.yielding.trans hy) ha hs hr
  rw [takeHeartbeat_eq] at hholds hv
  generalize beatPumped h (frameTaken f s) = u at *
  generalize progress u = v at *
  generalize releaseHolds held v = w at *
  have htwn : t.twn = v.twn := Eq.trans (views_twn hv :) hholds.twn
  have hacked : t.keys.ackedSeq = v.keys.ackedSeq := Eq.trans (congrArg Keys.ackedSeq (views_keys hv) :) hholds.ackedSeq
  exact ⟨t, ht, (congrArg Twn.fctrRx htwn).trans (hpeer.fctrRx.trans hp.fctrRx),
    (congrArg Twn.peerState htwn).trans (hpeer.peerState.trans hp.peerState),
    (congrArg Twn.peerCurtain htwn).trans (hpeer.peerCurtain.trans hp.peerCurtain),
    fun h1 h2 => hacked.trans (hpeer.ackedSeq.trans (hp.ackedSeq h1 h2)),
    fun h1 h2 h3 h4 => (congrArg Twn.state htwn).trans (hpresents (hp.acked h3 h4) (hp.state.trans h1) (hp.restoring.trans h2))⟩

end

/-- Settles O56: the checks by `takeFrame`, the messages by what they apply, the heartbeat by `progress`. -/
theorem framesInTurn : Obligations.FramesInTurn := by
  unfold Obligations.FramesInTurn
  intro s f
  dsimp only
  refine ⟨fun m => frame_checked (g := takeJournal f m) rfl, fun m => frame_checked (g := takeCheckpoint f m) rfl,
    fun h => frame_checked (g := fun u => releaseHolds h.held (takeHeartbeat h.payload u)) rfl,
    fun hses hup hbad => ⟨fun m hm => ?lateJournal, fun m hm => ?lateCheckpoint, fun hsh hseq q m hm => ⟨fun hq h => ?again, fun h => ?mirrors⟩,
      fun hsh hseq e c => checkpointFrame_keeps hses hup hbad hsh hseq e c, fun h held hy => heartbeat_tells hses hup hbad hy⟩⟩
  case lateJournal =>
    obtain ⟨t, ht, hv⟩ := journalFrame_late hses hup hbad (m := m) hm
    have htwn := views_twn hv
    exact ⟨t, ht, (congrArg Twn.fctrRx htwn :), (congrArg Twn.journal htwn :), (views_keys hv :), (views_ten hv :), (views_seats hv :)⟩
  case lateCheckpoint =>
    obtain ⟨t, ht, hv⟩ := checkpointFrame_late hses hup hbad (m := m) hm
    have htwn := views_twn hv
    exact ⟨t, ht, (congrArg Twn.fctrRx htwn :), (congrArg Twn.checkpoint htwn :), (congrArg Twn.snapshot htwn :), (congrArg Twn.held htwn :)⟩
  case again =>
    obtain ⟨t, ht, hv⟩ := journalFrame_again hses hup hbad (m := m) hsh hseq hq h
    exact ⟨t, ht, (views_keys hv :), (congrArg (fun w => w.journal.recvSeq) (views_twn hv) :)⟩
  case mirrors =>
    obtain ⟨t, y, ht, happlied, hrecv, hy, ⟨h1, h2, h3, h4, h5, h6, h7, h8, h9, h10⟩, hother⟩ :=
      journalFrame_mirrors hses hup hbad hsh hseq hm h
    exact ⟨t, y, ht, happlied, hrecv, hy, h1, h2, h3, h4, h5, h6, h7, h8, h9, h10, hother⟩

end Sys2Proof.Machine

/-! PROOF. The token bus: the rules of its operations, and how tokens are found, named, located and lost (O57): R422, R423, R425,
R426, R434. -/

namespace Sys2Proof.Machine

open Sys2Proof.Claims

/-! ### The slots of the bus -/

theorem tokAt_updTok_same {s : State} {i : Nat} (f : TokSlot → TokSlot) (h : i < s.tkb.slots.length) :
    tokAt (updTok i f s) i = f (tokAt s i) := by
  simp [tokAt, updTok, updAt, h]

theorem tokAt_updTok_other {s : State} {i j : Nat} (f : TokSlot → TokSlot) (h : j ≠ i) : tokAt (updTok i f s) j = tokAt s j := by
  simp only [tokAt, updTok, updAt, List.getElem?_mapIdx, if_neg h, Option.map_id']

theorem tokAt_of_slots {s t : State} (h : t.tkb.slots = s.tkb.slots) (i : Nat) : tokAt t i = tokAt s i := by
  simp only [tokAt, h]

@[simp] theorem updTok_length (i : Nat) (f : TokSlot → TokSlot) (s : State) :
    (updTok i f s).tkb.slots.length = s.tkb.slots.length := List.length_mapIdx

theorem tokAt_map {s t : State} {f : TokSlot → TokSlot} (h : t.tkb.slots = s.tkb.slots.map f) (i : Nat) :
    tokAt t i = f (tokAt s i) ∨ tokAt t i = TokSlot.first := by
  simp only [tokAt, h, List.getElem?_map]
  cases s.tkb.slots[i]? with
  | none => exact Or.inr rfl
  | some t => exact Or.inl rfl

theorem attachedSlot_lt {s : State} {i : Nat} (h : attachedSlot s = some i) : i < 8 := by
  unfold attachedSlot at h
  split at h
  · cases h
  · exact List.mem_range.1 (List.mem_of_find?_eq_some h)

/-! ### Frames and commands (R423) -/

/-- The frame is sent as the bus stands. -/
theorem sendFrame_sends (opc param : Nat) (s : State) :
    Emit.tkFrame (commandFrame opc s.tkb.tag param) ∈ (sendFrame opc param s).host :=
  List.mem_append_right _ (List.mem_singleton.2 rfl)

/-- A command on an idle bus is sent, and goes on with a valid reply. -/
theorem command_idle {s : State} {opc param : Nat} {r : BitVec 48} {k : Nat → State → State} (hruns : busRuns s = true)
    (hidle : s.tkb.bus = .idle) :
    command opc param r k s = if replyOk (commandFrame opc s.tkb.tag param) r then k (frameParam r) (setBus .idle (sendFrame opc param s))
      else resendCommand (sendFrame opc param s) := by
  unfold command
  rw [if_neg (by simp [hruns]), hidle]
  rfl

theorem command_replied {s : State} {opc param : Nat} {r : BitVec 48} {k : Nat → State → State} (hruns : busRuns s = true)
    (hidle : s.tkb.bus = .idle) (hr : replyOk (commandFrame opc s.tkb.tag param) r = true) :
    command opc param r k s = k (frameParam r) (setBus .idle (sendFrame opc param s)) :=
  (command_idle hruns hidle).trans (if_pos hr)

/-! ### FAULTY tokens (R434) -/

/-- A token that is marked FAULTY: its exchange is over, and nothing is attached or being named. -/
structure MarksFaulty (i : Nat) (s t : State) : Prop where
  state : (tokAt t i).state = .faulty
  attached : t.tkb.attached = none
  naming : t.tkb.naming = none
  bus : t.tkb.bus = .idle

theorem markFaulty_marks {i : Nat} (cause : Nat) {s : State} (h : i < s.tkb.slots.length) : MarksFaulty i s (markFaulty i cause s) := by
  have htok := tokAt_updTok_same (s := endExchange s) (fun t => { t with state := .faulty, asked := false }) h
  unfold markFaulty
  dsimp only
  refine ⟨?_, ?_, ?_, ?_⟩
  · rw [tokAt_of_slots (s := updTok i (fun t => { t with state := .faulty, asked := false }) (endExchange s)) (by rw [event_tkb]), htok]
  · rw [event_tkb]
  · rw [event_tkb]
  · rw [event_tkb]
    rfl

/-- The attached token is given up. -/
theorem giveUp_attached (cause : Nat) {s : State} {i : Nat} (hlen : s.tkb.slots.length = 8) (h : attachedSlot s = some i) :
    MarksFaulty i s (giveUp cause s) := by
  have hc : concernedSlot s = some i := by simp only [concernedSlot, h]
  have hi : i < (spend s).tkb.slots.length := by
    have := attachedSlot_lt h
    exact hlen ▸ this
  simp only [giveUp, hc]
  exact { markFaulty_marks cause hi with }

/-- Where a token waits to be identified, giving up marks one FAULTY: it, another that waits, or the attached one. -/
theorem giveUp_marks (cause : Nat) {s : State} {i : Nat} (hlen : s.tkb.slots.length = 8) (hi : i < 8)
    (hstate : (tokAt s i).state = .debouncing) : ∃ j, MarksFaulty j s (giveUp cause s) := by
  cases ha : attachedSlot s with
  | some j => exact ⟨j, giveUp_attached cause hlen ha⟩
  | none =>
    have hne : (List.range 8).filter (fun i => (tokAt s i).state = .debouncing) ≠ [] :=
      List.ne_nil_of_mem (List.mem_filter.2 ⟨List.mem_range.2 hi, decide_eq_true hstate⟩)
    obtain ⟨j, hj⟩ := pick_some (s := s) hne
    have hlt : j < 8 := List.mem_range.1 (List.mem_filter.1 (pick_mem hj)).1
    have hc : concernedSlot s = some j := by simp only [concernedSlot, ha, hj]
    have hm := markFaulty_marks (i := j) cause (s := spend s) (hlen ▸ hlt)
    simp only [giveUp, hc]
    exact ⟨j, { hm with }⟩

/-! ### Insertion and removal (R422, R432) -/

theorem insertToken_inserts {s : State} {i : Nat} (hruns : busRuns s = true) (hi : i < 8) (hp : (tokAt s i).present = false) :
    insertToken i s = (let u := updTok i (fun t => { t with present := true, state := .debouncing }) s
                       if s.tkb.bus = .idle then startArbitration u else u) := by
  rw [insertToken, if_neg (by simp [hruns, hi, hp])]
  rfl

/-- What is cut off with a removed token: other slots stay. -/
theorem cutTransaction_frame (i : Nat) (s : State) :
    (cutTransaction i s).tkb.slots.length = s.tkb.slots.length ∧ ∀ j, j ≠ i → tokAt (cutTransaction i s) j = tokAt s j := by
  have hwithdraw (id : BitVec 128) (u : State) : (withdraw id u).tkb.slots = u.tkb.slots := by
    unfold withdraw
    split <;> rfl
  have hend (seq : Option Bool) (u : State) (hu : u = bump Ctr.tkbIndeterminate 1
      (endExchange (updTok i (fun t => { t with lastWrite := 1, cutSeq := seq, cutId := t.id }) s))) :
      u.tkb.slots.length = s.tkb.slots.length ∧ ∀ j, j ≠ i → tokAt u j = tokAt s j := by
    subst hu
    exact ⟨updTok_length .., fun j hj => tokAt_updTok_other _ hj⟩
  unfold cutTransaction
  dsimp only
  split
  · next id _ =>
    obtain ⟨h1, h2⟩ := hend _ _ rfl
    refine ⟨?_, fun j hj => ?_⟩
    · rw [hwithdraw]
      exact h1
    · rw [tokAt_of_slots (hwithdraw id _)]
      exact h2 j hj
  · exact hend _ _ rfl

/-- The token's address is the one attached. -/
def removesAttached (i : Nat) (s : State) : Bool := (tokAt s i).addr != 0 && s.tkb.attached = some (tokAt s i).addr

/-- The bus as a removal leaves it, before the slot itself. -/
def removalCut (i : Nat) (s : State) : State :=
  let u := if removesAttached i s && inTransaction s then cutTransaction i s else s
  if removesAttached i s then { u with tkb := { u.tkb with attached := none } } else u

/-- A slot whose token has left. -/
def leftSlot (t : TokSlot) : TokSlot :=
  { t with state := .empty, present := false, id := none, addr := 0, mode := 0, fallback := false, nextNs := false, ifsc := 32,
           cert := none, asked := false }

theorem removeToken_removes {s : State} {i : Nat} (hruns : busRuns s = true) (hi : i < 8) (hp : (tokAt s i).present = true) :
    removeToken i s = updTok i leftSlot (removalCut i s) := by
  rw [removeToken, if_neg (by simp [hruns, hi, hp])]
  rfl

theorem removalCut_frame (i : Nat) (s : State) :
    (removalCut i s).tkb.slots.length = s.tkb.slots.length ∧ (∀ j, j ≠ i → tokAt (removalCut i s) j = tokAt s j)
      ∧ (removesAttached i s = true → (removalCut i s).tkb.attached = none) := by
  have hcut (c : Bool) : (if c then cutTransaction i s else s).tkb.slots.length = s.tkb.slots.length
      ∧ ∀ j, j ≠ i → tokAt (if c then cutTransaction i s else s) j = tokAt s j := by
    cases c
    · exact ⟨rfl, fun _ _ => rfl⟩
    · exact cutTransaction_frame i s
  obtain ⟨hlen, hother⟩ := hcut (removesAttached i s && inTransaction s)
  unfold removalCut
  dsimp only
  generalize (if (removesAttached i s && inTransaction s) = true then cutTransaction i s else s) = u at *
  split
  · exact ⟨hlen, hother, fun _ => rfl⟩
  · next h => exact ⟨hlen, hother, fun h' => absurd h' h⟩

/-! ### Location (R426) -/

/-- The window ends with one line: the token being named is bound to its slot. -/
theorem endLocate_binds {s : State} {i a : Nat} {id : BitVec 128} {b : Option Nat} (hn : s.tkb.naming = some (id, a))
    (hb : s.tkb.bus = .located b) (hi : i < 8) (hp : (tokAt s i).present = true) (hd : (tokAt s i).state = .debouncing) :
    endLocate [i] [] s = bindToken i id a (setBus .idle s) := by
  have hcond : i < 8 ∧ (tokAt (setBus .idle s) i).present = true ∧ (tokAt (setBus .idle s) i).state = .debouncing := ⟨hi, hp, hd⟩
  simp only [endLocate, hb, hn, List.foldl_nil, if_pos hcond]

theorem endLocate_fails {s : State} {a : Nat} {id : BitVec 128} {b : Option Nat} {l : List Nat} (hn : s.tkb.naming = some (id, a))
    (hb : s.tkb.bus = .located b) (hl : l.length ≠ 1) : endLocate l [] s = giveUp 1 (setBus .idle s) := by
  match l, hl with
  | [], _ => simp only [endLocate, hb, hn, List.foldl_nil]
  | _ :: _ :: _, _ => simp only [endLocate, hb, hn, List.foldl_nil]

/-! ### The reset of the bus (R423) -/

/-- What a reset of the bus leaves: no token is identified. -/
structure BusResets (s t : State) : Prop where
  attached : t.tkb.attached = none
  naming : t.tkb.naming = none
  bus : t.tkb.bus = .idle
  sends : Emit.tkFrame (commandFrame 0 s.tkb.tag 0x5A5A) ∈ t.host
  states : ∀ i, (tokAt t i).state ≠ .identified

theorem resetBus_resets (s : State) : BusResets s (resetBus s) := by
  refine ⟨rfl, rfl, rfl, sendFrame_sends 0 0x5A5A _, fun i => ?_⟩
  rcases tokAt_map (t := resetBus s) (s := s) rfl i with h | h
  · rw [h]
    split
    · exact nofun
    · next hne => exact hne
  · rw [h]
    decide

/-- The effect of BUS_RESET. -/
def busReset (s : State) : State := if busRuns s then resetBus s else s

/-- The effect of ATTACH. -/
def attachToken (addr : Nat) (reply : BitVec 48) (s : State) : State :=
  let a := addr % 65536
  if a = 0 then (if busRuns s then setBus .idle (sendFrame 3 0 { s with tkb := { s.tkb with attached := none } }) else s)
  else if faultyAddr s a then s
  else command 3 a reply (fun _ s => attachTo a s) s

theorem attachTo_attaches (a : Nat) (s : State) :
    (attachTo a s).tkb.attached = some a ∧ (attachTo a s).tkb.bus = s.tkb.bus := by
  have hnew (c : Bool) (u : State) : (if c then { u with tkb := { u.tkb with recvNs := false } } else u).tkb.attached = u.tkb.attached
      ∧ (if c then { u with tkb := { u.tkb with recvNs := false } } else u).tkb.bus = u.tkb.bus := by
    cases c <;> exact ⟨rfl, rfl⟩
  exact hnew _ { s with tkb := { s.tkb with attached := some a } }

/-! ### The obligation -/

/-- Settles O57: each row of the bus by its rule. -/
theorem tokensAreIdentified : Obligations.TokensAreIdentified := by
  unfold Obligations.TokensAreIdentified
  intro s hruns hlen
  refine ⟨fun i hi hp => ?inserted, fun v hb => ?arbitrated, fun id r hw hb => ?assigned,
    fun a r h0 h1 hb => ⟨fun hf => ?ignored, fun hf hr => ?attached⟩, fun id a hn ha => ?locates,
    fun id a b hn hb i hi hp hd => ⟨?bound, fun l hl => ?lost⟩, fun i hi hp => ?removed, ?reset⟩
  case inserted =>
    have htok := tokAt_updTok_same (s := s) (fun t => { t with present := true, state := .debouncing }) (hlen ▸ hi)
    have hins := insertToken_inserts hruns hi hp
    by_cases hb : s.tkb.bus = .idle
    · obtain ⟨t, ht, hv⟩ := follows_of_run (i := .tokenInserted i) (f := insertToken i) rfl (hins.trans (if_pos hb))
      have htkb := views_tkb hv.only
      have hslot : tokAt t i = _ := (tokAt_of_slots (congrArg Tkb.slots htkb :) i).trans htok
      exact ⟨t, ht, by rw [hslot], by rw [hslot], fun _ => ⟨(congrArg Tkb.bus htkb :), follows_sends hv (sendFrame_sends 1 0 _)⟩⟩
    · obtain ⟨t, ht, hv⟩ := views_of_run (i := .tokenInserted i) (f := insertToken i) rfl (hins.trans (if_neg hb))
      have hslot : tokAt t i = _ := (tokAt_of_slots (congrArg Tkb.slots (views_tkb hv) :) i).trans htok
      exact ⟨t, ht, by rw [hslot], by rw [hslot], fun h => absurd h hb⟩
  case arbitrated =>
    refine leadsTo_of_run (f := takeRound v) rfl ?_ rfl rfl
    rw [takeRound, if_neg (by simp [hruns]), if_pos hb]
    rfl
  case assigned =>
    intro a hr hparam
    obtain ⟨t, ht, hv⟩ := views_of_run (i := .assign r) (f := assignAddr r) (s := s)
      (u := { setBus .idle (sendFrame 2 a s) with tkb := { (setBus .idle (sendFrame 2 a s)).tkb with
        naming := some (id, a), winner := none, nextAddr := (a + 1) % 65536 } }) rfl (by
        simp only [assignAddr, hw]
        exact (command_replied hruns hb hr).trans (if_pos hparam))
    have htkb := views_tkb hv
    exact ⟨t, ht, (congrArg Tkb.naming htkb :), (congrArg Tkb.winner htkb :), (congrArg Tkb.slots htkb :)⟩
  case ignored =>
    refine leadsTo_of_run (f := attachToken a r) rfl ?_ rfl rfl
    rw [attachToken, Nat.mod_eq_of_lt h1, if_neg (Nat.ne_of_gt h0), if_pos hf]
  case attached =>
    have hu : attachToken a r s = attachTo a (setBus .idle (sendFrame 3 a s)) := by
      rw [attachToken, Nat.mod_eq_of_lt h1, if_neg (Nat.ne_of_gt h0), if_neg (by simp [hf])]
      exact command_replied hruns hb hr
    obtain ⟨hat, hbus⟩ := attachTo_attaches a (setBus .idle (sendFrame 3 a s))
    obtain ⟨t, ht, hv⟩ := views_of_run (i := .attach a r) (f := attachToken a r) rfl hu
    have htkb := views_tkb hv
    exact ⟨t, ht, Eq.trans (congrArg Tkb.attached htkb :) hat, Eq.trans (congrArg Tkb.bus htkb :) hbus⟩
  case locates =>
    have hu : startLocate s = setBus (.located none) (sendFrame 9 0 s) := by
      simp only [startLocate, hn]
      exact if_pos (by simp [hruns, ha])
    obtain ⟨t, ht, hv⟩ := follows_of_run (i := .locate) (f := startLocate) rfl hu
    exact ⟨t, ht, (congrArg Tkb.bus (views_tkb hv.only) :), follows_sends hv (sendFrame_sends 9 0 s)⟩
  case bound =>
    obtain ⟨t, ht, hv⟩ := views_of_run (i := .locateWindowEnd [i] []) (f := endLocate [i] []) rfl (endLocate_binds hn hb hi hp hd)
    have htkb := views_tkb hv
    have hslot (j : Nat) := tokAt_of_slots (congrArg Tkb.slots htkb :) j
    have htok := tokAt_updTok_same (s := setBus .idle s)
      (fun t => { t with state := .identified, id := some id, addr := a, nextNs := false, ifsc := 32 }) (hlen ▸ hi)
    have hi' : tokAt t i = _ := (hslot i).trans htok
    exact ⟨t, ht, by rw [hi'], by rw [hi'], by rw [hi'], (congrArg Tkb.naming htkb :),
      fun j hj => (hslot j).trans (tokAt_updTok_other (s := setBus .idle s) _ hj)⟩
  case lost =>
    obtain ⟨j, hm⟩ := giveUp_marks 1 (s := setBus .idle s) hlen hi hd
    obtain ⟨t, ht, hv⟩ := views_of_run (i := .locateWindowEnd l []) (f := endLocate l []) rfl (endLocate_fails hn hb hl)
    generalize giveUp 1 (setBus .idle s) = u at *
    have htkb : t.tkb = u.tkb := (views_tkb hv :)
    refine ⟨t, j, ht, ?_, (congrArg Tkb.naming htkb).trans hm.naming, (congrArg Tkb.attached htkb).trans hm.attached⟩
    rw [tokAt_of_slots (congrArg Tkb.slots htkb)]
    exact hm.state
  case removed =>
    obtain ⟨hcut, hother, hgone⟩ := removalCut_frame i s
    obtain ⟨t, ht, hv⟩ := views_of_run (i := .tokenRemoved i) (f := removeToken i) rfl (removeToken_removes hruns hi hp)
    generalize removalCut i s = u at *
    have htkb := views_tkb hv
    have hslot (j : Nat) := tokAt_of_slots (congrArg Tkb.slots htkb :) j
    have hi' : tokAt t i = leftSlot (tokAt u i) := (hslot i).trans (tokAt_updTok_same leftSlot (by rw [hcut, hlen]; exact hi))
    refine ⟨t, ht, by rw [hi']; rfl, by rw [hi']; rfl, by rw [hi']; rfl,
      fun j hj => (hslot j).trans ((tokAt_updTok_other leftSlot hj).trans (hother j hj)), fun h0 ha => ?_⟩
    exact Eq.trans (congrArg Tkb.attached htkb :) (hgone (by simp [removesAttached, h0, ha]))
  case reset =>
    have hr := resetBus_resets s
    obtain ⟨t, ht, hv⟩ := follows_of_run (i := .busReset) (f := busReset) (s := s) rfl (if_pos hruns)
    generalize resetBus s = u at *
    have htkb : t.tkb = u.tkb := (views_tkb hv.only :)
    refine ⟨t, ht, (congrArg Tkb.attached htkb).trans hr.attached, (congrArg Tkb.naming htkb).trans hr.naming,
      (congrArg Tkb.bus htkb).trans hr.bus, follows_sends hv hr.sends, fun i => ?_⟩
    rw [tokAt_of_slots (congrArg Tkb.slots htkb)]
    exact hr.states i

end Sys2Proof.Machine

/-! PROOF. Commands to tokens, their repeats, and MODE (O58): R423, R427, R432. -/

namespace Sys2Proof.Machine

open Sys2Proof.Claims

/-! ### Repeats (R423) -/

/-- The command that is sent again behind `f`. -/
def againFrame (f : BitVec 48) (s : State) : BitVec 48 := commandFrame (frameOpc f) s.tkb.tag (frameParam f)

theorem resendCommand_again {s : State} {f : BitVec 48} {n : Nat} (hb : s.tkb.bus = .await f n) (hn : n < 3) :
    resendCommand s = bump Ctr.tkbRetries 1 (emit (.tkFrame (againFrame f s))
      { s with tkb := { s.tkb with tag := (s.tkb.tag + 1) % 8, bus := .await (againFrame f s) (n + 1) } }) := by
  simp only [resendCommand, hb, if_pos hn]
  rfl

theorem resendCommand_last {s : State} {f : BitVec 48} {n : Nat} (hb : s.tkb.bus = .await f n) (hn : 3 ≤ n) :
    resendCommand s = giveUp 0 s := by
  simp only [resendCommand, hb, if_neg (Nat.not_lt.2 hn)]

/-- What of a slot a change leaves, it leaves of every slot. -/
theorem updTok_keeps {α : Type} (g : TokSlot → α) {f : TokSlot → TokSlot} (h : ∀ t, g (f t) = g t) (i j : Nat) (s : State) :
    g (tokAt (updTok i f s) j) = g (tokAt s j) := by
  simp only [tokAt, updTok, updAt, List.getElem?_mapIdx]
  cases s.tkb.slots[j]? with
  | none => rfl
  | some t =>
    simp only [Option.map_some, Option.getD_some]
    split
    · exact h t
    · rfl

/-! ### Write counts and mode reports (R427, R432) -/

/-- Of a slot, a write count that was read changes the count, and what became of an interrupted transaction. -/
theorem takeWriteCount_counts {s : State} {i : Nat} (n : Nat) (hi : i < s.tkb.slots.length) :
    (tokAt (takeWriteCount i n s) i).writeCount = n ∧ (tokAt (takeWriteCount i n s) i).mode = (tokAt s i).mode
      ∧ (takeWriteCount i n s).tkb.bus = s.tkb.bus ∧ (takeWriteCount i n s).tkb.slots.length = s.tkb.slots.length := by
  unfold takeWriteCount
  dsimp only
  generalize hf : (fun t : TokSlot => if t.cutSeq.isSome ∧ t.cutId = (tokAt s i).id then
      { t with lastWrite := if t.writeCount < n then 2 else 3, cutSeq := none, cutId := none } else t) = f
  have hmode (t : TokSlot) : (f t).mode = t.mode := by
    subst hf
    dsimp only
    split <;> rfl
  have hlen : i < (s.tkb.slots.map f).length := by rwa [List.length_map]
  have htok := tokAt_updTok_same (s := { s with tkb := { s.tkb with slots := s.tkb.slots.map f } })
    (fun t => { t with writeCount := n }) hlen
  have hmap : tokAt { s with tkb := { s.tkb with slots := s.tkb.slots.map f } } i = f (tokAt s i) := by
    simp [tokAt, hi]
  refine ⟨by rw [htok], ?_, rfl, by rw [updTok_length, List.length_map]⟩
  rw [htok, hmap]
  exact hmode _

/-- A token that is asked for its approval keeps its mode and its count. -/
theorem askToken_keeps (i : Nat) (s : State) :
    (∀ j, (tokAt (askToken i s) j).mode = (tokAt s j).mode ∧ (tokAt (askToken i s) j).writeCount = (tokAt s j).writeCount)
      ∧ (askToken i s).tkb.bus = s.tkb.bus := by
  have hask (c : Bool) : (∀ j, (tokAt (if c then updTok i (fun t => { t with asked := true }) s else s) j).mode = (tokAt s j).mode
      ∧ (tokAt (if c then updTok i (fun t => { t with asked := true }) s else s) j).writeCount = (tokAt s j).writeCount)
      ∧ (if c then updTok i (fun t => { t with asked := true }) s else s).tkb.bus = s.tkb.bus := by
    cases c
    · exact ⟨fun _ => ⟨rfl, rfl⟩, rfl⟩
    · exact ⟨fun j => ⟨updTok_keeps TokSlot.mode (f := fun t => { t with asked := true }) (fun _ => rfl) i j s,
        updTok_keeps TokSlot.writeCount (f := fun t => { t with asked := true }) (fun _ => rfl) i j s⟩, rfl⟩
  unfold askToken
  split
  · exact hask _
  · exact ⟨fun _ => ⟨rfl, rfl⟩, rfl⟩

/-- The bus while a mode report is read. -/
def reportAsked (m : Nat) (s : State) : State := setBus (.modeReport m) (sendFrame 5 0 s)

section
variable {s : State} {i m : Nat} {d : Bytes} (hb : s.tkb.bus = .modeReport m) (ha : attachedSlot s = some i)
include hb ha

theorem takeReport_bad (h : phaseBytes d = none ∨ ∃ r, phaseBytes d = some r ∧ reportOk s i m r = false) :
    takeReport d s = updTok i (fun t => { t with fallback := true }) (reportAsked m s) := by
  rcases h with h | ⟨r, h, hr⟩
  · simp only [takeReport, hb, ha, h]
    rfl
  · have hr' : reportOk (setBus (.modeReport m) (sendFrame 5 0 s)) i m r = false := hr
    simp only [takeReport, hb, ha, h, hr', Bool.false_eq_true, if_false]
    rfl

theorem takeReport_good {r : Bytes} (h : phaseBytes d = some r) (hr : reportOk s i m r = true) :
    takeReport d s = askToken i (takeWriteCount i (leAt r 20 4) (setBus .idle (updTok i
      (fun t => { t with mode := m, ifsc := Nat.max 16 (Nat.min 254 (leAt r 3 1)) }) (reportAsked m s)))) := by
  have hr' : reportOk (setBus (.modeReport m) (sendFrame 5 0 s)) i m r = true := hr
  simp only [takeReport, hb, ha, h, hr', if_true]
  rfl

end

/-- A good report puts its mode in force. -/
theorem takeReport_mode {s : State} {i m : Nat} {d r : Bytes} (hlen : s.tkb.slots.length = 8) (hb : s.tkb.bus = .modeReport m)
    (ha : attachedSlot s = some i) (h : phaseBytes d = some r) (hr : reportOk s i m r = true) :
    (tokAt (takeReport d s) i).mode = m ∧ (tokAt (takeReport d s) i).writeCount = leAt r 20 4 ∧ (takeReport d s).tkb.bus = .idle := by
  have hi : i < (reportAsked m s).tkb.slots.length := by
    have := attachedSlot_lt ha
    exact hlen ▸ this
  have htok := tokAt_updTok_same (s := reportAsked m s)
    (fun t => { t with mode := m, ifsc := Nat.max 16 (Nat.min 254 (leAt r 3 1)) }) hi
  rw [takeReport_good hb ha h hr]
  generalize hu : updTok i (fun t => { t with mode := m, ifsc := Nat.max 16 (Nat.min 254 (leAt r 3 1)) }) (reportAsked m s) = u at *
  have hlenu : i < (setBus .idle u).tkb.slots.length := by
    subst hu
    rw [← updTok_length i] at hi
    exact hi
  obtain ⟨hcount, hmode, hbus, -⟩ := takeWriteCount_counts (s := setBus .idle u) (leAt r 20 4) hlenu
  generalize takeWriteCount i (leAt r 20 4) (setBus .idle u) = v at *
  obtain ⟨hask, hbus'⟩ := askToken_keeps i v
  refine ⟨(hask i).1.trans (hmode.trans ?_), (hask i).2.trans hcount, hbus'.trans hbus⟩
  exact congrArg TokSlot.mode htok

/-! ### The obligation -/

/-- The effect of MODE. -/
def sendMode (reply : BitVec 48) (s : State) : State :=
  match attachedSlot s with
  | none => s
  | some i =>
    if (tokAt s i).fallback then s
    else
      let m := wantedMode s
      command 4 m reply (fun _ s => setBus (.modeReport m) { s with tkb := { s.tkb with modeAsked := m } }) s

/-- The effect of TOKEN_QUERY. -/
def queryToken (count : Bool) (reply : BitVec 48) (s : State) : State :=
  match attachedSlot s with
  | none => s
  | some i => command 8 (bnat count) reply (fun p s => if count then takeWriteCount i p s else s) s

/-- The effect of MODE_FALLBACK_RESTART. -/
def fallbackRestart (s : State) : State :=
  match s.tkb.bus with
  | .modeReport _ => if s.tkb.slots.any fun t => t.fallback && t.mode = 0 then startArbitration (resetBus s) else s
  | _ => s

theorem sendMode_asks {s : State} {i : Nat} (r : BitVec 48) (ha : attachedSlot s = some i) (hf : (tokAt s i).fallback = false) :
    sendMode r s = command 4 (wantedMode s) r
      (fun _ u => setBus (.modeReport (wantedMode s)) { u with tkb := { u.tkb with modeAsked := wantedMode s } }) s := by
  simp only [sendMode, ha, hf, Bool.false_eq_true, if_false]

theorem sendMode_fallback {s : State} {i : Nat} (r : BitVec 48) (ha : attachedSlot s = some i) (hf : (tokAt s i).fallback = true) :
    sendMode r s = s := by
  simp only [sendMode, ha, hf, if_true]

theorem queryToken_asks {s : State} {i : Nat} (count : Bool) (r : BitVec 48) (ha : attachedSlot s = some i) :
    queryToken count r s = command 8 (bnat count) r (fun p u => if count then takeWriteCount i p u else u) s := by
  simp only [queryToken, ha]

theorem fallbackRestart_restarts {s : State} {m : Nat} (hb : s.tkb.bus = .modeReport m)
    (h : (s.tkb.slots.any fun t => t.fallback && t.mode = 0) = true) : fallbackRestart s = startArbitration (resetBus s) := by
  simp only [fallbackRestart, hb]
  exact if_pos h

/-- MODE without a valid reply is sent again. -/
theorem mode_again {s : State} {i : Nat} {r : BitVec 48} (hruns : busRuns s = true) (ha : attachedSlot s = some i)
    (hb : s.tkb.bus = .idle) (hf : (tokAt s i).fallback = false) (hr : replyOk (commandFrame 4 s.tkb.tag (wantedMode s)) r = false) :
    ∃ t g, exec (.mode r) s = .next t ∧ t.tkb.bus = .await g 1 ∧ t.tkb.slots = s.tkb.slots := by
  have hu := (sendMode_asks r ha hf).trans ((command_idle hruns hb).trans (if_neg (by simp [hr])))
  have hbus : (sendFrame 4 (wantedMode s) s).tkb.bus = .await (commandFrame 4 s.tkb.tag (wantedMode s)) 0 := rfl
  have hslots : (sendFrame 4 (wantedMode s) s).tkb.slots = s.tkb.slots := rfl
  generalize sendFrame 4 (wantedMode s) s = v at *
  generalize commandFrame 4 s.tkb.tag (wantedMode s) = f at *
  obtain ⟨t, ht, hv⟩ := views_of_run (i := .mode r) (f := sendMode r) rfl (hu.trans (resendCommand_again hbus (by decide)))
  have htkb := views_tkb hv
  exact ⟨t, againFrame f v, ht, (congrArg Tkb.bus htkb :), Eq.trans (congrArg Tkb.slots htkb :) hslots⟩

/-- An arbitration changes of the bus what carries its frame. -/
theorem startArbitration_tkb (u : State) : (startArbitration u).tkb.bus = .arbitrating
    ∧ (startArbitration u).tkb.attached = u.tkb.attached ∧ (startArbitration u).tkb.slots = u.tkb.slots := ⟨rfl, rfl, rfl⟩

/-- The restart resets the bus, and an arbitration begins. -/
theorem restart_arbitrates {s : State} {m : Nat} (hb : s.tkb.bus = .modeReport m)
    (h : (s.tkb.slots.any fun t => t.fallback && t.mode = 0) = true) :
    ∃ t, exec .modeFallbackRestart s = .next t ∧ t.tkb.bus = .arbitrating ∧ t.tkb.attached = none
      ∧ ∀ i, (tokAt t i).state ≠ .identified := by
  obtain ⟨hatt, -, -, -, hstates⟩ := resetBus_resets s
  obtain ⟨hbus, hattached, hslots⟩ := startArbitration_tkb (resetBus s)
  obtain ⟨t, ht, hv⟩ := views_of_run (i := .modeFallbackRestart) (f := fallbackRestart) rfl (fallbackRestart_restarts hb h)
  generalize startArbitration (resetBus s) = v at *
  have htkb : t.tkb = v.tkb := (views_tkb hv :)
  refine ⟨t, ht, (congrArg Tkb.bus htkb).trans hbus, (congrArg Tkb.attached htkb).trans (hattached.trans hatt), fun i => ?_⟩
  rw [tokAt_of_slots ((congrArg Tkb.slots htkb).trans hslots)]
  exact hstates i

/-- Settles O58: repeats by `resendCommand`, MODE by `command` and `takeReport`. -/
theorem tokenCommands : Obligations.TokenCommands := by
  unfold Obligations.TokenCommands
  intro s hruns hlen
  refine ⟨fun f n hb => ⟨fun hn => ?again, fun hn i ha => ?last⟩, fun i ha => ⟨fun r hb hf => ⟨fun hr => ?mode, fun hr => ?modeAgain⟩,
    fun r hf => ?fallback, fun d m hb => ⟨fun r hd hr => ?report, fun h => ?bad⟩, fun r hb => ⟨fun hr => ?count, fun hr => ?query⟩⟩,
    fun m hb hany => ?restart⟩
  case again =>
    obtain ⟨t, ht, hv⟩ := follows_of_run (i := .tokenReplyTimeout) (f := resendCommand) rfl (resendCommand_again hb hn)
    have htkb := views_tkb hv.only
    exact ⟨t, ht, (congrArg Tkb.bus htkb :), follows_sends hv (List.mem_append_right _ (List.mem_singleton.2 rfl)),
      (congrArg Tkb.slots htkb :)⟩
  case last =>
    have hm := giveUp_attached 0 hlen ha
    obtain ⟨t, ht, hv⟩ := views_of_run (i := .tokenReplyTimeout) (f := resendCommand) rfl (resendCommand_last hb hn)
    generalize giveUp 0 s = u at *
    have htkb : t.tkb = u.tkb := (views_tkb hv :)
    refine ⟨t, ht, ?_, (congrArg Tkb.attached htkb).trans hm.attached, (congrArg Tkb.bus htkb).trans hm.bus⟩
    rw [tokAt_of_slots (congrArg Tkb.slots htkb)]
    exact hm.state
  case mode =>
    obtain ⟨t, ht, hv⟩ := views_of_run (i := .mode r) (f := sendMode r) rfl
      ((sendMode_asks r ha hf).trans (command_replied hruns hb hr))
    exact ⟨t, ht, (congrArg Tkb.bus (views_tkb hv) :), (congrArg Tkb.modeAsked (views_tkb hv) :)⟩
  case modeAgain => exact mode_again hruns ha hb hf hr
  case fallback => exact leadsTo_of_run (f := sendMode r) rfl (sendMode_fallback r ha hf) rfl rfl
  case report =>
    obtain ⟨hmode, hcount, hbus⟩ := takeReport_mode hlen hb ha hd hr
    obtain ⟨t, ht, hv⟩ := views_of_run (i := .modeReport d) (f := takeReport d) (s := s) rfl rfl
    generalize takeReport d s = u at *
    have htkb : t.tkb = u.tkb := (views_tkb hv :)
    have hslot := tokAt_of_slots (congrArg Tkb.slots htkb) i
    exact ⟨t, ht, (congrArg TokSlot.mode hslot).trans hmode, (congrArg TokSlot.writeCount hslot).trans hcount,
      (congrArg Tkb.bus htkb).trans hbus⟩
  case bad =>
    obtain ⟨t, ht, hv⟩ := views_of_run (i := .modeReport d) (f := takeReport d) rfl (takeReport_bad hb ha h)
    have htkb := views_tkb hv
    have htok := tokAt_updTok_same (s := reportAsked m s) (fun t => { t with fallback := true })
      (show i < s.tkb.slots.length from hlen ▸ attachedSlot_lt ha)
    have hslot := (tokAt_of_slots (congrArg Tkb.slots htkb :) i).trans htok
    exact ⟨t, ht, (congrArg TokSlot.fallback hslot :), (congrArg TokSlot.mode hslot :), (congrArg Tkb.bus htkb :)⟩
  case count =>
    have hi : i < (setBus .idle (sendFrame 8 1 s)).tkb.slots.length := show i < s.tkb.slots.length from hlen ▸ attachedSlot_lt ha
    obtain ⟨hcount, -, hbus, -⟩ := takeWriteCount_counts (frameParam r) hi
    obtain ⟨t, ht, hv⟩ := views_of_run (i := .tokenQuery true r) (f := queryToken true r) rfl
      ((queryToken_asks true r ha).trans (command_replied hruns hb hr))
    have htkb := views_tkb hv
    exact ⟨t, ht, Eq.trans (congrArg TokSlot.writeCount (tokAt_of_slots (congrArg Tkb.slots htkb :) i)) hcount,
      Eq.trans (congrArg Tkb.bus htkb :) hbus⟩
  case query =>
    obtain ⟨t, ht, hv⟩ := views_of_run (i := .tokenQuery false r) (f := queryToken false r) rfl
      ((queryToken_asks false r ha).trans (command_replied hruns hb hr))
    exact ⟨t, ht, (congrArg Tkb.slots (views_tkb hv) :), (congrArg Tkb.bus (views_tkb hv) :)⟩
  case restart => exact restart_arbitrates hb hany

end Sys2Proof.Machine

/-! PROOF. Blocks of the token protocol (O59): R424, R428 to R431. -/

namespace Sys2Proof.Machine

open Sys2Proof.Claims

/-! ### Blocks of the device -/

/-- The device has sent the block `b`; of the bus only the tag and the state of the line have moved. -/
def SendsBlock (b : Bytes) (s t : State) : Prop :=
  Emit.tkData (b ++ leBytes 2 (phaseCheck b)) ∈ t.host ∧ ∃ g, t.tkb = { s.tkb with tag := g, bus := .idle }

theorem sendBlock_sends (b : Bytes) (s : State) : SendsBlock b s (sendBlock b s) :=
  ⟨List.mem_append_right _ (List.mem_singleton.2 rfl), _, rfl⟩

/-- An R-block of the device. -/
def ownR (err : Nat) (s : State) : Bytes := mkBlock (0x80 + fld (bnat s.tkb.recvNs) 4 + err) []

theorem sendR_sends (err : Nat) (s : State) : SendsBlock (ownR err s) s (sendR err s) := by
  have h := sendBlock_sends (ownR err s) s
  have hcount (c : Prop) [Decidable c] (u : State) (hu : SendsBlock (ownR err s) s u) :
      SendsBlock (ownR err s) s (if c then u else bump Ctr.tkbRetries 1 u) := by
    split
    · exact hu
    · exact hu
  exact hcount _ _ h

/-- The R-block with error code 10. -/
theorem ownR_two (s : State) : ownR 2 s = mkBlock (0x82 + fld (bnat s.tkb.recvNs) 4) [] :=
  congrArg (mkBlock · []) (Nat.add_right_comm ..)

/-! ### Faulty blocks (R429) -/

/-- The bus as a resynchronisation leaves it, before its block. -/
def resynching (s : State) : State :=
  { s with tkb := { s.tkb with resyncs := s.tkb.resyncs + 1, faulty := 0, expired := false } }

/-- The bus with one more faulty block. -/
def withFault (s : State) : State := { s with tkb := { s.tkb with faulty := s.tkb.faulty + 1 } }

theorem resynch_sendsBlock {s : State} (h : s.tkb.resyncs < 2) : SendsBlock (mkBlock 0xC0 []) (resynching s) (resynch s) := by
  rw [resynch, if_neg (Nat.not_le.2 h)]
  exact sendBlock_sends _ (resynching s)

theorem faultyBlock_sends (code : Nat) {s : State} (h : s.tkb.faulty < 2) :
    SendsBlock (ownR code s) (withFault s) (faultyBlock code s) := by
  have hn : ¬ 3 ≤ s.tkb.faulty + 1 := by omega
  simp only [faultyBlock, if_neg hn]
  exact sendR_sends code (withFault s)

theorem faultyBlock_third (code : Nat) {s : State} (h : 2 ≤ s.tkb.faulty) : faultyBlock code s = resynch (withFault s) :=
  if_pos (Nat.succ_le_succ h)

theorem faultyBlock_last (code : Nat) {s : State} (h : 2 ≤ s.tkb.faulty) (hr : 2 ≤ s.tkb.resyncs) :
    faultyBlock code s = giveUp 2 (withFault s) :=
  (faultyBlock_third code h).trans (if_pos hr)

/-! ### What a command leaves of the bus -/

section
variable {j : Instr} {f : State → State} {s u v : State}

theorem sendsBlock_of_run {b : Bytes} (h : exec j s = run f s) (hu : f s = u) (ha : SendsBlock b v u) :
    ∃ t, exec j s = .next t ∧ SendsBlock b v t := by
  obtain ⟨t, ht, hv⟩ := follows_of_run h hu
  obtain ⟨hsend, g, htkb⟩ := ha
  exact ⟨t, ht, follows_sends hv hsend, g, (views_tkb hv.only :).trans htkb⟩

theorem tkb_of_run (h : exec j s = run f s) (hu : f s = u) : ∃ t, exec j s = .next t ∧ t.tkb = u.tkb := by
  obtain ⟨t, ht, hv⟩ := views_of_run h hu
  exact ⟨t, ht, (views_tkb hv :)⟩

end

/-! ### Blocks of the token -/

/-- A good block ends the run of faulty ones, and the wait. -/
def goodBlock (s : State) : State := { s with tkb := { s.tkb with faulty := 0, expired := false, wtx := 1 } }

section
variable {s : State} {i : Nat} {b : Bytes} {k : State → State} (hruns : busRuns s = true) (ha : attachedSlot s = some i)
include hruns ha

theorem receiveBlock_good (h : blockError b = 0) : receiveBlock b k s = k (goodBlock s) := by
  rw [receiveBlock, if_neg (by simp [hruns, ha]), if_neg (by simp [h])]
  rfl

theorem receiveBlock_bad (h : blockError b ≠ 0) : receiveBlock b k s = faultyBlock (blockError b) s := by
  rw [receiveBlock, if_neg (by simp [hruns, ha]), if_pos (bne_iff_ne.2 h)]

end

/-- The instructions of a block all receive it. -/
theorem receives_of_mem {j : Instr} {b : Bytes} (h : j ∈ [Instr.iBlock b, .rBlock b, .sResynch b, .sIfs b, .sAbort b, .sWtx b])
    (s : State) : ∃ k, exec j s = run (receiveBlock b k) s := by
  simp only [List.mem_cons, List.not_mem_nil, or_false] at h
  rcases h with rfl | rfl | rfl | rfl | rfl | rfl <;> exact ⟨_, rfl⟩

/-! ### Acknowledgements (R430) -/

theorem acknowledged_pending {s : State} {i : Nat} (ha : attachedSlot s = some i) (hp : s.tkb.ackPending = true) :
    acknowledged s = updTok i (fun t => { t with nextNs := !t.nextNs }) { s with tkb := { s.tkb with ackPending := false } } := by
  simp only [acknowledged, hp, if_true, ha]

theorem acknowledged_none {s : State} (hp : s.tkb.ackPending = false) : acknowledged s = s := by
  simp only [acknowledged, hp, Bool.false_eq_true, if_false]

/-- An acknowledgement leaves nothing to be acknowledged, and moves the sequence bit of the attached token. -/
structure Acknowledges (i : Nat) (s t : State) : Prop where
  message : t.tkb.message = s.tkb.message
  recvNs : t.tkb.recvNs = s.tkb.recvNs
  faulty : t.tkb.faulty = s.tkb.faulty
  pending : t.tkb.ackPending = false
  attached : t.tkb.attached = s.tkb.attached
  nextNs : s.tkb.ackPending = true → (tokAt t i).nextNs = !(tokAt s i).nextNs

theorem acknowledged_acknowledges {s : State} {i : Nat} (hlen : s.tkb.slots.length = 8) (ha : attachedSlot s = some i) :
    Acknowledges i s (acknowledged s) := by
  cases hp : s.tkb.ackPending with
  | false =>
    rw [acknowledged_none hp]
    exact ⟨rfl, rfl, rfl, hp, rfl, fun h => by simp [hp] at h⟩
  | true =>
    rw [acknowledged_pending ha hp]
    exact ⟨rfl, rfl, rfl, rfl, rfl, fun _ => congrArg TokSlot.nextNs
      (tokAt_updTok_same (s := { s with tkb := { s.tkb with ackPending := false } }) _ (hlen ▸ attachedSlot_lt ha))⟩

/-! ### I-blocks (R430) -/

/-- What an I-block leaves of the exchange. -/
structure TakesI (b : Bytes) (i : Nat) (s t : State) : Prop where
  faulty : t.tkb.faulty = s.tkb.faulty
  inTurn : bit (blockPcb b) 6 = s.tkb.recvNs → t.tkb.message = s.tkb.message ++ blockInf b ∧ t.tkb.recvNs = !s.tkb.recvNs
  outOfTurn : bit (blockPcb b) 6 ≠ s.tkb.recvNs → t.tkb.message = s.tkb.message ∧ t.tkb.recvNs = s.tkb.recvNs
  acks : s.tkb.ackPending = true → (tokAt t i).nextNs = !(tokAt s i).nextNs ∧ t.tkb.ackPending = false

/-- The R-block behind an I-block leaves what the block has brought. -/
theorem takesI_sendR {b : Bytes} {i : Nat} {s u : State} (h : TakesI b i s u) : TakesI b i s (sendR 0 u) := by
  obtain ⟨-, g, htkb⟩ := sendR_sends 0 u
  generalize sendR 0 u = t at *
  have hslot := tokAt_of_slots (s := u) (t := t) (congrArg Tkb.slots htkb :) i
  have hmessage : t.tkb.message = u.tkb.message := (congrArg Tkb.message htkb :)
  have hrecv : t.tkb.recvNs = u.tkb.recvNs := (congrArg Tkb.recvNs htkb :)
  have hack : t.tkb.ackPending = u.tkb.ackPending := (congrArg Tkb.ackPending htkb :)
  exact ⟨(congrArg Tkb.faulty htkb :).trans h.faulty, by rw [hmessage, hrecv]; exact h.inTurn,
    by rw [hmessage, hrecv]; exact h.outOfTurn, by rw [hslot, hack]; exact h.acks⟩

/-- The message with what an I-block adds. -/
def addMessage (b : Bytes) (s : State) : State :=
  { s with tkb := { s.tkb with message := s.tkb.message ++ blockInf b, recvNs := !s.tkb.recvNs } }

theorem takeI_takes {b : Bytes} {i : Nat} {s : State} (hlen : s.tkb.slots.length = 8) (ha : attachedSlot s = some i)
    (hp : blockPcb b < 0x80) : TakesI b i s (takeI b s) := by
  have hack := acknowledged_acknowledges hlen ha
  rw [takeI, if_neg (Nat.not_le.2 hp)]
  dsimp only
  generalize acknowledged s = u at *
  rw [hack.recvNs]
  split
  · next hne => exact takesI_sendR ⟨hack.faulty, fun h => absurd h (bne_iff_ne.1 hne), fun _ => ⟨hack.message, hack.recvNs⟩,
      fun h => ⟨hack.nextNs h, hack.pending⟩⟩
  · next heq =>
    have hadd : TakesI b i s (addMessage b u) :=
      ⟨hack.faulty, fun _ => ⟨congrArg (· ++ blockInf b) hack.message, congrArg not hack.recvNs⟩,
        fun h => absurd (bne_iff_ne.2 h) heq, fun h => ⟨hack.nextNs h, hack.pending⟩⟩
    have hchain (c : Bool) : TakesI b i s (if c then sendR 0 (addMessage b u) else addMessage b u) := by
      cases c
      · exact hadd
      · exact takesI_sendR hadd
    rw [← hack.recvNs]
    exact hchain _

/-! ### R-blocks (R429) -/

section
variable {s : State} {b own : Bytes} (h1 : 0x80 ≤ blockPcb b) (h2 : blockPcb b < 0xA0) (hown : s.tkb.sent = some own)
include h1 h2 hown

theorem takeR_acknowledges (hne : bit (blockPcb b) 4 ≠ bit (blockPcb own) 6) : takeR b s = acknowledged s := by
  have hc : ¬ ((blockPcb b < 0x80 || 0xA0 ≤ blockPcb b) = true) := by simp [h1, h2]
  simp only [takeR, if_neg hc, hown, if_pos (bne_iff_ne.2 hne)]

theorem takeR_sends (heq : bit (blockPcb b) 4 = bit (blockPcb own) 6) : SendsBlock own s (takeR b s) := by
  have hc : ¬ ((blockPcb b < 0x80 || 0xA0 ≤ blockPcb b) = true) := by simp [h1, h2]
  have hsend (c : Prop) [Decidable c] : SendsBlock own s (sendBlock own (if c then s else bump Ctr.tkbRetries 1 s)) := by
    split
    · exact sendBlock_sends own s
    · exact sendBlock_sends own _
  have hb : ¬ ((bit (blockPcb b) 4 != bit (blockPcb own) 6) = true) := by simp [heq]
  simp only [takeR, if_neg hc, hown, if_neg hb]
  exact hsend _

end

/-! ### S-blocks (R428, R429, R431) -/

/-- The exchange as it starts over. -/
def overTkb (s : State) : State :=
  { s with tkb := { s.tkb with recvNs := false, sent := none, message := [], ackPending := false, resyncs := 0 } }

theorem resynched_attached {s : State} {i : Nat} (ha : attachedSlot s = some i) :
    resynched s = overTkb (updTok i (fun t => { t with nextNs := false }) s) := by
  simp only [resynched, ha]
  rfl

/-- The effect of S_RESYNCH. -/
def takeResynch (b : Bytes) (s : State) : State :=
  if blockPcb b = 0xE0 then resynched s
  else if blockPcb b = 0xC0 then sendBlock (mkBlock 0xE0 []) (resynched s) else s

/-- The chain ends. -/
def chainOver (s : State) : State := { s with tkb := { s.tkb with sent := none, message := [], ackPending := false } }

/-- The effect of S_ABORT. -/
def takeAbort (b : Bytes) (s : State) : State :=
  if blockPcb b = 0xC2 then sendBlock (mkBlock 0xE2 []) (chainOver s)
  else if blockPcb b = 0xE2 then chainOver s else s

theorem takeAbort_sends {b : Bytes} (s : State) (h : blockPcb b = 0xC2) : SendsBlock (mkBlock 0xE2 []) (chainOver s) (takeAbort b s) := by
  rw [takeAbort, if_pos h]
  exact sendBlock_sends ..

/-- The attached token's largest block. -/
def withIfsc (i v : Nat) (s : State) : State := updTok i (fun t => { t with ifsc := v }) s

theorem takeIfs_sends {b : Bytes} {i : Nat} {s : State} (ha : attachedSlot s = some i) (hp : blockPcb b = 0xC1)
    (hl : (blockInf b).length = 1) (h1 : 16 ≤ leNat (blockInf b)) (h2 : leNat (blockInf b) ≤ 254) :
    SendsBlock (mkBlock 0xE1 (blockInf b)) (withIfsc i (leNat (blockInf b)) s) (takeIfs b s) := by
  have hc : ¬ (((blockInf b).length != 1 || leNat (blockInf b) < 16 || 254 < leNat (blockInf b)) = true) := by simp [hl, h1, h2]
  simp only [takeIfs, if_neg hc, if_pos hp, ha]
  exact sendBlock_sends ..

/-- The waiting time with its factor. -/
def withWtx (m : Nat) (s : State) : State := { s with tkb := { s.tkb with wtx := m } }

theorem takeWtx_sends {b : Bytes} {s : State} (hp : blockPcb b = 0xC3) (hl : (blockInf b).length = 1) (hne : leNat (blockInf b) ≠ 0) :
    SendsBlock (mkBlock 0xE3 (blockInf b)) (withWtx (leNat (blockInf b)) s) (takeWtx b s) := by
  have hc : ¬ (((blockInf b).length != 1 || leNat (blockInf b) = 0) = true) := by simp [hl, hne]
  simp only [takeWtx, if_neg hc, if_pos hp]
  exact sendBlock_sends _ (withWtx (leNat (blockInf b)) s)

/-! ### PUT_BLOCK, GET_BLOCK and the waiting time (R424, R431) -/

/-- The bus once the command of a block was answered. -/
def replied (opc param : Nat) (s : State) : State := setBus .idle (sendFrame opc param s)

/-- The block is put, and an I-block awaits its acknowledgement. -/
def putSent (b : Bytes) (s : State) : State :=
  let s := bump Ctr.tkbBlocks 1 (emit (.tkData (b ++ leBytes 2 (phaseCheck b))) s)
  if blockPcb b < 0x80 then { s with tkb := { s.tkb with sent := some b, ackPending := true, expired := false } } else s

theorem putSent_puts (b : Bytes) (s : State) : Emit.tkData (b ++ leBytes 2 (phaseCheck b)) ∈ (putSent b s).host
    ∧ (putSent b s).tkb.bus = s.tkb.bus
    ∧ (blockPcb b < 0x80 → (putSent b s).tkb.sent = some b ∧ (putSent b s).tkb.ackPending = true) := by
  have hmem : Emit.tkData (b ++ leBytes 2 (phaseCheck b)) ∈ s.host ++ [Emit.tkData (b ++ leBytes 2 (phaseCheck b))] :=
    List.mem_append_right _ (List.mem_singleton.2 rfl)
  unfold putSent
  dsimp only
  split
  · exact ⟨hmem, rfl, fun _ => ⟨rfl, rfl⟩⟩
  · next h => exact ⟨hmem, rfl, fun h' => absurd h' h⟩

section
variable {s : State} {i : Nat} {r : BitVec 48} (hruns : busRuns s = true) (ha : attachedSlot s = some i) (hb : s.tkb.bus = .idle)
include hruns ha hb

theorem putBlock_puts {b : Bytes} (hr : replyOk (commandFrame 6 s.tkb.tag b.length) r = true) :
    putBlock b r s = putSent b (replied 6 b.length s) := by
  simp only [putBlock, ha]
  exact command_replied hruns hb hr

theorem getBlock_gets {d : Bytes} (hr : replyOk (commandFrame 7 s.tkb.tag 0) r = true) :
    getBlock r d s = if (phaseBytes d).isNone then faultyBlock 2 (bump Ctr.tkbBlocks 1 (replied 7 0 s))
      else bump Ctr.tkbBlocks 1 (replied 7 0 s) := by
  simp only [getBlock, ha]
  exact command_replied hruns hb hr

end

/-- The waiting time has expired once. -/
def waited (s : State) : State := { s with tkb := { s.tkb with expired := true, wtx := 1 } }

theorem waitExpires_waits {s : State} {i : Nat} (hruns : busRuns s = true) (ha : attachedSlot s = some i) :
    waitExpires s = if s.tkb.expired then resynch s else sendR 2 (waited s) := by
  rw [waitExpires, if_neg (by simp [hruns, ha])]
  rfl

/-! ### The obligation -/

section
variable {s : State} {i : Nat} (hruns : busRuns s = true) (hlen : s.tkb.slots.length = 8) (ha : attachedSlot s = some i)
include hruns ha

/-- A faulty phase of GET_BLOCK is a faulty block with error code 10. -/
theorem getBlock_faulty {d : Bytes} {r : BitVec 48} (hb : s.tkb.bus = .idle) (hr : replyOk (commandFrame 7 s.tkb.tag 0) r = true)
    (hd : phaseBytes d = none) (h : s.tkb.faulty < 2) : ∃ t, exec (.getBlock r d) s = .next t ∧ t.tkb.faulty = s.tkb.faulty + 1
      ∧ Emit.tkData (ownR 2 s ++ leBytes 2 (phaseCheck (ownR 2 s))) ∈ t.host := by
  have hu := getBlock_gets (d := d) hruns ha hb hr
  rw [hd, if_pos (show (none : Option Bytes).isNone = true from rfl)] at hu
  have hf : (bump Ctr.tkbBlocks 1 (replied 7 0 s)).tkb.faulty = s.tkb.faulty := rfl
  have hown : ownR 2 (bump Ctr.tkbBlocks 1 (replied 7 0 s)) = ownR 2 s := rfl
  generalize bump Ctr.tkbBlocks 1 (replied 7 0 s) = u at *
  obtain ⟨t, ht, hsend, g, htkb⟩ := sendsBlock_of_run (j := .getBlock r d) rfl hu (faultyBlock_sends 2 (hf ▸ h))
  exact ⟨t, ht, Eq.trans (congrArg Tkb.faulty htkb :) (congrArg (· + 1) hf), hown ▸ hsend⟩

/-- A block without a fault leads to its own effect. -/
theorem sendsBlock_of_good {j : Instr} {b own : Bytes} {k : State → State} {v : State} (hj : exec j s = run (receiveBlock b k) s)
    (hb : blockError b = 0) (hk : SendsBlock own v (k (goodBlock s))) : ∃ t, exec j s = .next t ∧ SendsBlock own v t :=
  sendsBlock_of_run hj (receiveBlock_good hruns ha hb) hk

include hlen

/-- A good I-block. -/
theorem iBlock_good {b : Bytes} (hb : blockError b = 0) (hp : blockPcb b < 0x80) :
    ∃ t, exec (.iBlock b) s = .next t ∧ TakesI b i (goodBlock s) t := by
  have hi := takeI_takes (s := goodBlock s) (i := i) hlen ha hp
  obtain ⟨t, ht, htkb⟩ := tkb_of_run (j := .iBlock b) rfl (receiveBlock_good hruns ha hb)
  generalize takeI b (goodBlock s) = u at *
  have hslot := tokAt_of_slots (congrArg Tkb.slots htkb) i
  obtain ⟨hfaulty, hin, hout, hack⟩ := hi
  exact ⟨t, ht, by rw [htkb]; exact hfaulty, by rw [htkb]; exact hin, by rw [htkb]; exact hout, by rw [hslot, htkb]; exact hack⟩

/-- A good S(RESYNCH) block starts the exchange over. -/
theorem sResynch_good {b : Bytes} (hb : blockError b = 0) (hp : blockPcb b = 0xE0 ∨ blockPcb b = 0xC0) :
    ∃ t, exec (.sResynch b) s = .next t ∧ t.tkb.recvNs = false ∧ t.tkb.sent = none ∧ t.tkb.message = []
      ∧ (tokAt t i).nextNs = false
      ∧ (blockPcb b = 0xC0 → Emit.tkData (mkBlock 0xE0 [] ++ leBytes 2 (phaseCheck (mkBlock 0xE0 []))) ∈ t.host) := by
  have hover := resynched_attached (s := goodBlock s) (i := i) ha
  have hslot : (tokAt (resynched (goodBlock s)) i).nextNs = false := by
    rw [hover]
    exact congrArg TokSlot.nextNs (tokAt_updTok_same (s := goodBlock s) (fun t => { t with nextNs := false })
      (show i < s.tkb.slots.length from hlen ▸ attachedSlot_lt ha))
  have hrecv : (resynched (goodBlock s)).tkb.recvNs = false := by rw [hover]; rfl
  have hsent : (resynched (goodBlock s)).tkb.sent = none := by rw [hover]; rfl
  have hmessage : (resynched (goodBlock s)).tkb.message = [] := by rw [hover]; rfl
  have hgood := receiveBlock_good (k := takeResynch b) hruns ha hb
  rcases hp with hp | hp
  · obtain ⟨t, ht, htkb⟩ := tkb_of_run (j := .sResynch b) rfl (hgood.trans (if_pos hp))
    generalize resynched (goodBlock s) = u at *
    exact ⟨t, ht, by rw [htkb]; exact hrecv, by rw [htkb]; exact hsent, by rw [htkb]; exact hmessage,
      by rw [tokAt_of_slots (congrArg Tkb.slots htkb)]; exact hslot, fun h => by simp [hp] at h⟩
  · have hne : blockPcb b ≠ 0xE0 := by simp [hp]
    obtain ⟨t, ht, hsend, g, htkb⟩ := sendsBlock_of_run (j := .sResynch b) rfl
      (hgood.trans ((if_neg hne).trans (if_pos hp))) (sendBlock_sends ..)
    generalize resynched (goodBlock s) = u at *
    exact ⟨t, ht, Eq.trans (congrArg Tkb.recvNs htkb :) hrecv, Eq.trans (congrArg Tkb.sent htkb :) hsent,
      Eq.trans (congrArg Tkb.message htkb :) hmessage,
      Eq.trans (congrArg TokSlot.nextNs (tokAt_of_slots (s := u) (congrArg Tkb.slots htkb :) i)) hslot, fun _ => hsend⟩

/-- A faulty block is answered with an R-block, a resynchronisation, or the end of the exchange. -/
theorem block_bad {j : Instr} {b : Bytes} {k : State → State} (hj : exec j s = run (receiveBlock b k) s) (hb : blockError b ≠ 0) :
    (s.tkb.faulty < 2 → ∃ t, exec j s = .next t ∧ SendsBlock (ownR (blockError b) s) (withFault s) t)
    ∧ (2 ≤ s.tkb.faulty → s.tkb.resyncs < 2 → ∃ t, exec j s = .next t ∧ SendsBlock (mkBlock 0xC0 []) (resynching (withFault s)) t)
    ∧ (2 ≤ s.tkb.faulty → 2 ≤ s.tkb.resyncs → ∃ t, exec j s = .next t ∧ (tokAt t i).state = .faulty ∧ t.tkb.attached = none) := by
  have hbad := receiveBlock_bad (k := k) hruns ha hb
  refine ⟨fun hf => ?first, fun hf hr => ?third, fun hf hr => ?last⟩
  case first => exact sendsBlock_of_run hj hbad (faultyBlock_sends _ hf)
  case third => exact sendsBlock_of_run hj (hbad.trans (faultyBlock_third _ hf)) (resynch_sendsBlock hr)
  case last =>
    have hm := giveUp_attached 2 (s := withFault s) hlen ha
    obtain ⟨t, ht, htkb⟩ := tkb_of_run hj (hbad.trans (faultyBlock_last _ hf hr))
    generalize giveUp 2 (withFault s) = u at *
    refine ⟨t, ht, ?_, (congrArg Tkb.attached htkb).trans hm.attached⟩
    rw [tokAt_of_slots (congrArg Tkb.slots htkb)]
    exact hm.state

end

/-- Settles O59: what is received by `receiveBlock`, what is answered by `sendBlock`. -/
theorem tokenBlocks : Obligations.TokenBlocks := by
  unfold Obligations.TokenBlocks
  intro s i hruns hlen ha sends
  refine ⟨fun b r hb hr => ?put, fun d r hb hr => ⟨fun hd => ?get, fun hd hf => ?getFaulty⟩, fun b hb => ?good,
    fun b hb j hj => ?bad, fun he => ?expired, fun he hr => ?expiredAgain⟩
  case put =>
    obtain ⟨hsend, hbus, hsent⟩ := putSent_puts b (replied 6 b.length s)
    obtain ⟨t, ht, hv⟩ := follows_of_run (i := .putBlock b r) (f := putBlock b r) rfl (putBlock_puts hruns ha hb hr)
    have hidle : (replied 6 b.length s).tkb.bus = .idle := rfl
    generalize replied 6 b.length s = w at *
    generalize putSent b w = u at *
    have htkb : t.tkb = u.tkb := (views_tkb hv.only :)
    exact ⟨t, ht, follows_sends hv hsend, (congrArg Tkb.bus htkb).trans (hbus.trans hidle), by rw [htkb]; exact hsent⟩
  case get =>
    have hu := getBlock_gets (d := d) hruns ha hb hr
    rw [if_neg (by simpa using hd)] at hu
    obtain ⟨t, ht, htkb⟩ := tkb_of_run (j := .getBlock r d) rfl hu
    exact ⟨t, ht, (congrArg Tkb.bus htkb :), (congrArg Tkb.faulty htkb :), (congrArg Tkb.message htkb :)⟩
  case getFaulty => exact ownR_two s ▸ getBlock_faulty hruns ha hb hr hd hf
  case good =>
    refine ⟨fun hp => ?i, fun h1 h2 own hown => ⟨fun hne => ?r, fun heq => ?again⟩, fun hp => ?resynch, fun hp hl h1 h2 => ?ifs,
      fun hp => ?abort, fun hp hl hne => ?wtx⟩
    case i =>
      obtain ⟨t, ht, hfaulty, hin, hout, hack⟩ := iBlock_good hruns hlen ha hb hp
      exact ⟨t, ht, hfaulty, hin, hout, hack⟩
    case r =>
      have hack := acknowledged_acknowledges (s := goodBlock s) hlen ha
      obtain ⟨t, ht, htkb⟩ := tkb_of_run (j := .rBlock b) rfl
        ((receiveBlock_good hruns ha hb).trans (takeR_acknowledges (s := goodBlock s) h1 h2 hown hne))
      exact ⟨t, ht, (congrArg Tkb.ackPending htkb).trans hack.pending⟩
    case again =>
      obtain ⟨t, ht, hsend, g, htkb⟩ := sendsBlock_of_good (j := .rBlock b) hruns ha rfl hb
        (takeR_sends (s := goodBlock s) h1 h2 hown heq)
      exact ⟨t, ht, hsend, (congrArg Tkb.ackPending htkb :)⟩
    case resynch => exact sResynch_good hruns hlen ha hb hp
    case ifs =>
      obtain ⟨t, ht, hsend, g, htkb⟩ := sendsBlock_of_good (j := .sIfs b) hruns ha rfl hb (takeIfs_sends ha hp hl h1 h2)
      have hslot := tokAt_updTok_same (s := goodBlock s) (fun t => { t with ifsc := leNat (blockInf b) })
        (show i < s.tkb.slots.length from hlen ▸ attachedSlot_lt ha)
      exact ⟨t, ht, congrArg TokSlot.ifsc ((tokAt_of_slots (congrArg Tkb.slots htkb :) i).trans hslot), hsend⟩
    case abort =>
      obtain ⟨t, ht, hsend, g, htkb⟩ := sendsBlock_of_good (j := .sAbort b) (k := takeAbort b) hruns ha rfl hb
        (takeAbort_sends _ hp)
      exact ⟨t, ht, (congrArg Tkb.sent htkb :), (congrArg Tkb.message htkb :), (congrArg Tkb.ackPending htkb :), hsend⟩
    case wtx =>
      obtain ⟨t, ht, hsend, g, htkb⟩ := sendsBlock_of_good (j := .sWtx b) hruns ha rfl hb (takeWtx_sends hp hl hne)
      exact ⟨t, ht, (congrArg Tkb.wtx htkb :), hsend⟩
  case bad =>
    obtain ⟨k, hk⟩ := receives_of_mem hj s
    obtain ⟨hfirst, hthird, hlast⟩ := block_bad hruns hlen ha hk hb
    refine ⟨fun hf => ?_, fun hf hr => ?_, hlast⟩
    · obtain ⟨t, ht, hsend, g, htkb⟩ := hfirst hf
      exact ⟨t, ht, (congrArg Tkb.faulty htkb :), (congrArg Tkb.message htkb :), hsend⟩
    · obtain ⟨t, ht, hsend, g, htkb⟩ := hthird hf hr
      exact ⟨t, ht, (congrArg Tkb.faulty htkb :), (congrArg Tkb.resyncs htkb :), hsend⟩
  case expired =>
    have hu := waitExpires_waits hruns ha
    rw [he, if_neg Bool.false_ne_true] at hu
    obtain ⟨t, ht, hsend, g, htkb⟩ := sendsBlock_of_run (j := .blockWaitingTimeExpiry) rfl hu (sendR_sends 2 _)
    exact ⟨t, ht, (congrArg Tkb.expired htkb :), (congrArg Tkb.wtx htkb :), ownR_two (waited s) ▸ hsend⟩
  case expiredAgain =>
    have hu := waitExpires_waits hruns ha
    rw [he, if_pos rfl] at hu
    obtain ⟨t, ht, hsend, g, htkb⟩ := sendsBlock_of_run (j := .blockWaitingTimeExpiry) rfl hu (resynch_sendsBlock hr)
    exact ⟨t, ht, (congrArg Tkb.expired htkb :), (congrArg Tkb.resyncs htkb :), hsend⟩

end Sys2Proof.Machine

/-! PROOF. Ceremonies, the first authority key, approvals and the quorum (O60): R433, R435, R437, R439, R441, R442. -/

namespace Sys2Proof.Machine

open Sys2Proof.Claims

/-! ### The end of a ceremony (R437, R441) -/

theorem endCeremony_none {s : State} (n : Nat) (h : s.tkb.approval = .none) : endCeremony n s = s := by
  simp only [endCeremony, h]

theorem endCeremony_tkb {s : State} {c : Ceremony} (n : Nat) (h : s.tkb.approval = .open c ∨ s.tkb.approval = .held c) :
    (endCeremony n s).tkb = { s.tkb with approval := .none, result := n } := by
  rcases h with h | h
  · simp only [endCeremony, h, event_tkb]
  · simp only [endCeremony, h, event_tkb]

/-- No operation holds the approval: none is there behind the end of a ceremony. -/
theorem endCeremony_clears {s : State} (n : Nat) (h : approvalReserved s = false) :
    ∃ r, (endCeremony n s).tkb = { s.tkb with approval := .none, result := r } := by
  rcases ha : s.tkb.approval with _ | c | c | ⟨c, k⟩
  · rw [endCeremony_none n ha, ← ha]
    exact ⟨_, rfl⟩
  · exact ⟨n, endCeremony_tkb n (Or.inl ha)⟩
  · exact ⟨n, endCeremony_tkb n (Or.inr ha)⟩
  · simp [approvalReserved, ha] at h

theorem closeWindow_ends {s : State} {c : Ceremony} (h : s.tkb.approval = .open c ∨ s.tkb.approval = .held c) :
    closeWindow s = endCeremony 7 s := by
  rcases h with h | h
  · simp only [closeWindow, h]
  · simp only [closeWindow, h]

/-- The key of the buffer is the authority's, nobody is enrolled, and one approval is enough. -/
def withAuthority (s : State) : State :=
  { s with tkb := { s.tkb with authority := some (bufKey s), enrolled := [], quorum := 1 } }

theorem setAuthority_sets {c : Ceremony} {s : State} (h : c.arg.take 32 = digestOf 0x0612 (bufKey s) 32) :
    (setAuthority c s).tkb = { s.tkb with approval := .none, result := 2, authority := some (bufKey s), enrolled := [], quorum := 1 } := by
  have hend := endCeremony_tkb (s := { s with tkb := { s.tkb with approval := .open c } }) 2 (Or.inl rfl)
  have hset : setAuthority c s = withAuthority (endCeremony 2 { s with tkb := { s.tkb with approval := .open c } }) := by
    simp only [setAuthority, ceremonyOver, decide_eq_true h, if_true]
    rfl
  rw [hset]
  generalize endCeremony 2 { s with tkb := { s.tkb with approval := .open c } } = u at *
  simp only [withAuthority, bufKey, hend]

theorem setAuthority_unfit {c : Ceremony} {s : State} (h : c.arg.take 32 ≠ digestOf 0x0612 (bufKey s) 32) :
    (setAuthority c s).tkb = { s.tkb with approval := .none, result := 6 } := by
  have hend := endCeremony_tkb (s := { s with tkb := { s.tkb with approval := .open c } }) 6 (Or.inl rfl)
  simp only [setAuthority, ceremonyOver, decide_eq_false h, Bool.false_eq_true, if_false]
  exact hend

/-! ### START and CANCEL (R437) -/

/-- What was open or held is discarded. -/
def ceremonyDiscarded (s : State) : State := { endCeremony 0 s with tkb := { (endCeremony 0 s).tkb with startWanted := false } }

theorem ceremonyDiscarded_tkb {s : State} (h : approvalReserved s = false) :
    ∃ r, (ceremonyDiscarded s).tkb = { s.tkb with approval := .none, result := r, startWanted := false } := by
  obtain ⟨r, hr⟩ := endCeremony_clears 0 h
  exact ⟨r, by simp only [ceremonyDiscarded, hr]⟩

/-- The ceremony that the registers describe begins. -/
def beginCeremony (s : State) : State :=
  if s.tkb.action = 0 || 12 < s.tkb.action then { s with tkb := { s.tkb with result := 3 } }
  else if s.tkb.action = 12 && s.tkb.authority.isNone then setAuthority (newCeremony (zeros 32) s) s
  else { s with tkb := { s.tkb with startWanted := true, result := 0 } }

section
variable {s : State} (h : approvalReserved s = false)
include h

theorem startCeremony_begins : startCeremony s = beginCeremony (ceremonyDiscarded s) := if_neg (by simp [h])

theorem startCeremony_waits (h1 : 1 ≤ s.tkb.action) (h2 : s.tkb.action ≤ 12) (h3 : s.tkb.action = 12 → s.tkb.authority ≠ none) :
    (startCeremony s).tkb = { s.tkb with approval := .none, result := 0, startWanted := true } := by
  obtain ⟨r, hr⟩ := ceremonyDiscarded_tkb h
  rw [startCeremony_begins h]
  generalize ceremonyDiscarded s = u at *
  have hknown : ¬ ((u.tkb.action = 0 || 12 < u.tkb.action) = true) := by simp [hr]; omega
  have hset : ¬ ((u.tkb.action = 12 && u.tkb.authority.isNone) = true) := by simpa [hr] using h3
  rw [beginCeremony, if_neg hknown, if_neg hset]
  simp only [hr]

theorem startCeremony_unknown (h1 : s.tkb.action = 0 ∨ 12 < s.tkb.action) :
    (startCeremony s).tkb = { s.tkb with approval := .none, result := 3, startWanted := false } := by
  obtain ⟨r, hr⟩ := ceremonyDiscarded_tkb h
  rw [startCeremony_begins h]
  generalize ceremonyDiscarded s = u at *
  rw [beginCeremony, if_pos (by simpa [hr] using h1)]
  simp only [hr]

theorem cancelCeremony_eq : cancelCeremony s = endCeremony 0 { s with tkb := { s.tkb with startWanted := false } } := by
  rw [cancelCeremony, if_neg (by simp [h])]

/-- The first authority key takes effect where it fits its digest. -/
theorem startCeremony_authority (h1 : s.tkb.action = 12) (h2 : s.tkb.authority = none) :
    (startCeremony s).tkb.startWanted = false ∧ (startCeremony s).tkb.approval = .none
      ∧ if (Memory.readN s.tkb.arg 0 64).take 32 = digestOf 0x0612 (bufKey s) 32 then
          (startCeremony s).tkb.authority = some (bufKey s) ∧ (startCeremony s).tkb.enrolled = []
            ∧ (startCeremony s).tkb.quorum = 1 ∧ (startCeremony s).tkb.result = 2
        else (startCeremony s).tkb.authority = none ∧ (startCeremony s).tkb.result = 6 := by
  obtain ⟨r, hr⟩ := ceremonyDiscarded_tkb h
  rw [startCeremony_begins h]
  generalize ceremonyDiscarded s = u at *
  rw [beginCeremony, if_neg (by simp [hr, h1]), if_pos (by simp [hr, h1, h2])]
  have hkey : bufKey u = bufKey s := by simp only [bufKey, hr]
  have harg : (newCeremony (zeros 32) u).arg = Memory.readN s.tkb.arg 0 64 := by simp only [newCeremony, hr]
  split
  · next hfit =>
    rw [setAuthority_sets (by rw [harg, hkey]; exact hfit), hr, hkey]
    exact ⟨rfl, rfl, rfl, rfl, rfl, rfl⟩
  · next hfit =>
    rw [setAuthority_unfit (by rw [harg, hkey]; exact hfit), hr]
    exact ⟨rfl, rfl, h2, rfl⟩

end

/-! ### The opening (R437, R439) -/

theorem askToken_approval (i : Nat) (s : State) :
    (askToken i s).tkb.approval = s.tkb.approval ∧ (askToken i s).tkb.startWanted = s.tkb.startWanted := by
  have hask (c : Bool) : (if c then updTok i (fun t => { t with asked := true }) s else s).tkb.approval = s.tkb.approval
      ∧ (if c then updTok i (fun t => { t with asked := true }) s else s).tkb.startWanted = s.tkb.startWanted := by
    cases c <;> exact ⟨rfl, rfl⟩
  unfold askToken
  split
  · exact hask _
  · exact ⟨rfl, rfl⟩

theorem askTokens_approval (l : List Nat) (s : State) : (l.foldl (fun s i => askToken i s) s).tkb.approval = s.tkb.approval
    ∧ (l.foldl (fun s i => askToken i s) s).tkb.startWanted = s.tkb.startWanted := by
  induction l generalizing s with
  | nil => exact ⟨rfl, rfl⟩
  | cons i l ih =>
    obtain ⟨h1, h2⟩ := askToken_approval i s
    obtain ⟨h3, h4⟩ := ih (askToken i s)
    exact ⟨h3.trans h1, h4.trans h2⟩

/-- The ceremony is open. -/
def opened (c : Ceremony) (s : State) : State := { s with tkb := { s.tkb with startWanted := false, approval := .open c } }

theorem openCeremony_opens {s : State} {i : Nat} (hw : s.tkb.startWanted = true) (hr : approvalReserved s = false)
    (hi : servingInst s = some i) :
    openCeremony s = (List.range 8).foldl (fun s i => askToken i s)
      (opened (newCeremony (drawn s i 32) (generate i 32 false s)) (generate i 32 false s)) := by
  have hd : drawBytes 32 s = some (drawn s i 32, generate i 32 false s) := by simp only [drawBytes, hi]
  rw [openCeremony, if_neg (by simp [hw, hr]), hd]
  rfl

theorem openCeremony_waits {s : State} (h : s.tkb.startWanted = false ∨ servingInst s = none) : openCeremony s = s := by
  rcases h with h | h
  · exact if_pos (by simp [h])
  · have hd : drawBytes 32 s = none := by simp only [drawBytes, h]
    unfold openCeremony
    split
    · rfl
    · rw [hd]

/-! ### The quorum (R442) -/

section
variable {s : State} {v : Nat} (hv : v < 32)
include hv

theorem writeQuorum_eq : writeQuorum v s =
    if max 1 v = s.tkb.quorum then s
    else if s.tkb.quorum < max 1 v then
      if max 1 v ≤ s.tkb.enrolled.length then { s with tkb := { s.tkb with quorum := max 1 v } }
      else { s with tkb := { s.tkb with result := 4 } }
    else (consumeApproval 11 [byte (max 1 v)] s).elim { s with tkb := { s.tkb with result := 5 } }
      fun u => { u with tkb := { u.tkb with quorum := max 1 v } } := by
  have hmax : Nat.max 1 v = max 1 v := rfl
  simp only [writeQuorum, Nat.mod_eq_of_lt hv, hmax]
  generalize max 1 v = m
  cases consumeApproval 11 [byte m] s <;> rfl

theorem writeQuorum_raises (h1 : s.tkb.quorum < max 1 v) (h2 : max 1 v ≤ s.tkb.enrolled.length) :
    writeQuorum v s = { s with tkb := { s.tkb with quorum := max 1 v } } := by
  rw [writeQuorum_eq hv, if_neg (Nat.ne_of_gt h1), if_pos h1, if_pos h2]

theorem writeQuorum_tooMany (h1 : s.tkb.quorum < max 1 v) (h2 : s.tkb.enrolled.length < max 1 v) :
    writeQuorum v s = { s with tkb := { s.tkb with result := 4 } } := by
  rw [writeQuorum_eq hv, if_neg (Nat.ne_of_gt h1), if_pos h1, if_neg (Nat.not_le.2 h2)]

theorem writeQuorum_unapproved (h1 : max 1 v < s.tkb.quorum) (h2 : consumeApproval 11 [byte (max 1 v)] s = none) :
    writeQuorum v s = { s with tkb := { s.tkb with result := 5 } } := by
  rw [writeQuorum_eq hv, if_neg (Nat.ne_of_lt h1), if_neg (Nat.lt_asymm h1), h2]
  rfl

theorem writeQuorum_lowers {u : State} (h1 : max 1 v < s.tkb.quorum) (h2 : consumeApproval 11 [byte (max 1 v)] s = some u) :
    writeQuorum v s = { s with tkb := { s.tkb with approval := .none, quorum := max 1 v } } := by
  rw [writeQuorum_eq hv, if_neg (Nat.ne_of_lt h1), if_neg (Nat.lt_asymm h1), h2, consumeApproval_some h2]
  rfl

theorem writeQuorum_same (h : max 1 v = s.tkb.quorum) : writeQuorum v s = s := by
  rw [writeQuorum_eq hv, if_pos h]

end

/-! ### Answers of a token (R433) -/

/-- A message that is over: what it was stands in no field but those of the exchange and the sequence bits. -/
structure MessageOver (s t : State) : Prop where
  only : ∃ l p, t = { s with tkb := { s.tkb with slots := l, sent := none, message := [], ackPending := p } }
  length : t.tkb.slots.length = s.tkb.slots.length
  slot : ∀ i, (tokAt t i).id = (tokAt s i).id ∧ (tokAt t i).cert = (tokAt s i).cert ∧ (tokAt t i).asked = (tokAt s i).asked

theorem messageOver_over (s : State) : MessageOver s (messageOver s) := by
  cases hp : s.tkb.ackPending with
  | false =>
    rw [messageOver, acknowledged_none hp]
    exact ⟨⟨_, _, rfl⟩, rfl, fun _ => ⟨rfl, rfl, rfl⟩⟩
  | true =>
    cases ha : attachedSlot s with
    | none =>
      have hsame : acknowledged s = s := by simp only [acknowledged, hp, if_true, ha]
      rw [messageOver, hsame]
      exact ⟨⟨_, _, rfl⟩, rfl, fun _ => ⟨rfl, rfl, rfl⟩⟩
    | some k =>
      rw [messageOver, acknowledged_pending ha hp]
      let flip : TokSlot → TokSlot := fun t => { t with nextNs := !t.nextNs }
      let u : State := { s with tkb := { s.tkb with ackPending := false } }
      exact ⟨⟨_, _, rfl⟩, updTok_length .., fun i => ⟨updTok_keeps TokSlot.id (f := flip) (fun _ => rfl) k i u,
        updTok_keeps TokSlot.cert (f := flip) (fun _ => rfl) k i u, updTok_keeps TokSlot.asked (f := flip) (fun _ => rfl) k i u⟩⟩

theorem takeAnswer_takes {s : State} {i : Nat} (k : Nat → State → State) (hruns : busRuns s = true) (ha : attachedSlot s = some i) :
    takeAnswer k s = k i (messageOver s) := by
  rw [takeAnswer, if_neg (by simp [hruns]), ha]

/-- The certificate of the answer. -/
def giveCert (b : Bytes) (i : Nat) (s : State) : State := updTok i (fun t => { t with cert := some b }) s

/-- The count of the answer. -/
def giveCount (b : Bytes) (i : Nat) (s : State) : State := if b.length = 4 then takeWriteCount i (leNat b) s else s

/-! ### Approvals (R439) -/

/-- The token of slot `i` is asked no more. -/
def askedNoMore (i : Nat) (s : State) : State := updTok i (fun t => { t with asked := false }) s

/-- What an answer to APPROVE leaves where it counts for nothing. -/
theorem takeApproval_nothing {b : Bytes} {i : Nat} {s : State} (h : (tokAt s i).asked = false) :
    takeApproval b i s = askedNoMore i s := by
  unfold takeApproval
  dsimp only
  split
  · exact if_pos (by simp [h])
  · rfl

section
variable {b : Bytes} {i k : Nat} {s : State} {c : Ceremony} {id : BitVec 128} {cert : Bytes} {e : Enrolled}
  (hopen : s.tkb.approval = .open c) (hid : (tokAt s i).id = some id) (hcert : (tokAt s i).cert = some cert)
include hopen hid hcert

theorem takeApproval_rejects (h : (certOk s id cert && approves s c id cert b) = false) : takeApproval b i s = askedNoMore i s := by
  have hbad : (!certOk (askedNoMore i s) id cert || !approves (askedNoMore i s) c id cert b) = true :=
    (Bool.not_and ..).symm.trans (congrArg not h)
  simp only [takeApproval, hopen, hid, hcert]
  exact if_pos (by rw [Bool.or_assoc]; exact Bool.or_eq_true_iff.2 (Or.inr hbad))

theorem takeApproval_counts (hasked : (tokAt s i).asked = true) (h : (certOk s id cert && approves s c id cert b) = true)
    (hfind : (s.tkb.enrolled.find? fun e => e.2.id = id) = some (k, e)) (hdigest : e.keyDigest = keyDigestOf cert)
    (hnew : c.counted.contains k = false) :
    takeApproval b i s = checkQuorum { c with counted := insertSorted k c.counted } (askedNoMore i s) := by
  have hgood : (!certOk (askedNoMore i s) id cert || !approves (askedNoMore i s) c id cert b) = false :=
    (Bool.not_and ..).symm.trans (congrArg not h)
  have hfind' : ((updTok i (fun t => { t with asked := false }) s).tkb.enrolled.find? fun e => e.2.id = id) = some (k, e) := hfind
  have hpass : ¬ ((!(tokAt s i).asked || !certOk (askedNoMore i s) id cert || !approves (askedNoMore i s) c id cert b) = true) := by
    rw [Bool.or_assoc, hgood, hasked]
    decide
  have hcount : (decide (e.keyDigest = keyDigestOf cert) && !c.counted.contains k) = true := by rw [hnew, decide_eq_true hdigest]; rfl
  simp only [takeApproval, hopen, hid, hcert]
  refine (if_neg hpass).trans ?_
  rw [hfind']
  exact if_pos hcount

end

/-- A count that stands at a new value leaves the ceremony open below the quorum, and holds the approval at it, where its action
is not the completion itself. -/
theorem checkQuorum_held {c : Ceremony} {s : State} (h : c.action ≤ 8 ∨ c.action = 11) :
    if c.counted.length < s.tkb.quorum then (checkQuorum c s).tkb.approval = .open c
    else (checkQuorum c s).tkb.approval = .held c ∧ (checkQuorum c s).tkb.result = 1 := by
  have h9 : ¬ c.action = 9 := by omega
  have hneed (u : State) : quorumNeeded u c = u.tkb.quorum := if_neg (by simp [h9])
  unfold checkQuorum
  simp only [hneed, h9, decide_false, Bool.false_and, Bool.or_false, decide_eq_true_eq]
  split
  · rfl
  · split
    · omega
    · omega
    · omega
    · exact ⟨rfl, rfl⟩

section
variable {b : Bytes} {i : Nat} {s : State} (hruns : busRuns s = true) (ha : attachedSlot s = some i)
include hruns ha

/-- A token that was not asked counts for nothing. -/
theorem approve_unasked (h : (tokAt s i).asked = false) :
    ∃ t, exec (.approve b) s = .next t ∧ t.tkb.approval = s.tkb.approval ∧ t.tkb.enrolled = s.tkb.enrolled := by
  obtain ⟨⟨l, p, hw⟩, -, hslot⟩ := messageOver_over s
  have hu := (takeAnswer_takes (takeApproval b) hruns ha).trans (takeApproval_nothing ((hslot i).2.2.trans h))
  obtain ⟨t, ht, htkb⟩ := tkb_of_run (j := .approve b) rfl hu
  rw [hw] at htkb
  exact ⟨t, ht, (congrArg Tkb.approval htkb :), (congrArg Tkb.enrolled htkb :)⟩

/-- The approval of an enrolled token is counted once, where it verifies. -/
theorem approve_asked {k : Nat} {e : Enrolled} {c : Ceremony} {id : BitVec 128} {cert : Bytes}
    (hopen : s.tkb.approval = .open c) (hid : (tokAt s i).id = some id) (hcert : (tokAt s i).cert = some cert)
    (hasked : (tokAt s i).asked = true) (hfind : (s.tkb.enrolled.find? fun e => e.2.id = id) = some (k, e))
    (hdigest : e.keyDigest = keyDigestOf cert) (hnew : c.counted.contains k = false) (haction : c.action ≤ 8 ∨ c.action = 11) :
    ∃ t, exec (.approve b) s = .next t ∧
      if certOk s id cert && approves s c id cert b then
        if (insertSorted k c.counted).length < s.tkb.quorum then t.tkb.approval = .open { c with counted := insertSorted k c.counted }
        else t.tkb.approval = .held { c with counted := insertSorted k c.counted } ∧ t.tkb.result = 1
      else t.tkb.approval = s.tkb.approval := by
  obtain ⟨⟨l, p, hw⟩, -, hslot⟩ := messageOver_over s
  have hcertOk : certOk (messageOver s) id cert = certOk s id cert := (congrArg (certOk · id cert) hw).trans rfl
  have happroves : approves (messageOver s) c id cert b = approves s c id cert b :=
    (congrArg (approves · c id cert b) hw).trans rfl
  have happroval : (messageOver s).tkb.approval = s.tkb.approval := by rw [hw]
  have henrolled : (messageOver s).tkb.enrolled = s.tkb.enrolled := by rw [hw]
  have hquorum : (messageOver s).tkb.quorum = s.tkb.quorum := by rw [hw]
  have hu := takeAnswer_takes (takeApproval b) hruns ha
  obtain ⟨hid', hcert', hasked'⟩ := hslot i
  rw [← hcertOk, ← happroves, ← hquorum, ← happroval]
  rw [← happroval] at hopen
  rw [← henrolled] at hfind
  generalize messageOver s = w at *
  cases hok : certOk w id cert && approves w c id cert b with
  | false =>
    obtain ⟨t, ht, htkb⟩ := tkb_of_run (j := .approve b) rfl
      (hu.trans (takeApproval_rejects hopen (hid'.trans hid) (hcert'.trans hcert) hok))
    exact ⟨t, ht, by rw [if_neg Bool.false_ne_true]; exact (congrArg Tkb.approval htkb :)⟩
  | true =>
    obtain ⟨t, ht, htkb⟩ := tkb_of_run (j := .approve b) rfl
      (hu.trans (takeApproval_counts hopen (hid'.trans hid) (hcert'.trans hcert) (hasked'.trans hasked) hok hfind hdigest hnew))
    refine ⟨t, ht, ?_⟩
    rw [if_pos rfl, htkb]
    exact checkQuorum_held (c := { c with counted := insertSorted k c.counted }) (s := askedNoMore i w) haction

end

/-! ### The obligation -/

/-- The ceremony that opens is the one of the registers, with the nonce of the DRBG that serves. -/
theorem ceremonyOpen_opens {s : State} {i : Nat} (hw : s.tkb.startWanted = true) (hr : approvalReserved s = false)
    (hi : servingInst s = some i) :
    ∃ t c, exec .ceremonyOpen s = .next t ∧ t.tkb.approval = .open c ∧ c.action = s.tkb.action ∧ c.counted = []
      ∧ c.own = false ∧ c.nonce = drawn s i 32 ∧ c.deadline = s.now + 600 * 1000000 ∧ t.tkb.startWanted = false := by
  obtain ⟨t, ht, htkb⟩ := tkb_of_run (j := .ceremonyOpen) rfl (openCeremony_opens hw hr hi)
  obtain ⟨happroval, hwanted⟩ := askTokens_approval (List.range 8)
    (opened (newCeremony (drawn s i 32) (generate i 32 false s)) (generate i 32 false s))
  exact ⟨t, newCeremony (drawn s i 32) (generate i 32 false s), ht, (congrArg Tkb.approval htkb).trans happroval, rfl, rfl, rfl, rfl,
    rfl, (congrArg Tkb.startWanted htkb).trans hwanted⟩

/-- Settles O60: START by `beginCeremony`, answers by `takeAnswer`, the quorum by `writeQuorum`. -/
theorem ceremonies : Obligations.Ceremonies := by
  unfold Obligations.Ceremonies
  intro s
  refine ⟨fun i b hruns hlen ha => ⟨?cert, fun hb => ?count, fun c id cert k e hopen hid hcert =>
      ⟨fun h => approve_unasked hruns ha h, fun hasked hfind hdigest hnew haction =>
        approve_asked hruns ha hopen hid hcert hasked hfind hdigest hnew haction⟩⟩,
    fun htakes hr => ⟨fun h1 h2 h3 => ?start, fun h1 h2 => ?authority, fun h => ?unknown, fun c hc => ?cancel⟩,
    fun htakes hr => ⟨?reservedStart, ?reservedCancel⟩, fun i hw hr hi => ceremonyOpen_opens hw hr hi, fun h => ?waits,
    fun c hc => ?close, fun c k hc => ?outlives, fun htakes hbad v hv => ⟨fun h1 h2 => ?raises, fun h1 h2 => ?tooMany,
      fun h1 h2 => ?unapproved, fun u h1 h2 => ?lowers, fun h => ?same⟩⟩
  case cert =>
    obtain ⟨⟨l, p, hw⟩, hlength, -⟩ := messageOver_over s
    have hmessage : (messageOver s).tkb.message = [] := by rw [hw]
    have hi : i < (messageOver s).tkb.slots.length := by
      rw [hlength, hlen]
      exact attachedSlot_lt ha
    have hslot := tokAt_updTok_same (fun t => { t with cert := some b }) hi
    obtain ⟨t, ht, htkb⟩ := tkb_of_run (j := .getCert b) rfl (takeAnswer_takes (giveCert b) hruns ha)
    generalize messageOver s = w at *
    exact ⟨t, ht, congrArg TokSlot.cert ((tokAt_of_slots (congrArg Tkb.slots htkb) i).trans hslot),
      Eq.trans (congrArg Tkb.message htkb :) hmessage⟩
  case count =>
    obtain ⟨-, hlength, -⟩ := messageOver_over s
    have hi : i < (messageOver s).tkb.slots.length := by
      rw [hlength, hlen]
      exact attachedSlot_lt ha
    obtain ⟨hcount, -⟩ := takeWriteCount_counts (leNat b) hi
    obtain ⟨t, ht, htkb⟩ := tkb_of_run (j := .getCounter b) rfl ((takeAnswer_takes (giveCount b) hruns ha).trans (if_pos hb))
    exact ⟨t, ht, (congrArg TokSlot.writeCount (tokAt_of_slots (congrArg Tkb.slots htkb) i)).trans hcount⟩
  case start =>
    obtain ⟨t, ht, htkb⟩ := tkb_of_run (j := .tkbCerStart) rfl (pfWrite_of_takes htakes)
    rw [startCeremony_waits hr h1 h2 h3] at htkb
    exact ⟨t, ht, (congrArg Tkb.startWanted htkb :), (congrArg Tkb.result htkb :), (congrArg Tkb.approval htkb :)⟩
  case authority =>
    obtain ⟨t, ht, htkb⟩ := tkb_of_run (j := .tkbCerStart) rfl (pfWrite_of_takes htakes)
    refine ⟨t, ht, ?_⟩
    rw [htkb]
    exact startCeremony_authority hr h1 h2
  case unknown =>
    obtain ⟨t, ht, htkb⟩ := tkb_of_run (j := .tkbCerStart) rfl (pfWrite_of_takes htakes)
    rw [startCeremony_unknown hr h] at htkb
    exact ⟨t, ht, (congrArg Tkb.startWanted htkb :), (congrArg Tkb.result htkb :), (congrArg Tkb.approval htkb :)⟩
  case cancel =>
    obtain ⟨t, ht, htkb⟩ := tkb_of_run (j := .tkbCerCancel) rfl ((pfWrite_of_takes htakes).trans (cancelCeremony_eq hr))
    rw [endCeremony_tkb (s := { s with tkb := { s.tkb with startWanted := false } }) 0 hc] at htkb
    exact ⟨t, ht, (congrArg Tkb.approval htkb :), (congrArg Tkb.result htkb :), (congrArg Tkb.startWanted htkb :)⟩
  case reservedStart => exact leadsTo_of_run rfl ((pfWrite_of_takes htakes).trans (if_pos hr : startCeremony s = s)) rfl rfl
  case reservedCancel => exact leadsTo_of_run rfl ((pfWrite_of_takes htakes).trans (if_pos hr : cancelCeremony s = s)) rfl rfl
  case waits => exact leadsTo_of_run (f := openCeremony) rfl (openCeremony_waits h) rfl rfl
  case close =>
    obtain ⟨t, ht, htkb⟩ := tkb_of_run (j := .ceremonyWindowClose) rfl (closeWindow_ends hc)
    rw [endCeremony_tkb 7 hc] at htkb
    exact ⟨t, ht, (congrArg Tkb.approval htkb :), (congrArg Tkb.result htkb :)⟩
  case outlives =>
    exact leadsTo_of_run (f := closeWindow) rfl (by simp only [closeWindow, hc]) rfl rfl
  case raises =>
    exact leadsTo_of_run rfl ((pfGuarded_of_takes htakes hbad).trans (writeQuorum_raises hv h1 h2)) rfl rfl
  case tooMany =>
    exact leadsTo_of_run rfl ((pfGuarded_of_takes htakes hbad).trans (writeQuorum_tooMany hv h1 h2)) rfl rfl
  case unapproved =>
    exact leadsTo_of_run rfl ((pfGuarded_of_takes htakes hbad).trans (writeQuorum_unapproved hv h1 h2)) rfl rfl
  case lowers =>
    exact leadsTo_of_run rfl ((pfGuarded_of_takes htakes hbad).trans (writeQuorum_lowers hv h1 h2)) rfl rfl
  case same =>
    exact leadsTo_of_run rfl ((pfGuarded_of_takes htakes hbad).trans (writeQuorum_same hv h)) rfl rfl

end Sys2Proof.Machine
